-- ==== Sys2Proof/Word.lean ====
section
/-! DEFINITION. The word types of the KX4210: the widths the spec gives to bytes, counters and identifiers. -/

namespace Sys2Proof

/-- One payload byte of a riser frame (R90). -/
abbrev Byte := BitVec 8
/-- The evaluation counter and the revolution count (R8, R191). -/
abbrev Word16 := BitVec 16
/-- The 29-bit identifier of a riser frame (R89). -/
abbrev Ident := BitVec 29
/-- The receive sequence counter and the seconds counter (R93, R206). -/
abbrev Word32 := BitVec 32

end Sys2Proof
end

