-- ==== Sys2Proof/Syntax.lean ====
section
/-! DEFINITION. The commands of the KX4210: one constructor of `Instr` per row of spec/opcode_table.json, with the operands the
spec gives that row, and the named choices those operands are made of. -/

namespace Sys2Proof

/-- The three positional output channels (R161). -/
inductive Channel where
  | oda | byp | whl
  deriving DecidableEq, Repr

/-- The operating modes (00_scope.md, R26). -/
inductive Mode where
  | safe | recover | neutral | free | defrost
  deriving DecidableEq, Repr

/-- The Sequencer's phases (R27). -/
inductive Phase where
  | settled | claiming | followWait | ramping | suspended
  deriving DecidableEq, Repr

/-- The two shared resources of a shaft (R56). -/
inductive Resource where
  | relief | defrost
  deriving DecidableEq, Repr

/-- The sources of the outdoor value (R150). -/
inductive OutdoorSource where
  | band | ownFirst | ownOnly
  deriving DecidableEq, Repr

/-- The values of BASIS (R198). -/
inductive Basis where
  | drybulb | enthalpy | both
  deriving DecidableEq, Repr

/-- The values of BAND_SHAFT (R148). -/
inductive BandShaft where
  | own | any
  deriving DecidableEq, Repr

/-- The values of FOLLOW (R36). -/
inductive FollowMode where
  | none | below | list
  deriving DecidableEq, Repr

/-- The three supervised limits (R179). -/
inductive LimitName where
  | supplyLow | frostTrip | stall
  deriving DecidableEq, Repr

/-- The action of a limit (R180). -/
inductive LimitAction where
  | ignore | note | hold | guardStop | guardRamp
  deriving DecidableEq, Repr

/-- The six channels of the measurement store (R204). -/
inductive MeasChannel where
  | returnT | returnW | supplyT | probeT | probeW | exhaustT
  deriving DecidableEq, Repr

/-- ATTN_MASK: any subset of the three notice classes (R198). -/
structure AttnMask where
  event : Bool
  warning : Bool
  fault : Bool
  deriving DecidableEq, Repr

/-- The shaft selector of a filter slot (R115). -/
inductive ShaftSelector where
  | own | any | number (n : Nat)
  deriving DecidableEq, Repr

/-- The level window of a filter slot, with the fields its form has (R115). -/
inductive Window where
  | relative (span : Nat)
  | absolute (lo hi : Nat)
  deriving DecidableEq, Repr

/-- One filter slot, written and read whole (R115). The kinds set is the two flags. -/
structure FilterRecord where
  enable : Bool
  beacons : Bool
  alerts : Bool
  selector : ShaftSelector
  window : Window
  inverse : Bool
  join : Bool
  deriving DecidableEq, Repr

/-- The configuration items whose form is a numeric range (R198, R199), the identity items among them. -/
inductive NumItem where
  | addr | level | shaft | cls
  | tBCN | tSTALE | tEXPIRE | tQUIET
  | bandHalf | disTolT | disTolW | disCount | disMinPeers | tBANDHOLD | tMEASAGE
  | dtOn | dtOff | dhOn | dhOff | tFreeLow | tFreeHigh | wFreeHigh | limBand | dtRec | dhRec
  | eff | tFrost | wheelMin | frostCap | whlSafe | tSpDefault
  | confirm | tEVAL | tDWELL | tDEFROST | tDEFINT
  | reliefUnits | reliefCap | defrostSlots | tHOLD | tBACK | maxTries | tLOCK
  | followN | tFOLLOW
  | oaMin | slewOda | slewByp | slewWhl | lvlSeq | lvlGuard | lvlManual | tRESUME
  | tSupLow | tFrostTrip | tSTALL | ppr | limHyst
  deriving DecidableEq, Repr

/-- The items whose form is a list of values (R199). -/
inductive ListedItem where
  | lineRate | fireFilter | rotFilter
  deriving DecidableEq, Repr

/-- An item named by CFG READ; `unknown` is an item the part does not have (R200). -/
inductive CfgItem where
  | numeric (i : NumItem)
  | listed (i : ListedItem)
  | firePosition (ch : Channel)
  | bandShaft | source | basis | follow
  | action (l : LimitName)
  | followList
  | filter (n : Fin 4)
  | attnMask
  | unknown
  deriving DecidableEq, Repr

/-- A CFG WRITE: an item together with a value of the item's form (R199). A named choice is `none` when its code names no member;
a fire position is `none` when it is RELEASE, and one below 0 has no form here (DESIGN CHOICE, log entry 28). A filter record carries
a member in each of its coded fields: one whose enable, kinds, selector or form code names none has no form here (DESIGN CHOICE, log
entry 25). -/
inductive CfgWrite where
  | numeric (i : NumItem) (v : Int)
  | listed (i : ListedItem) (v : Int)
  | firePosition (ch : Channel) (v : Option Nat)
  | bandShaft (v : Option BandShaft)
  | source (v : Option OutdoorSource)
  | basis (v : Option Basis)
  | follow (v : Option FollowMode)
  | action (l : LimitName) (v : Option LimitAction)
  | followList (v : List Int)
  | filter (n : Fin 4) (v : FilterRecord)
  | attnMask (v : Option AttnMask)
  | unknown
  deriving DecidableEq, Repr

/-- A frame as the line carries it (R90): whether its identifier has 29 bits (else 11), whether it is a remote frame,
the identifier and the data bytes. -/
structure LineFrame where
  extended : Bool
  remote : Bool
  ident : Ident
  data : List Byte
  deriving DecidableEq, Repr

/-- The commands and events of spec/opcode_table.json, one constructor per row in the table's order.
An operand that the spec lets be none of the named ones is an `Option`, `none` standing for such an operand. -/
inductive Instr where
  | powerOnReset
  | transactionDiscarded
  | badCommand
  | cfgWrite (w : CfgWrite)
  | cfgRead (item : CfgItem)
  | cfgClose
  | measWrite (ch : Option MeasChannel) (v : Option Int)
  | setpointWrite (v : Int)
  | sourceSelect (src : Option OutdoorSource)
  | manualPost (ch : Option Channel) (position duration : Nat)
  | manualCancel (ch : Option Channel)
  | limitClear
  | linkOn
  | linkOff
  | statusRead
  | evalRead
  | peerRead (index : Nat)
  | claimRead (index : Nat)
  | noticePop
  | identRead
  | restart
  | restartCompletion
  | evalTimerExpiry
  | bandHoldExpiry
  | slewStep (ch : Channel)
  | dwellExpiry
  | defrostCycleExpiry
  | followTimeout
  | firePinChange (level : Bool)
  | fireFilterExpiry
  | frameReceived (f : LineFrame)
  | receiveError
  | transmitAttemptStart
  | transmitSuccess
  | waitingRequestTaken (r : Resource)
  | deferredIntentQueue (r : Resource)
  | arbitrationLost
  | transmitFailure
  | quietTimerExpiry
  | joiningTimerExpiry
  | beaconTimerExpiry
  | claimHoldoffExpiry (r : Resource)
  | backoffExpiry (r : Resource)
  | lockoutExpiry (r : Resource)
  | claimRecordExpiry (addr : Nat) (r : Resource)
  | fireSetExpiry (addr : Nat)
  | peerStale (addr : Nat)
  | peerLost (addr : Nat)
  | measurementStale (ch : MeasChannel)
  | manualExpired (ch : Channel)
  | stallTimerExpiry
  | rotPinChange (level : Bool)
  | rotFilterExpiry
  deriving DecidableEq, Repr

end Sys2Proof
end

