-- ==== Sys2Proof/WellFormed.lean ====
section
/-! DEFINITION. Which operands of a command can reach the part at all: what the line and the port cannot carry is ill formed. -/

namespace Sys2Proof

/-- A station address (R89). -/
def addressOk (a : Nat) : Bool := 1 ≤ a && a ≤ 48

/-- A classical frame has at most 8 data bytes, and a frame that is not extended has an 11-bit identifier (R90). -/
def frameOk (f : LineFrame) : Bool := f.data.length ≤ 8 && (f.extended || f.ident.toNat < 2048)

/-- The well-formed commands: received frames are frames a CAN line can carry, and the ageing events name a station address. -/
def WellFormed : Instr → Bool
  | .frameReceived f => frameOk f
  | .claimRecordExpiry a _ => addressOk a
  | .fireSetExpiry a => addressOk a
  | .peerStale a => addressOk a
  | .peerLost a => addressOk a
  | _ => true

end Sys2Proof
end

