-- ==== Sys2Proof/Decode.lean ====
section
/-! DEFINITION. The reader of a table word. spec/opcode_table.json gives no row any bits (every row's "fields" is empty and none has
"fixed"): the port's command codes, the operand encodings and the events have no numbers in the spec. So no word spells a command. -/

namespace Sys2Proof

/-- No row of the table gives bits, so no word spells a command. -/
def decodeTableWord (_nbits _w : Nat) : Option Instr := none

end Sys2Proof
end

