-- ==== Sys2Proof/Config.lean ====
section
/-! DEFINITION. The configuration record (R198), grouped as the spec groups its items, and the free values: the orders the spec
leaves open. -/

namespace Sys2Proof

/-- One value per output channel. -/
structure PerChannel (α : Type) where
  oda : α
  byp : α
  whl : α
  deriving DecidableEq, Repr

/-- One value per resource. -/
structure PerResource (α : Type) where
  relief : α
  defrost : α
  deriving DecidableEq, Repr

/-- Identity group (R198). ADDR, LEVEL and SHAFT are absent until written; their written mark is their being present. -/
structure IdentityItems where
  addr : Option Nat
  level : Option Nat
  shaft : Option Nat
  cls : Nat
  deriving DecidableEq, Repr

/-- Line group (R198): LINE_RATE in kbit/s, the periods in seconds. -/
structure LineItems where
  lineRate : Nat
  tBCN : Nat
  tSTALE : Nat
  tEXPIRE : Nat
  tQUIET : Nat
  deriving DecidableEq, Repr

/-- The four filter slots (R115). -/
structure FilterItems where
  f0 : FilterRecord
  f1 : FilterRecord
  f2 : FilterRecord
  f3 : FilterRecord
  deriving DecidableEq, Repr

/-- Band and Measurement groups (R198); tBANDHOLD and tMEASAGE in seconds. -/
structure BandItems where
  bandHalf : Nat
  bandShaft : BandShaft
  source : OutdoorSource
  disTolT : Nat
  disTolW : Nat
  disCount : Nat
  disMinPeers : Nat
  tBANDHOLD : Nat
  tMEASAGE : Nat
  deriving DecidableEq, Repr

/-- Decision group (R198); the periods in seconds. -/
structure DecisionItems where
  basis : Basis
  dtOn : Int
  dtOff : Int
  dhOn : Int
  dhOff : Int
  tFreeLow : Int
  tFreeHigh : Int
  wFreeHigh : Int
  limBand : Int
  dtRec : Int
  dhRec : Int
  eff : Nat
  tFrost : Int
  wheelMin : Nat
  frostCap : Nat
  whlSafe : Nat
  tSpDefault : Int
  confirm : Nat
  tEVAL : Nat
  tDWELL : Nat
  tDEFROST : Nat
  tDEFINT : Nat
  deriving DecidableEq, Repr

/-- Claims group (R198); tHOLD in ms, tBACK and tLOCK in seconds. -/
structure ClaimItems where
  reliefUnits : Nat
  reliefCap : Nat
  defrostSlots : Nat
  tHOLD : Nat
  tBACK : Nat
  maxTries : Nat
  tLOCK : Nat
  deriving DecidableEq, Repr

/-- Follow group (R198); tFOLLOW in seconds. -/
structure FollowItems where
  follow : FollowMode
  followN : Nat
  followList : List Nat
  tFOLLOW : Nat
  deriving DecidableEq, Repr

/-- Outputs group (R198). A fire position is `none` when it is RELEASE; FIRE_FILTER in ms, tRESUME in seconds. -/
structure OutputItems where
  oaMin : Nat
  slew : PerChannel Nat
  lvlSeq : Nat
  lvlGuard : Nat
  lvlManual : Nat
  fire : PerChannel (Option Nat)
  fireFilter : Nat
  tRESUME : Nat
  deriving DecidableEq, Repr

/-- Limits group (R198); tSTALL in seconds, ROT_FILTER in ms. -/
structure LimitItems where
  tSupLow : Int
  supLowAct : LimitAction
  tFrostTrip : Int
  frostAct : LimitAction
  stallAct : LimitAction
  tSTALL : Nat
  ppr : Nat
  rotFilter : Nat
  limHyst : Int
  deriving DecidableEq, Repr

/-- The configuration record (R198). -/
structure Settings where
  ident : IdentityItems
  line : LineItems
  filters : FilterItems
  band : BandItems
  decision : DecisionItems
  claims : ClaimItems
  follow : FollowItems
  outputs : OutputItems
  limits : LimitItems
  attnMask : AttnMask
  deriving DecidableEq, Repr

/-- FREE VALUE (log entry 2). Which of several events due at one moment is taken first (R3): the spec lets either be taken. -/
opaque Config.dueChoice : Nat → Nat

/-- FREE VALUE (log entry 3). Which of two hand-offs that "carry no order between them" is made first (R25). -/
opaque Config.handOffFirst : Nat → Bool

/-- FREE VALUE (log entry 10). Whether a count of seconds remaining that is not whole is shown rounded up, by the ms remaining: R171
gives "the seconds remaining" and no rounding. -/
opaque Config.remainderUp : Nat → Bool

end Sys2Proof
end

