-- ==== Sys2Proof/Machine/Settings.lean ====
section
/-! DEFINITION. The configuration record's defaults, ranges, reads and writes (R198 to R200, R115 to R118) and the close-time checks
(R202). -/

namespace Sys2Proof.Machine

/-- The value a per-channel record holds for a channel. -/
def chGet (p : PerChannel α) : Channel → α
  | .oda => p.oda
  | .byp => p.byp
  | .whl => p.whl

/-- A per-channel record with one channel's value replaced. -/
def chSet (p : PerChannel α) (ch : Channel) (v : α) : PerChannel α :=
  match ch with
  | .oda => { p with oda := v }
  | .byp => { p with byp := v }
  | .whl => { p with whl := v }

/-- The value a per-resource record holds for a resource. -/
def resGet (p : PerResource α) : Resource → α
  | .relief => p.relief
  | .defrost => p.defrost

/-- A per-resource record with one resource's value replaced. -/
def resSet (p : PerResource α) (r : Resource) (v : α) : PerResource α :=
  match r with
  | .relief => { p with relief := v }
  | .defrost => { p with defrost := v }

/-- The nearest end of lo..hi for a value outside it, the value itself inside it. -/
def clampInt (lo hi v : Int) : Int := if v < lo then lo else if hi < v then hi else v

/-! ## Ranges (R198) -/

/-- The range of an item of numeric form (R198). -/
def itemRange : NumItem → Int × Int
  | .addr => (1, 48) | .level => (0, 127) | .shaft => (0, 7) | .cls => (0, 3)
  | .tBCN => (1, 30) | .tSTALE => (2, 120) | .tEXPIRE => (5, 600) | .tQUIET => (1, 10)
  | .bandHalf => (0, 20) | .disTolT => (5, 100) | .disTolW => (2, 50) | .disCount => (1, 10)
  | .disMinPeers => (2, 8) | .tBANDHOLD => (0, 1800) | .tMEASAGE => (5, 300)
  | .dtOn => (5, 100) | .dtOff => (0, 100) | .dhOn => (100, 2000) | .dhOff => (0, 2000)
  | .tFreeLow => (-50, 200) | .tFreeHigh => (100, 300) | .wFreeHigh => (50, 200) | .limBand => (0, 50)
  | .dtRec => (1, 200) | .dhRec => (0, 2000) | .eff => (300, 950) | .tFrost => (-150, 50)
  | .wheelMin => (50, 500) | .frostCap => (50, 1000) | .whlSafe => (0, 1000) | .tSpDefault => (120, 250)
  | .confirm => (1, 30) | .tEVAL => (1, 60) | .tDWELL => (0, 3600) | .tDEFROST => (60, 1200)
  | .tDEFINT => (600, 7200)
  | .reliefUnits => (1, 255) | .reliefCap => (1, 4095) | .defrostSlots => (1, 4) | .tHOLD => (500, 5000)
  | .tBACK => (1, 30) | .maxTries => (1, 15) | .tLOCK => (60, 3600)
  | .followN => (1, 4) | .tFOLLOW => (10, 600)
  | .oaMin => (0, 500) | .slewOda => (1, 100) | .slewByp => (1, 100) | .slewWhl => (1, 100)
  | .lvlSeq => (1, 3) | .lvlGuard => (1, 3) | .lvlManual => (0, 3) | .tRESUME => (10, 3600)
  | .tSupLow => (-100, 150) | .tFrostTrip => (-250, 0) | .tSTALL => (2, 120) | .ppr => (1, 16)
  | .limHyst => (5, 50)

/-- The listed values of an item of that form, rising (R198). -/
def listedValues : ListedItem → List Nat
  | .lineRate => [20, 50, 125]
  | .fireFilter => [10, 50, 200, 1000]
  | .rotFilter => [1, 4, 16, 64]

/-- The greatest listed value not above the one written, or the lowest when it is below them all (R199). -/
def storeListed (vals : List Nat) (v : Int) : Nat :=
  vals.foldl (fun (best x : Nat) => if (x : Int) ≤ v then x else best) (vals.headD 0)

/-! ## Defaults (R198, R115) -/

/-- The default filter slot: every BEACON and ALERT of the own shaft at any level; FILT0 alone is enabled (R115). -/
def defaultFilter (enable : Bool) : FilterRecord :=
  { enable := enable, beacons := true, alerts := true, selector := .own, window := .relative 127, inverse := false, join := false }

/-- The configuration record after power-on reset (R198). -/
def defaults : Settings where
  ident := { addr := none, level := none, shaft := none, cls := 1 }
  line := { lineRate := 50, tBCN := 5, tSTALE := 15, tEXPIRE := 60, tQUIET := 2 }
  filters := { f0 := defaultFilter true, f1 := defaultFilter false, f2 := defaultFilter false, f3 := defaultFilter false }
  band := { bandHalf := 4, bandShaft := .own, source := .band, disTolT := 20, disTolW := 10, disCount := 3, disMinPeers := 3,
            tBANDHOLD := 300, tMEASAGE := 60 }
  decision := { basis := .enthalpy, dtOn := 20, dtOff := 10, dhOn := 300, dhOff := 150, tFreeLow := 50, tFreeHigh := 240,
                wFreeHigh := 110, limBand := 10, dtRec := 30, dhRec := 200, eff := 750, tFrost := -20, wheelMin := 100,
                frostCap := 400, whlSafe := 1000, tSpDefault := 160, confirm := 6, tEVAL := 10, tDWELL := 900, tDEFROST := 300,
                tDEFINT := 1800 }
  claims := { reliefUnits := 10, reliefCap := 100, defrostSlots := 1, tHOLD := 1500, tBACK := 4, maxTries := 5, tLOCK := 300 }
  follow := { follow := .below, followN := 1, followList := [], tFOLLOW := 120 }
  outputs := { oaMin := 150, slew := ⟨20, 50, 100⟩, lvlSeq := 1, lvlGuard := 3, lvlManual := 2, fire := ⟨some 0, some 1000, some 0⟩,
               fireFilter := 50, tRESUME := 600 }
  limits := { tSupLow := 60, supLowAct := .guardRamp, tFrostTrip := -50, frostAct := .guardStop, stallAct := .guardStop,
              tSTALL := 20, ppr := 2, rotFilter := 4, limHyst := 20 }
  attnMask := { event := false, warning := true, fault := true }

/-! ## Reading and writing items -/

/-- The stored value of an item of numeric form; an identity item not yet written is absent (R200). -/
def getNum (c : Settings) : NumItem → Option Int
  | .addr => c.ident.addr.map Int.ofNat | .level => c.ident.level.map Int.ofNat
  | .shaft => c.ident.shaft.map Int.ofNat | .cls => some c.ident.cls
  | .tBCN => some c.line.tBCN | .tSTALE => some c.line.tSTALE | .tEXPIRE => some c.line.tEXPIRE
  | .tQUIET => some c.line.tQUIET
  | .bandHalf => some c.band.bandHalf | .disTolT => some c.band.disTolT | .disTolW => some c.band.disTolW
  | .disCount => some c.band.disCount | .disMinPeers => some c.band.disMinPeers
  | .tBANDHOLD => some c.band.tBANDHOLD | .tMEASAGE => some c.band.tMEASAGE
  | .dtOn => some c.decision.dtOn | .dtOff => some c.decision.dtOff | .dhOn => some c.decision.dhOn
  | .dhOff => some c.decision.dhOff | .tFreeLow => some c.decision.tFreeLow
  | .tFreeHigh => some c.decision.tFreeHigh | .wFreeHigh => some c.decision.wFreeHigh
  | .limBand => some c.decision.limBand | .dtRec => some c.decision.dtRec | .dhRec => some c.decision.dhRec
  | .eff => some c.decision.eff | .tFrost => some c.decision.tFrost | .wheelMin => some c.decision.wheelMin
  | .frostCap => some c.decision.frostCap | .whlSafe => some c.decision.whlSafe
  | .tSpDefault => some c.decision.tSpDefault | .confirm => some c.decision.confirm
  | .tEVAL => some c.decision.tEVAL | .tDWELL => some c.decision.tDWELL | .tDEFROST => some c.decision.tDEFROST
  | .tDEFINT => some c.decision.tDEFINT
  | .reliefUnits => some c.claims.reliefUnits | .reliefCap => some c.claims.reliefCap
  | .defrostSlots => some c.claims.defrostSlots | .tHOLD => some c.claims.tHOLD | .tBACK => some c.claims.tBACK
  | .maxTries => some c.claims.maxTries | .tLOCK => some c.claims.tLOCK
  | .followN => some c.follow.followN | .tFOLLOW => some c.follow.tFOLLOW
  | .oaMin => some c.outputs.oaMin | .slewOda => some c.outputs.slew.oda | .slewByp => some c.outputs.slew.byp
  | .slewWhl => some c.outputs.slew.whl | .lvlSeq => some c.outputs.lvlSeq | .lvlGuard => some c.outputs.lvlGuard
  | .lvlManual => some c.outputs.lvlManual | .tRESUME => some c.outputs.tRESUME
  | .tSupLow => some c.limits.tSupLow | .tFrostTrip => some c.limits.tFrostTrip | .tSTALL => some c.limits.tSTALL
  | .ppr => some c.limits.ppr | .limHyst => some c.limits.limHyst

/-- The record with an item of numeric form holding a value. A value for an item that is never negative is taken as a natural
number. -/
def setNum (c : Settings) (i : NumItem) (v : Int) : Settings :=
  let n := v.toNat
  match i with
  | .addr => { c with ident.addr := some n } | .level => { c with ident.level := some n }
  | .shaft => { c with ident.shaft := some n } | .cls => { c with ident.cls := n }
  | .tBCN => { c with line.tBCN := n } | .tSTALE => { c with line.tSTALE := n }
  | .tEXPIRE => { c with line.tEXPIRE := n } | .tQUIET => { c with line.tQUIET := n }
  | .bandHalf => { c with band.bandHalf := n } | .disTolT => { c with band.disTolT := n }
  | .disTolW => { c with band.disTolW := n } | .disCount => { c with band.disCount := n }
  | .disMinPeers => { c with band.disMinPeers := n } | .tBANDHOLD => { c with band.tBANDHOLD := n }
  | .tMEASAGE => { c with band.tMEASAGE := n }
  | .dtOn => { c with decision.dtOn := v } | .dtOff => { c with decision.dtOff := v }
  | .dhOn => { c with decision.dhOn := v } | .dhOff => { c with decision.dhOff := v }
  | .tFreeLow => { c with decision.tFreeLow := v } | .tFreeHigh => { c with decision.tFreeHigh := v }
  | .wFreeHigh => { c with decision.wFreeHigh := v } | .limBand => { c with decision.limBand := v }
  | .dtRec => { c with decision.dtRec := v } | .dhRec => { c with decision.dhRec := v }
  | .eff => { c with decision.eff := n } | .tFrost => { c with decision.tFrost := v }
  | .wheelMin => { c with decision.wheelMin := n } | .frostCap => { c with decision.frostCap := n }
  | .whlSafe => { c with decision.whlSafe := n } | .tSpDefault => { c with decision.tSpDefault := v }
  | .confirm => { c with decision.confirm := n } | .tEVAL => { c with decision.tEVAL := n }
  | .tDWELL => { c with decision.tDWELL := n } | .tDEFROST => { c with decision.tDEFROST := n }
  | .tDEFINT => { c with decision.tDEFINT := n }
  | .reliefUnits => { c with claims.reliefUnits := n } | .reliefCap => { c with claims.reliefCap := n }
  | .defrostSlots => { c with claims.defrostSlots := n } | .tHOLD => { c with claims.tHOLD := n }
  | .tBACK => { c with claims.tBACK := n } | .maxTries => { c with claims.maxTries := n }
  | .tLOCK => { c with claims.tLOCK := n }
  | .followN => { c with follow.followN := n } | .tFOLLOW => { c with follow.tFOLLOW := n }
  | .oaMin => { c with outputs.oaMin := n } | .slewOda => { c with outputs.slew.oda := n }
  | .slewByp => { c with outputs.slew.byp := n } | .slewWhl => { c with outputs.slew.whl := n }
  | .lvlSeq => { c with outputs.lvlSeq := n } | .lvlGuard => { c with outputs.lvlGuard := n }
  | .lvlManual => { c with outputs.lvlManual := n } | .tRESUME => { c with outputs.tRESUME := n }
  | .tSupLow => { c with limits.tSupLow := v } | .tFrostTrip => { c with limits.tFrostTrip := v }
  | .tSTALL => { c with limits.tSTALL := n } | .ppr => { c with limits.ppr := n }
  | .limHyst => { c with limits.limHyst := v }

/-- The stored value of a listed item. -/
def getListed (c : Settings) : ListedItem → Nat
  | .lineRate => c.line.lineRate
  | .fireFilter => c.outputs.fireFilter
  | .rotFilter => c.limits.rotFilter

/-- The record with a listed item holding a value. -/
def setListed (c : Settings) (i : ListedItem) (n : Nat) : Settings :=
  match i with
  | .lineRate => { c with line.lineRate := n }
  | .fireFilter => { c with outputs.fireFilter := n }
  | .rotFilter => { c with limits.rotFilter := n }

/-- The action of a limit (R180). -/
def actionOf (c : Settings) : LimitName → LimitAction
  | .supplyLow => c.limits.supLowAct
  | .frostTrip => c.limits.frostAct
  | .stall => c.limits.stallAct

/-- The record with a limit's action replaced. -/
def setAction (c : Settings) (l : LimitName) (a : LimitAction) : Settings :=
  match l with
  | .supplyLow => { c with limits.supLowAct := a }
  | .frostTrip => { c with limits.frostAct := a }
  | .stall => { c with limits.stallAct := a }

/-- Filter slot FILTn. -/
def getFilter (c : Settings) (n : Fin 4) : FilterRecord :=
  match n with
  | 0 => c.filters.f0
  | 1 => c.filters.f1
  | 2 => c.filters.f2
  | 3 => c.filters.f3

/-- The record with filter slot FILTn replaced whole (R117). -/
def setFilter (c : Settings) (n : Fin 4) (f : FilterRecord) : Settings :=
  match n with
  | 0 => { c with filters.f0 := f }
  | 1 => { c with filters.f1 := f }
  | 2 => { c with filters.f2 := f }
  | 3 => { c with filters.f3 := f }

/-- A filter record with its numeric fields clamped to their ranges (R117). -/
def clampFilter (f : FilterRecord) : FilterRecord :=
  { f with
    selector := match f.selector with
      | .number n => .number (min n 7)
      | sel => sel
    window := match f.window with
      | .relative span => .relative (min span 127)
      | .absolute lo hi => .absolute (min lo 127) (min hi 127) }

/-- The address list as stored: each address once, in the order of its first entry (R199). -/
def dedupe : List Nat → List Nat
  | [] => []
  | a :: rest => a :: (dedupe rest).filter (fun b => b != a)

/-- What a CFG WRITE before close does to the record (R199): the stored record and whether the value was clamped, or `none` where
the value is refused BAD_OPERAND. A filter record has a member in each of its coded fields, so no write of one is refused: DESIGN
CHOICE, log entry 25. -/
def storeItem (c : Settings) : CfgWrite → Option (Settings × Bool)
  | .numeric i v =>
    let (lo, hi) := itemRange i
    let w := clampInt lo hi v
    some (setNum c i w, w != v)
  | .listed i v =>
    let n := storeListed (listedValues i) v
    some (setListed c i n, (n : Int) != v)
  | .firePosition ch v =>
    match v with
    | none => some ({ c with outputs.fire := chSet c.outputs.fire ch none }, false)
    | some p => some ({ c with outputs.fire := chSet c.outputs.fire ch (some (min p 1000)) }, 1000 < p)
  | .bandShaft v => v.map fun x => ({ c with band.bandShaft := x }, false)
  | .source v => v.map fun x => ({ c with band.source := x }, false)
  | .basis v => v.map fun x => ({ c with decision.basis := x }, false)
  | .follow v => v.map fun x => ({ c with follow.follow := x }, false)
  | .action l v => v.map fun x => (setAction c l x, false)
  | .attnMask v => v.map fun x => ({ c with attnMask := x }, false)
  | .followList as =>
    if as.length ≤ 4 && as.all (fun a => 1 ≤ a && a ≤ 48) then
      some ({ c with follow.followList := dedupe (as.map Int.toNat) }, false)
    else none
  | .filter n f => some (setFilter c n (clampFilter f), clampFilter f != f)
  | .unknown => none

/-! ## Close-time checks (R202) -/

/-- One adjustment of R202, with the item's values before and after: the detail of a CONFIG_ADJUSTED notice. -/
inductive Adjustment where
  | number (i : NumItem) (before after : Int)
  | followList (before after : List Nat)
  | filter (n : Fin 4) (before after : FilterRecord)
  deriving DecidableEq, Repr

/-- A step of R202 that moves one item of numeric form to a value when its condition holds. -/
def adjustNum (cond : Bool) (i : NumItem) (old new : Int) (c : Settings) : Settings × List Adjustment :=
  if cond then (setNum c i new, [.number i old new]) else (c, [])

/-- Step 9 of R202: ADDR is removed from FOLLOW_LIST. -/
def adjustFollowList (c : Settings) : Settings × List Adjustment :=
  match c.ident.addr with
  | none => (c, [])
  | some a =>
    if c.follow.followList.contains a then
      let after := c.follow.followList.filter (fun b => b != a)
      ({ c with follow.followList := after }, [.followList c.follow.followList after])
    else (c, [])

/-- Step 10 of R202 for one slot: an ABSOLUTE window with lo above hi has the two exchanged (R118). -/
def adjustFilter (n : Fin 4) (c : Settings) : Settings × List Adjustment :=
  let f := getFilter c n
  match f.window with
  | .absolute lo hi =>
    if hi < lo then
      let g := { f with window := .absolute hi lo }
      (setFilter c n g, [.filter n f g])
    else (c, [])
  | .relative _ => (c, [])

/-- The steps of R202 in their order, each reading the record as the steps before it have left it. The filter slots of step 10 are
taken in ascending order, and their notices stand so: DESIGN CHOICE, log entry 24. -/
def closeSteps : List (Settings → Settings × List Adjustment) :=
  [ fun c => adjustNum (c.line.tSTALE < 2 * c.line.tBCN) .tSTALE c.line.tSTALE (2 * c.line.tBCN : Nat) c,
    fun c => adjustNum (c.line.tEXPIRE < c.line.tSTALE + c.line.tBCN) .tEXPIRE c.line.tEXPIRE (c.line.tSTALE + c.line.tBCN : Nat) c,
    fun c => adjustNum (c.decision.dtOn < c.decision.dtOff) .dtOff c.decision.dtOff c.decision.dtOn c,
    fun c => adjustNum (c.decision.dhOn < c.decision.dhOff) .dhOff c.decision.dhOff c.decision.dhOn c,
    fun c => adjustNum (c.decision.tFreeHigh < c.decision.tFreeLow + 50) .tFreeHigh c.decision.tFreeHigh (c.decision.tFreeLow + 50) c,
    fun c => adjustNum (c.decision.frostCap < c.decision.wheelMin) .frostCap c.decision.frostCap c.decision.wheelMin c,
    fun c => adjustNum (c.claims.reliefCap < c.claims.reliefUnits) .reliefCap c.claims.reliefCap c.claims.reliefUnits c,
    fun c => adjustNum (c.decision.tFrost - 10 < c.limits.tFrostTrip) .tFrostTrip c.limits.tFrostTrip (c.decision.tFrost - 10) c,
    adjustFollowList,
    adjustFilter 0, adjustFilter 1, adjustFilter 2, adjustFilter 3 ]

/-- Run a list of close-time steps, collecting the adjustments in order. -/
def runSteps : List (Settings → Settings × List Adjustment) → Settings → Settings × List Adjustment
  | [], c => (c, [])
  | f :: rest, c =>
    let (c1, as) := f c
    let (c2, bs) := runSteps rest c1
    (c2, as ++ bs)

/-- The close-time checks of R202: the record as closed and the adjustments made. -/
def closeChecks (c : Settings) : Settings × List Adjustment := runSteps closeSteps c

end Sys2Proof.Machine
end

