-- ==== Sys2Proof/Machine/State.lean ====
section
/-! DEFINITION. The state of the KX4210: every block's state as the spec lists it, the pins, the 1 ms time base and the queue of
waiting commands; the reasons a step can stop; and the state after power-on reset. -/

namespace Sys2Proof.Machine

/-- A moment of the 1 ms time base: ms since power-on reset (00_scope.md, R211). The 32-bit seconds counter is read from it. -/
abbrev Time := Nat

/-! ## Frames (R89 to R92) -/

/-- The six frame kinds (R89). -/
inductive FrameKind where
  | beacon | intent | held | withdraw | release | alert
  deriving DecidableEq, Repr

/-- The quality of an outdoor probe (R145). -/
inductive Quality where
  | valid | disagree | absent
  deriving DecidableEq, Repr

/-- The reason carried by a WITHDRAW frame (R90). -/
inductive WithdrawReason where
  | disturbed | full | cancelled | frozen
  deriving DecidableEq, Repr

/-- The reason carried by a RELEASE frame (R90). -/
inductive ReleaseReason where
  | done | yield | restart
  deriving DecidableEq, Repr

/-- The contents of a BEACON (R90, R91). The probe values are absent exactly when the quality is ABSENT. -/
structure BeaconBody where
  mode : Mode
  phase : Phase
  fire : Bool
  defrostHeld : Bool
  level : Nat
  probeT : Option Int
  probeW : Option Int
  quality : Quality
  reliefUnits : Nat
  cls : Nat
  follow : FollowMode
  deriving DecidableEq, Repr

/-- The contents of an ALERT: FIRE_ON or FIRE_OFF, and the sender's level (R90). -/
structure AlertBody where
  fireOn : Bool
  level : Nat
  deriving DecidableEq, Repr

/-- The contents of a claim frame (R90). -/
inductive ClaimMsg where
  | intent (r : Resource) (amount cls attempt capacity : Nat)
  | held (r : Resource) (amount capacity : Nat)
  | withdraw (r : Resource) (reason : WithdrawReason)
  | release (r : Resource) (reason : ReleaseReason)
  deriving DecidableEq, Repr

/-- The contents of a frame of any kind. -/
inductive FrameBody where
  | beacon (b : BeaconBody)
  | alert (a : AlertBody)
  | claim (m : ClaimMsg)
  deriving DecidableEq, Repr

/-- A received frame that R90 calls a riser frame: its kind, shaft, address and 8 data bytes. -/
structure RiserFrame where
  kind : FrameKind
  shaft : Nat
  addr : Nat
  data : List Byte
  deriving DecidableEq, Repr

/-! ## Link Controller (04_riser_line.md) -/

/-- The five link states (R105 to R110). -/
inductive LinkState where
  | offline | joining | online | quiet | clashed
  deriving DecidableEq, Repr

/-- The four slots of the transmit queue (R99). -/
inductive Slot where
  | beacon | alert | relief | defrost
  deriving DecidableEq, Repr

/-- A claim frame in its slot, with the moment it was queued (R99). -/
structure QueuedClaim where
  msg : ClaimMsg
  queuedAt : Time
  deriving DecidableEq, Repr

/-- The attempt in progress (R103): the slot offered and the frame as filled at the attempt's start (R91, R101). -/
structure Attempt where
  slot : Slot
  body : FrameBody
  deriving DecidableEq, Repr

/-- The Link Controller's state. -/
structure Link where
  /-- link state (R105) -/
  state : LinkState
  /-- the OFFLINE wish, read at close (R106) -/
  offlineWish : Bool
  /-- BEACON slot: the moment its frame was queued (R99, R100) -/
  beaconSlot : Option Time
  /-- ALERT slot: the moment its frame was queued (R99, R101) -/
  alertSlot : Option Time
  /-- RELIEF and DEFROST slots (R102) -/
  claimSlot : PerResource (Option QueuedClaim)
  /-- follow-up mark of the BEACON slot (R100) -/
  beaconMark : Bool
  /-- follow-up mark of the ALERT slot (R101) -/
  alertMark : Bool
  /-- attempt in progress (R103) -/
  attempt : Option Attempt
  /-- consecutive-failure count (R103) -/
  failCount : Nat
  /-- the slot whose present frame failed last, or none when that frame has left its slot: the count belongs to it (R103) -/
  failSlot : Option Slot
  /-- receive sequence counter, the last number given (R93) -/
  sequence : Word32
  /-- when the joining timer expires (R107) -/
  joinTimer : Option Time
  /-- when the beacon timer expires (R100) -/
  beaconTimer : Option Time
  /-- when the quiet timer expires (R109) -/
  quietTimer : Option Time
  deriving DecidableEq, Repr

/-! ## Peer Table (06_peer_table.md) -/

/-- One peer record (R127). -/
structure PeerRecord where
  addr : Nat
  shaft : Nat
  level : Nat
  cls : Nat
  follow : FollowMode
  mode : Mode
  phase : Phase
  fire : Bool
  obsT : Option Int
  obsW : Option Int
  quality : Quality
  lastBeacon : Time
  lastHeard : Time
  beaconsHeard : Nat
  fresh : Bool
  deriving DecidableEq, Repr

/-- The Peer Table: its records in ascending order of address (R141), and when PEER_TABLE_FULL was last posted (R138). -/
structure PeerTable where
  records : List PeerRecord
  lastFull : Option Time
  deriving DecidableEq, Repr

/-! ## Band Estimator (07_outdoor_band_estimation.md) -/

/-- The band status (R143). -/
inductive BandStatus where
  | valid | held | unknown
  deriving DecidableEq, Repr

/-- The origin of a band value (R150). -/
inductive BandOrigin where
  | own | median
  deriving DecidableEq, Repr

/-- The band value (R151). -/
structure BandValue where
  t : Int
  w : Int
  origin : BandOrigin
  count : Nat
  foundAt : Time
  deriving DecidableEq, Repr

/-- The Band Estimator's state. The own probe quality is derived (R145). -/
structure Band where
  value : Option BandValue
  status : BandStatus
  /-- value-lost flag (R152, R153) -/
  lost : Bool
  /-- when the hold timer expires (R152) -/
  holdTimer : Option Time
  /-- the disagreement verdict: set for DISAGREE (R156) -/
  disagree : Bool
  /-- disagreement counter (R156) -/
  counter : Nat
  /-- active source (R159) -/
  source : OutdoorSource
  deriving DecidableEq, Repr

/-! ## Decision Unit (01_changeover_arithmetic.md) -/

/-- The demands of the three channels: a demand set (R23). -/
abbrev DemandSet := PerChannel Nat

/-- The nine reasons of an evaluation (R9, R22). -/
inductive EvalReason where
  | inputUnknown | returnStale | freeFavoured | frost | outdoorLimit | isolated
  | recoveryNotUseful | setpointOtherSide | recoveryUseful
  deriving DecidableEq, Repr

/-- The origin of the setpoint used (R7). -/
inductive SetpointOrigin where
  | written | dflt
  deriving DecidableEq, Repr

/-- The evaluation result record (R24). -/
structure EvalRecord where
  number : Word16
  tO : Option Int
  wO : Option Int
  bandStatus : BandStatus
  tR : Option Int
  wR : Option Int
  tSp : Option Int
  spOrigin : Option SetpointOrigin
  inFree : Bool
  inDefrost : Bool
  isolated : Bool
  defrostPermitted : Bool
  hO : Option Int
  hR : Option Int
  favour : Bool
  recoveryUseful : Bool
  frostRisk : Bool
  tX : Option Int
  needed : Option Int
  speed : Option Nat
  mixing : Option Nat
  desired : Option Mode
  reason : Option EvalReason
  demand : Option DemandSet
  deriving DecidableEq, Repr

/-- What an evaluation reads from the owners of its inputs (R6), the four conditions of a defrost request as one answer (R21). -/
structure EvalInputs where
  bandStatus : BandStatus
  tO : Option Int
  wO : Option Int
  tR : Option Int
  wR : Option Int
  tSp : Int
  spOrigin : SetpointOrigin
  inFree : Bool
  inDefrost : Bool
  isolated : Bool
  defrostAllowed : Bool
  deriving DecidableEq, Repr

/-- The Decision Unit's state. -/
structure Decision where
  /-- when the evaluation timer expires (R4) -/
  timer : Option Time
  /-- evaluation counter (R8) -/
  counter : Word16
  /-- last evaluation result record (R24) -/
  last : EvalRecord
  /-- setpoint store: the written t_sp; its origin is WRITTEN while present, DEFAULT while absent (R7) -/
  setpoint : Option Int
  deriving DecidableEq, Repr

/-! ## Claim Unit (03_shaft_claims.md) -/

/-- The states of an own claim process (R69). -/
inductive ProcState where
  | idle | pending | holdoff | committing | held | yielding | releasing | backoff | starved
  deriving DecidableEq, Repr

/-- Why a process is YIELDING (R69). -/
inductive YieldCause where
  | overcommit | clash
  deriving DecidableEq, Repr

/-- An own claim process (R69). The timer runs tHOLD, the backoff or tLOCK by the state. -/
structure Process where
  state : ProcState
  attempt : Nat
  disturbed : Bool
  request : Bool
  cause : Option YieldCause
  timer : Option Time
  deriving DecidableEq, Repr

/-- A record of the claim list (R60); `held` is set for state HELD and clear for INTENT. -/
structure ClaimRecord where
  addr : Nat
  res : Resource
  amount : Nat
  held : Bool
  cls : Nat
  seq : Word32
  capacity : Option Nat
  refreshed : Time
  deriving DecidableEq, Repr

/-- The Claim Unit's state. -/
structure ClaimUnit where
  /-- effective capacity (R57) -/
  capacity : PerResource (Option Nat)
  /-- mismatch record (R58) -/
  mismatch : PerResource (List Nat)
  /-- claim list, in ascending order of address, RELIEF before DEFROST (R60, R207) -/
  list : List ClaimRecord
  /-- own claim processes (R69) -/
  proc : PerResource Process
  /-- fire set: own-shaft addresses reporting fire, with refresh times (R82) -/
  fireSet : List (Nat × Time)
  /-- shaft freeze (R83) -/
  freeze : Bool
  /-- list-full mark (R65) -/
  fullMark : Bool
  deriving DecidableEq, Repr

/-! ## Mode Sequencer (02_mode_sequencer.md) -/

/-- A transition in progress (R31, R49). -/
structure Transition where
  target : Mode
  forced : Bool
  deriving DecidableEq, Repr

/-- A suspension record (R51). -/
structure Suspension where
  target : Mode
  interrupted : Phase
  forced : Bool
  start : Time
  relief : ProcState
  defrost : ProcState
  deriving DecidableEq, Repr

/-- The Mode Sequencer's state. -/
structure Sequencer where
  mode : Option Mode
  phase : Option Phase
  /-- candidate and its count (R30) -/
  candidate : Option Mode
  count : Nat
  /-- dwell start (R32, R40) -/
  dwellStart : Option Time
  /-- when the dwell expires, until that event is taken (R31, R32) -/
  dwellTimer : Option Time
  transition : Option Transition
  /-- follow wait set (R36) and the tFOLLOW timer -/
  waitSet : List Nat
  followTimer : Option Time
  /-- demand set last posted to the Output Unit (R26) -/
  demands : Option DemandSet
  /-- number of the set posted at the start of the present ramp (R170) -/
  rampPosting : Option Nat
  /-- DEFROST cycle timer and expired flag (R46) -/
  defrostTimer : Option Time
  defrostExpired : Bool
  /-- defrost end time (R48) -/
  defrostEnd : Option Time
  /-- forced leave pending, naming the affected mode (R50) -/
  forcedPending : Option Mode
  /-- suspension record (R51) -/
  record : Option Suspension
  deriving DecidableEq, Repr

/-! ## Output Unit (08_actuator_outputs_and_override_levels.md) -/

/-- A guard demand: value and manner, IMMEDIATE when the flag is set, else SLEWED (R169). -/
structure Guard where
  value : Nat
  immediate : Bool
  deriving DecidableEq, Repr

/-- A manual demand (R171). -/
structure Manual where
  value : Nat
  expiry : Time
  deriving DecidableEq, Repr

/-- The four demand sources (R164). -/
inductive DemandSource where
  | fire | guard | manual | sequencer
  deriving DecidableEq, Repr

/-- The Output Unit's state. -/
structure OutputUnit where
  /-- present outputs, the duty of PWM_ODA, PWM_BYP and PWM_WHL (R161) -/
  present : PerChannel Nat
  /-- slew accumulators, in thousandths of a per-mille (R166) -/
  acc : PerChannel Nat
  /-- sequencer demand set (R168) -/
  seqSet : Option DemandSet
  /-- number of the last posting (R168) -/
  posting : Nat
  /-- completion pending (R170) -/
  completionPending : Bool
  /-- guard, manual and fire demands (R164) -/
  guard : PerChannel (Option Guard)
  manual : PerChannel (Option Manual)
  fire : PerChannel (Option Nat)
  /-- FIRE filter: filtered level, set for ASSERTED, and when the running steadiness timer started (R173) -/
  fireFiltered : Bool
  fireSince : Option Time
  /-- wheel-run output, the pin WHEEL_RUN (R163) -/
  wheelRun : Bool
  deriving DecidableEq, Repr

/-! ## Limit Supervisor (09_limit_supervision_and_wheel_rotation.md) -/

/-- Where the value that tripped a limit came from (R179, R182). -/
inductive TripSource where
  | supplyT | exhaustT | estimate | stallPeriod
  deriving DecidableEq, Repr

/-- The state of a limit (R179). -/
inductive LimitState where
  | clear
  | active (value : Int) (src : TripSource)
  deriving DecidableEq, Repr

/-- The Limit Supervisor's state, the rotation monitor included. -/
structure Limits where
  supplyLow : LimitState
  frostTrip : LimitState
  stall : LimitState
  /-- when the stall timer expires (R184) -/
  stallTimer : Option Time
  /-- the hold (R188) -/
  hold : Bool
  /-- guard demands last posted to the Output Unit (R187) -/
  posted : PerChannel (Option Guard)
  /-- ROT filter: filtered level, set for HIGH, and when the running steadiness timer started (R190) -/
  rotFiltered : Bool
  rotSince : Option Time
  /-- ring counter (R191) -/
  ring : Nat
  /-- revolution count (R191) and period in ms (R192) -/
  revCount : Word16
  revPeriod : Option Nat
  /-- last wrap time (R192) -/
  lastWrap : Option Time
  deriving DecidableEq, Repr

/-! ## Local Port (10_local_port_configuration_and_notices.md) -/

/-- One channel of the measurement store (R204). `lapsed` marks that the present value's turning stale has been taken (R205). -/
structure Meas where
  value : Option Int
  arrival : Option Time
  clamped : Bool
  lapsed : Bool
  deriving DecidableEq, Repr

/-- The measurement store (R204). -/
structure MeasStore where
  returnT : Meas
  returnW : Meas
  supplyT : Meas
  probeT : Meas
  probeW : Meas
  exhaustT : Meas
  deriving DecidableEq, Repr

/-- The class of a notice (R208). -/
inductive NoticeClass where
  | event | warning | fault
  deriving DecidableEq, Repr

/-- Why a peer record was removed (R142). -/
inductive LostCause where
  | expired | evicted
  deriving DecidableEq, Repr

/-- What cleared a limit (R189): the clearing value, or LIMIT CLEAR. -/
inductive ClearCause where
  | value (v : Int)
  | command
  deriving DecidableEq, Repr

/-- The notice kinds with the detail the posting rule gives each (R55, R88, R113, R142, R160, R178, R189, R202, R205, R213). -/
inductive NoticeBody where
  | modeChanged (m : Mode)
  | followTimeout (addr : Option Nat)
  | transitionAbandoned (target : Mode)
  | resumed (target : Mode)
  | discarded (target : Mode)
  | claimGranted (r : Resource)
  | claimStarved (r : Resource)
  | overcommitYield (r : Resource)
  | claimListFull (sender : Nat)
  | capacityMismatch (r : Resource) (sender : Nat)
  | shaftFreezeOn (addr : Nat)
  | shaftFreezeOff
  | addressClash (addr : Nat) (kind : FrameKind) (shaft : Nat)
  | linkQuiet (kind : FrameKind)
  | linkRestored
  | peerLost (addr : Nat) (cause : LostCause)
  | peerTableFull (addr level : Nat)
  | bandHeld (t w : Int)
  | bandUnknown
  | bandRestored (t w : Int) (origin : BandOrigin)
  | ownProbeDisagree (t w medianT medianW : Int)
  | ownProbeRestored (t w medianT medianW : Int)
  | fireAsserted (positions : PerChannel (Option Nat))
  | fireReleased
  | manualExpired (ch : Channel) (position : Nat)
  | limitTripped (l : LimitName) (v : Int) (src : TripSource) (action : LimitAction)
  | limitCleared (l : LimitName) (how : ClearCause)
  | restarted
  | configAdjusted (a : Adjustment)
  | measurementStale (ch : MeasChannel) (last : Int)
  deriving DecidableEq, Repr

/-- The uptime in seconds and milliseconds (R208). -/
structure Stamp where
  seconds : Word32
  millis : Nat
  deriving DecidableEq, Repr

/-- A notice: kind with detail, class and stamp (R208). -/
structure Notice where
  body : NoticeBody
  cls : NoticeClass
  stamp : Stamp
  deriving DecidableEq, Repr

/-- The reasons of a REFUSED reply (R197). -/
inductive Reason where
  | badCommand | badOperand | notClosed | restarting | unknownItem | missingIdentity | sourceNotLive
  | levelOff | notPosted | notLatched | claimsHeld | clashed | badIndex
  deriving DecidableEq, Repr

/-- The status of a reply (R196). -/
inductive ReplyStatus where
  | ok | clamped
  | refused (why : Reason)
  deriving DecidableEq, Repr

/-- The value CFG READ returns (R200), in the item's form. -/
inductive ItemValue where
  | number (v : Option Int)
  | position (v : Option Nat)
  | bandShaft (v : BandShaft)
  | source (v : OutdoorSource)
  | basis (v : Basis)
  | follow (v : FollowMode)
  | action (v : LimitAction)
  | followList (v : List Nat)
  | filter (v : FilterRecord)
  | attnMask (v : AttnMask)
  deriving DecidableEq, Repr

/-- STATUS READ's view of one own claim process (R206). -/
structure ProcStatus where
  state : ProcState
  attempt : Nat
  capacity : Option Nat
  deriving DecidableEq, Repr

/-- STATUS READ's view of one output channel (R206). -/
structure ChannelStatus where
  present : Nat
  winner : Option DemandSource
  /-- position and seconds remaining of a manual demand -/
  manual : Option (Nat × Nat)
  deriving DecidableEq, Repr

/-- STATUS READ's view of one measurement channel (R205). -/
structure MeasStatus where
  value : Option Int
  age : Option Nat
  fresh : Bool
  clamped : Bool
  deriving DecidableEq, Repr

/-- The groups of STATUS READ (R206), in the order of its table: port, link, sequencer, claims, band, outputs, limits, rotation,
measurements. -/
structure StatusReport where
  closed : Bool
  restarting : Bool
  uptime : Word32
  noticeCount : Nat
  overflow : Bool
  link : LinkState
  offlineWish : Bool
  mode : Option Mode
  phase : Option Phase
  target : Option Mode
  candidate : Option Mode
  count : Nat
  claims : PerResource ProcStatus
  freeze : Bool
  bandStatus : BandStatus
  bandValue : Option BandValue
  holdExpiry : Option Time
  quality : Quality
  disagree : Bool
  disagreeCounter : Nat
  source : OutdoorSource
  outputs : PerChannel ChannelStatus
  wheelRun : Bool
  supplyLow : LimitState
  frostTrip : LimitState
  stall : LimitState
  hold : Bool
  revCount : Word16
  revPeriod : Option Nat
  returnT : MeasStatus
  returnW : MeasStatus
  supplyT : MeasStatus
  probeT : MeasStatus
  probeW : MeasStatus
  exhaustT : MeasStatus
  deriving DecidableEq, Repr

/-- What a reply carries beside its status. -/
inductive ReplyData where
  | none
  /-- CFG READ (R200) -/
  | item (v : ItemValue)
  /-- CFG CLOSE refused: which of ADDR, LEVEL and SHAFT are unwritten (R201) -/
  | missing (addr level shaft : Bool)
  /-- STATUS READ (R206) -/
  | status (r : StatusReport)
  /-- EVAL READ (R207) -/
  | evaluation (r : EvalRecord)
  /-- PEER READ: the record, absent when refused, and the count (R141) -/
  | peer (r : Option PeerRecord) (count : Nat)
  /-- CLAIM READ: the record, absent when refused, and the count (R207) -/
  | claim (r : Option ClaimRecord) (count : Nat)
  /-- NOTICE POP: the notice, the number left and the overflow flag (R209) -/
  | notice (n : Notice) (left : Nat) (overflow : Bool)
  /-- NOTICE POP of an empty queue: EMPTY and the overflow flag as it stood (R209) -/
  | empty (overflow : Bool)
  /-- IDENT READ (R207) -/
  | ident (part revision : Nat)
  deriving DecidableEq, Repr

/-- A reply (R196). -/
structure Reply where
  status : ReplyStatus
  data : ReplyData
  deriving DecidableEq, Repr

/-- The Local Port's state. -/
structure Port where
  /-- configuration record (R198) -/
  cfg : Settings
  /-- closed and restarting flags (R201, R212) -/
  closed : Bool
  restarting : Bool
  /-- measurement store (R204) -/
  meas : MeasStore
  /-- notice queue, oldest first (R208), and overflow flag -/
  notices : List Notice
  overflow : Bool
  /-- the ATTN pin (R210) -/
  attn : Bool
  /-- the reply of the last transaction, none where it left none (R196) -/
  reply : Option Reply
  deriving DecidableEq, Repr

/-! ## The machine -/

/-- The state of the station. -/
structure State where
  /-- the MODEL's own: commands waiting, first in first out -/
  pending : List Instr
  /-- the 1 ms time base (R211) -/
  now : Time
  /-- the FIRE and ROT pins, driven from outside (R173, R190) -/
  firePin : Bool
  rotPin : Bool
  port : Port
  link : Link
  peers : PeerTable
  band : Band
  decision : Decision
  claims : ClaimUnit
  seq : Sequencer
  out : OutputUnit
  limits : Limits
  /-- the MODEL's own: how many free values have been read (Config.dueChoice, Config.handOffFirst) -/
  choices : Nat
  deriving DecidableEq, Repr

/-- Reasons to stop with a fault. The spec stops the part nowhere: every command and event has an effect or is answered, so no
meaning of this model raises a fault and the type has no constructor. -/
inductive Fault where
  deriving DecidableEq, Repr

/-- Reasons to refuse a command. -/
inductive Refusal where
  /-- Raised by an arm of `exec` whose command has no meaning yet; safe, since no effect is claimed. No arm raises it. -/
  | notModelled (mnemonic : String)
  deriving DecidableEq, Repr

/-- The empty measurement channel (R204). -/
def Meas.empty : Meas := { value := none, arrival := none, clamped := false, lapsed := false }

/-- The empty measurement store (R204). -/
def MeasStore.empty : MeasStore := ⟨.empty, .empty, .empty, .empty, .empty, .empty⟩

/-- The empty evaluation result record (R8). -/
def EvalRecord.empty : EvalRecord where
  number := 0
  tO := none
  wO := none
  bandStatus := .unknown
  tR := none
  wR := none
  tSp := none
  spOrigin := none
  inFree := false
  inDefrost := false
  isolated := false
  defrostPermitted := false
  hO := none
  hR := none
  favour := false
  recoveryUseful := false
  frostRisk := false
  tX := none
  needed := none
  speed := none
  mixing := none
  desired := none
  reason := none
  demand := none

/-- An own claim process after power-on reset and at close (R69). -/
def Process.idle : Process :=
  { state := .idle, attempt := 0, disturbed := false, request := false, cause := none, timer := none }

/-- The Link Controller after power-on reset (R93, R99, R105). -/
def Link.reset : Link where
  state := .offline
  offlineWish := false
  beaconSlot := none
  alertSlot := none
  claimSlot := ⟨none, none⟩
  beaconMark := false
  alertMark := false
  attempt := none
  failCount := 0
  failSlot := none
  sequence := 0
  joinTimer := none
  beaconTimer := none
  quietTimer := none

/-- The Band Estimator after power-on reset (R143). -/
def Band.reset : Band where
  value := none
  status := .unknown
  lost := false
  holdTimer := none
  disagree := false
  counter := 0
  source := .band

/-- The Claim Unit after power-on reset (R57, R58, R60, R69, R82, R65). -/
def ClaimUnit.reset : ClaimUnit where
  capacity := ⟨none, none⟩
  mismatch := ⟨[], []⟩
  list := []
  proc := ⟨.idle, .idle⟩
  fireSet := []
  freeze := false
  fullMark := false

/-- The Mode Sequencer after power-on reset (R28). -/
def Sequencer.reset : Sequencer where
  mode := none
  phase := none
  candidate := none
  count := 0
  dwellStart := none
  dwellTimer := none
  transition := none
  waitSet := []
  followTimer := none
  demands := none
  rampPosting := none
  defrostTimer := none
  defrostExpired := false
  defrostEnd := none
  forcedPending := none
  record := none

/-- The Output Unit after power-on reset (R162, R173). -/
def OutputUnit.reset : OutputUnit where
  present := ⟨0, 0, 0⟩
  acc := ⟨0, 0, 0⟩
  seqSet := none
  posting := 0
  completionPending := false
  guard := ⟨none, none, none⟩
  manual := ⟨none, none, none⟩
  fire := ⟨none, none, none⟩
  fireFiltered := false
  fireSince := none
  wheelRun := false

/-- The Limit Supervisor after power-on reset (R179, R190, R193). -/
def Limits.reset : Limits where
  supplyLow := .clear
  frostTrip := .clear
  stall := .clear
  stallTimer := none
  hold := false
  posted := ⟨none, none, none⟩
  rotFiltered := false
  rotSince := none
  ring := 0
  revCount := 0
  revPeriod := none
  lastWrap := none

/-- The Local Port after power-on reset (R211). -/
def Port.reset : Port where
  cfg := defaults
  closed := false
  restarting := false
  meas := .empty
  notices := []
  overflow := false
  attn := false
  reply := none

/-- The Decision Unit after power-on reset (R4, R7, R8). -/
def Decision.reset : Decision :=
  { timer := none, counter := 0, last := .empty, setpoint := none }

/-- The station right after power-on reset (R211), both input pins low (log entry 4). -/
def State.reset : State where
  pending := []
  now := 0
  firePin := false
  rotPin := false
  port := .reset
  link := .reset
  peers := { records := [], lastFull := none }
  band := .reset
  decision := .reset
  claims := .reset
  seq := .reset
  out := .reset
  limits := .reset
  choices := 0

end Sys2Proof.Machine
end

