-- ==== Sys2Proof/Machine/Ops.lean ====
section
/-! DEFINITION. The named operations every block shares: replacing one part of the state, time and timers, records kept in order,
the notice queue (R208, R210), the replies of the port, and hand-offs that carry no order. -/

namespace Sys2Proof.Machine

/-! ## Replacing one part of the state -/

/-- The state with the queue of waiting commands replaced. -/
def State.setPending (s : State) (q : List Instr) : State := { s with pending := q }

/-- The state with the time base replaced. -/
def State.setNow (s : State) (t : Time) : State := { s with now := t }

/-- The state with the FIRE pin replaced. -/
def State.setFirePin (s : State) (b : Bool) : State := { s with firePin := b }

/-- The state with the ROT pin replaced. -/
def State.setRotPin (s : State) (b : Bool) : State := { s with rotPin := b }

/-- The state with the Local Port's state replaced. -/
def State.setPort (s : State) (p : Port) : State := { s with port := p }

/-- The state with the Link Controller's state replaced. -/
def State.setLink (s : State) (l : Link) : State := { s with link := l }

/-- The state with the Peer Table replaced. -/
def State.setPeers (s : State) (p : PeerTable) : State := { s with peers := p }

/-- The state with the Band Estimator's state replaced. -/
def State.setBand (s : State) (b : Band) : State := { s with band := b }

/-- The state with the Decision Unit's state replaced. -/
def State.setDecision (s : State) (d : Decision) : State := { s with decision := d }

/-- The state with the Claim Unit's state replaced. -/
def State.setClaims (s : State) (c : ClaimUnit) : State := { s with claims := c }

/-- The state with the Mode Sequencer's state replaced. -/
def State.setSeq (s : State) (q : Sequencer) : State := { s with seq := q }

/-- The state with the Output Unit's state replaced. -/
def State.setOut (s : State) (o : OutputUnit) : State := { s with out := o }

/-- The state with the Limit Supervisor's state replaced. -/
def State.setLimits (s : State) (l : Limits) : State := { s with limits := l }

/-- The state with the count of free values read replaced. -/
def State.setChoices (s : State) (n : Nat) : State := { s with choices := n }

/-! ## Time and timers -/

/-- A period in seconds as ms of the time base. -/
def secs (n : Nat) : Time := n * 1000

/-- A timer has expired: it runs and its moment has come (R1). -/
def due (timer : Option Time) (now : Time) : Bool :=
  match timer with
  | none => false
  | some t => t ≤ now

/-- A stored moment is at least a period old. -/
def aged (since : Time) (period : Nat) (now : Time) : Bool := since + period ≤ now

/-- The seconds counter wraps after 2^32 seconds (R206): a moment as uptime in ms, as a reply shows it; the band
group of STATUS READ, whose unit R157 leaves open, included (DESIGN CHOICE, log entry 29). -/
def shownMs (t : Time) : Nat := t % 4294967296000

/-- The 32-bit seconds counter (R206). -/
def uptime (s : State) : Word32 := BitVec.ofNat 32 (s.now / 1000)

/-- The stamp of a notice posted now (R208). -/
def stampNow (s : State) : Stamp := { seconds := uptime s, millis := s.now % 1000 }

/-- The configuration the blocks run with. -/
abbrev State.cfg (s : State) : Settings := s.port.cfg

/-- The own address, level and shaft; present from close onward (R201). -/
def ownAddr (s : State) : Nat := s.cfg.ident.addr.getD 0
def ownLevel (s : State) : Nat := s.cfg.ident.level.getD 0
def ownShaft (s : State) : Nat := s.cfg.ident.shaft.getD 0

/-- The blocks take events: the configuration is closed and no RESTART waits (R212). -/
def running (s : State) : Bool := s.port.closed && !s.port.restarting

/-! ## Records kept in order -/

/-- Insert into a list sorted by `before`, ahead of the first entry that it stands before. -/
def insertBy (before : α → α → Bool) (x : α) : List α → List α
  | [] => [x]
  | y :: rest => if before x y then x :: y :: rest else y :: insertBy before x rest

/-- Sort a list by `before`. -/
def sortBy (before : α → α → Bool) : List α → List α
  | [] => []
  | x :: rest => insertBy before x (sortBy before rest)

/-- The first entry of a list that no entry stands before, `before` being a strict order. -/
def firstBy (before : α → α → Bool) : List α → Option α
  | [] => none
  | x :: rest =>
    match firstBy before rest with
    | none => some x
    | some y => if before y x then some y else some x

/-! ## Notices (R208 to R210) -/

/-- The class of a notice (R55, R88, R113, R142, R160, R178, R189, R202, R205, R213). -/
def noticeClass : NoticeBody → NoticeClass
  | .modeChanged _ => .event
  | .followTimeout _ => .warning
  | .transitionAbandoned _ => .warning
  | .resumed _ => .event
  | .discarded _ => .event
  | .claimGranted _ => .event
  | .claimStarved _ => .warning
  | .overcommitYield _ => .warning
  | .claimListFull _ => .warning
  | .capacityMismatch _ _ => .warning
  | .shaftFreezeOn _ => .warning
  | .shaftFreezeOff => .event
  | .addressClash _ _ _ => .fault
  | .linkQuiet _ => .warning
  | .linkRestored => .event
  | .peerLost _ _ => .event
  | .peerTableFull _ _ => .warning
  | .bandHeld _ _ => .warning
  | .bandUnknown => .warning
  | .bandRestored _ _ _ => .event
  | .ownProbeDisagree _ _ _ _ => .warning
  | .ownProbeRestored _ _ _ _ => .event
  | .fireAsserted _ => .warning
  | .fireReleased => .event
  | .manualExpired _ _ => .event
  | .limitTripped l _ _ _ => if l = .stall then .fault else .warning
  | .limitCleared _ _ => .event
  | .restarted => .event
  | .configAdjusted _ => .warning
  | .measurementStale _ _ => .warning

/-- A class is in ATTN_MASK. -/
def masked (m : AttnMask) : NoticeClass → Bool
  | .event => m.event
  | .warning => m.warning
  | .fault => m.fault

/-- ATTN is asserted while the queue holds a notice whose class is in ATTN_MASK (R210). -/
def attnOf (m : AttnMask) (q : List Notice) : Bool := q.any fun n => masked m n.cls

/-- The queue with its oldest EVENT notice removed; none where it holds no EVENT (R208). -/
def dropOldestEvent : List Notice → Option (List Notice)
  | [] => none
  | n :: rest => if n.cls = .event then some rest else (dropOldestEvent rest).map (n :: ·)

/-- How many notices the queue holds at most (R208). -/
def noticeCapacity : Nat := 16

/-- The queue and overflow flag after a notice is posted (R208). -/
def queueNotice (q : List Notice) (overflow : Bool) (n : Notice) : List Notice × Bool :=
  if q.length < noticeCapacity then (q ++ [n], overflow)
  else if n.cls = .fault then
    match dropOldestEvent q with
    | some q' => (q' ++ [n], true)
    | none => (q, true)
  else (q, true)

/-- The port with a notice queue and overflow flag, ATTN following in the same event (R210). -/
def setNotices (p : Port) (q : List Notice) (overflow : Bool) : Port :=
  { p with notices := q, overflow := overflow, attn := attnOf p.cfg.attnMask q }

/-- A notice is posted (R208). -/
def post (b : NoticeBody) (s : State) : State :=
  let r := queueNotice s.port.notices s.port.overflow { body := b, cls := noticeClass b, stamp := stampNow s }
  s.setPort (setNotices s.port r.1 r.2)

/-- Notices posted one after the other. -/
def postAll : List NoticeBody → State → State
  | [], s => s
  | b :: rest, s => postAll rest (post b s)

/-! ## Replies (R196) -/

/-- The transaction's reply. -/
def reply (st : ReplyStatus) (d : ReplyData) (s : State) : State :=
  s.setPort { s.port with reply := some { status := st, data := d } }

/-- A reply of status OK that carries nothing else. -/
def replyOk (s : State) : State := reply .ok .none s

/-- A REFUSED reply: nothing but the reply changes (R196). -/
def refuse (why : Reason) (s : State) : State := reply (.refused why) .none s

/-- OK, or CLAMPED where the value was clamped. -/
def okOrClamped (clamped : Bool) : ReplyStatus := if clamped then .clamped else .ok

/-- The tests R197 makes before an operating command's own: NOT_CLOSED before close, RESTARTING while a RESTART waits. -/
def admitOperating (f : State → State) (s : State) : State :=
  if !s.port.closed then refuse .notClosed s
  else if s.port.restarting then refuse .restarting s
  else f s

/-- The test R197 makes before MEAS WRITE and the reads that are answered from close onward. -/
def admitClosed (f : State → State) (s : State) : State :=
  if !s.port.closed then refuse .notClosed s else f s

/-! ## Hand-offs that carry no order -/

/-- Two hand-offs that reach different blocks and "carry no order between them" (R25). Where the order makes no difference
that is the result; where it does, a free value says which is made first (log entry 3). -/
def unordered (f g : State → State) (s : State) : State :=
  let a := g (f s)
  let b := f (g s)
  if a = b then a
  else if Config.handOffFirst s.choices then a.setChoices (s.choices + 1) else b.setChoices (s.choices + 1)

/-! ## Processes, records and channels -/

/-- The own claim process of a resource. -/
def procOf (s : State) (r : Resource) : Process := resGet s.claims.proc r

/-- The state with the own claim process of a resource replaced. -/
def setProc (r : Resource) (p : Process) (s : State) : State :=
  s.setClaims { s.claims with proc := resSet s.claims.proc r p }

/-- The process holds its claim: HELD or YIELDING (R40). -/
def holds (p : Process) : Bool := p.state = .held || p.state = .yielding

/-- A process counts as holding in a BEACON while HELD, YIELDING or RELEASING (R91). -/
def reports (p : Process) : Bool := holds p || p.state = .releasing

/-- A measurement channel of the store. -/
def measOf (m : MeasStore) : MeasChannel → Meas
  | .returnT => m.returnT
  | .returnW => m.returnW
  | .supplyT => m.supplyT
  | .probeT => m.probeT
  | .probeW => m.probeW
  | .exhaustT => m.exhaustT

/-- The store with one channel replaced. -/
def setMeas (m : MeasStore) (ch : MeasChannel) (v : Meas) : MeasStore :=
  match ch with
  | .returnT => { m with returnT := v }
  | .returnW => { m with returnW := v }
  | .supplyT => { m with supplyT := v }
  | .probeT => { m with probeT := v }
  | .probeW => { m with probeW := v }
  | .exhaustT => { m with exhaustT := v }

/-- A channel with a value is fresh while its age is less than tMEASAGE (R205). -/
def fresh (s : State) (ch : MeasChannel) : Bool :=
  let m := measOf s.port.meas ch
  match m.value, m.arrival with
  | some _, some t => !aged t (secs s.cfg.band.tMEASAGE) s.now
  | _, _ => false

/-- A channel's value where it is fresh, absent otherwise (R6). -/
def freshValue (s : State) (ch : MeasChannel) : Option Int :=
  if fresh s ch then (measOf s.port.meas ch).value else none

/-- The own probe quality (R145). It follows the measurement store at every moment, while a RESTART waits too: DEDUCED, log entry
18. -/
def ownQuality (s : State) : Quality :=
  if fresh s .probeT && fresh s .probeW then (if s.band.disagree then .disagree else .valid) else .absent

/-- The link is isolated while OFFLINE or CLASHED (R13, R32). -/
def isolated (s : State) : Bool := s.link.state = .offline || s.link.state = .clashed

end Sys2Proof.Machine
end

