-- ==== Sys2Proof/Machine/Frames.lean ====
section
/-! DEFINITION. The riser line's frames: the identifier plan (R89), which received frame is a riser frame (R90), the payload layouts
of the six kinds and the reading of a payload (R90, R92, R59). -/

namespace Sys2Proof.Machine

/-! ## Codes (R89, R90) -/

/-- The urgency field of a kind (R89). -/
def urgency : FrameKind → Nat
  | .alert => 0 | .withdraw => 1 | .release => 1 | .held => 2 | .intent => 3 | .beacon => 5

/-- The kind field (R89). -/
def kindCode : FrameKind → Nat
  | .beacon => 1 | .intent => 2 | .held => 3 | .withdraw => 4 | .release => 5 | .alert => 6

/-- The kind a kind field names (R89). -/
def kindOf : Nat → Option FrameKind
  | 1 => some .beacon | 2 => some .intent | 3 => some .held | 4 => some .withdraw | 5 => some .release | 6 => some .alert
  | _ => none

def modeCode : Mode → Nat
  | .safe => 0 | .recover => 1 | .neutral => 2 | .free => 3 | .defrost => 4

def modeOf : Nat → Option Mode
  | 0 => some .safe | 1 => some .recover | 2 => some .neutral | 3 => some .free | 4 => some .defrost | _ => none

def phaseCode : Phase → Nat
  | .settled => 0 | .claiming => 1 | .followWait => 2 | .ramping => 3 | .suspended => 4

def phaseOf : Nat → Option Phase
  | 0 => some .settled | 1 => some .claiming | 2 => some .followWait | 3 => some .ramping | 4 => some .suspended | _ => none

def qualityCode : Quality → Nat
  | .valid => 0 | .disagree => 1 | .absent => 2

def qualityOf : Nat → Option Quality
  | 0 => some .valid | 1 => some .disagree | 2 => some .absent | _ => none

def followCode : FollowMode → Nat
  | .none => 0 | .below => 1 | .list => 2

def followOf : Nat → Option FollowMode
  | 0 => some .none | 1 => some .below | 2 => some .list | _ => none

def resourceCode : Resource → Nat
  | .relief => 1 | .defrost => 2

def resourceOf : Nat → Option Resource
  | 1 => some .relief | 2 => some .defrost | _ => none

def withdrawCode : WithdrawReason → Nat
  | .disturbed => 1 | .full => 2 | .cancelled => 3 | .frozen => 4

def withdrawOf : Nat → Option WithdrawReason
  | 1 => some .disturbed | 2 => some .full | 3 => some .cancelled | 4 => some .frozen | _ => none

def releaseCode : ReleaseReason → Nat
  | .done => 1 | .yield => 2 | .restart => 3

def releaseOf : Nat → Option ReleaseReason
  | 1 => some .done | 2 => some .yield | 3 => some .restart | _ => none

/-! ## Identifier (R89, R90) -/

/-- The identifier of a frame of a kind, shaft and address (R89). -/
def identNat (k : FrameKind) (shaft addr : Nat) : Nat :=
  urgency k * 2 ^ 26 + kindCode k * 2 ^ 22 + shaft * 2 ^ 19 + addr * 2 ^ 13

/-- A bit field of a number: `width` bits from bit `lo`. -/
def field (n lo width : Nat) : Nat := n / 2 ^ lo % 2 ^ width

/-- A received frame as a riser frame, or none where R90 ignores it. The urgency field is not examined. -/
def readRiser (f : LineFrame) : Option RiserFrame :=
  let n := f.ident.toNat
  let addr := field n 13 6
  if f.extended && !f.remote && field n 0 13 = 0 && 1 ≤ addr && addr ≤ 48 && f.data.length = 8 then
    (kindOf (field n 22 4)).map fun k => { kind := k, shaft := field n 19 3, addr := addr, data := f.data }
  else none

/-! ## Payloads (R90) -/

/-- A byte from a number. -/
def byte (n : Nat) : Byte := BitVec.ofNat 8 n

/-- Payload byte `i` as a number. -/
def at8 (d : List Byte) (i : Nat) : Nat := (d.getD i 0).toNat

/-- The 16-bit field at bytes `i`, `i + 1`, high byte first (R90). -/
def at16 (d : List Byte) (i : Nat) : Nat := at8 d i * 256 + at8 d (i + 1)

/-- The two bytes of a 16-bit field, high byte first. -/
def bytes16 (n : Nat) : List Byte := [byte (n / 256), byte (n % 256)]

/-- A signed value as its 16-bit field. -/
def code16 (v : Int) : Nat := (v % 65536).toNat

/-- The signed value of a 16-bit field. -/
def signed16 (n : Nat) : Int := if n < 32768 then n else (n : Int) - 65536

def bit (b : Bool) : Nat := if b then 1 else 0

/-- The payload of a BEACON (R90, R91): an ABSENT probe is sent as 8000 hex and 0. -/
def beaconBytes (b : BeaconBody) : List Byte :=
  let t := if b.quality = .absent then 32768 else code16 (b.probeT.getD 0)
  let w := if b.quality = .absent then 0 else (b.probeW.getD 0).toNat
  [byte (modeCode b.mode + 8 * phaseCode b.phase + 64 * bit b.fire + 128 * bit b.defrostHeld), byte b.level]
    ++ bytes16 t ++ bytes16 (w + 16384 * qualityCode b.quality)
    ++ [byte b.reliefUnits, byte (b.cls + 4 * followCode b.follow)]

/-- A BEACON's payload read, or none where it is not interpretable (R92). The observation follows R130. -/
def readBeacon (d : List Byte) : Option BeaconBody :=
  let b0 := at8 d 0
  let t := signed16 (at16 d 2)
  let w : Int := field (at16 d 4) 0 9
  let b7 := at8 d 7
  match modeOf (field b0 0 3), phaseOf (field b0 3 3), qualityOf (field (at16 d 4) 14 2), followOf (field b7 2 2) with
  | some m, some p, some q, some f =>
    if q = .absent || (-500 ≤ t && t ≤ 600 && 0 ≤ w && w ≤ 300) then
      some { mode := m, phase := p, fire := field b0 6 1 = 1, defrostHeld := field b0 7 1 = 1, level := field (at8 d 1) 0 7,
             probeT := if q = .absent then none else some t, probeW := if q = .absent then none else some w,
             quality := q, reliefUnits := at8 d 6, cls := field b7 0 2, follow := f }
    else none
  | _, _, _, _ => none

/-- The payload of an ALERT (R90). -/
def alertBytes (a : AlertBody) : List Byte :=
  [byte (if a.fireOn then 1 else 2), byte a.level, 0, 0, 0, 0, 0, 0]

/-- An ALERT's payload read, or none where it is not interpretable (R92). -/
def readAlert (d : List Byte) : Option AlertBody :=
  let level := field (at8 d 1) 0 7
  match at8 d 0 with
  | 1 => some { fireOn := true, level := level }
  | 2 => some { fireOn := false, level := level }
  | _ => none

/-- The payload of a claim frame (R90). -/
def claimBytes : ClaimMsg → List Byte
  | .intent r amount cls attempt cap =>
    [byte (resourceCode r), byte amount, byte cls, byte attempt] ++ bytes16 cap ++ [0, 0]
  | .held r amount cap => [byte (resourceCode r), byte amount] ++ bytes16 cap ++ [0, 0, 0, 0]
  | .withdraw r why => [byte (resourceCode r), byte (withdrawCode why), 0, 0, 0, 0, 0, 0]
  | .release r why => [byte (resourceCode r), byte (releaseCode why), 0, 0, 0, 0, 0, 0]

/-- The amounts a frame of a resource may carry (R56). -/
def amountOk (r : Resource) (n : Nat) : Bool :=
  match r with
  | .relief => 1 ≤ n && n ≤ 255
  | .defrost => n = 1

/-- A claim frame's payload read, or none where R59 sets the frame aside (and for a kind that is no claim frame). -/
def readClaim (k : FrameKind) (d : List Byte) : Option ClaimMsg :=
  match resourceOf (at8 d 0) with
  | none => none
  | some r =>
    match k with
    | .intent =>
      if amountOk r (at8 d 1) then
        some (.intent r (at8 d 1) (field (at8 d 2) 0 2) (field (at8 d 3) 0 4) (field (at16 d 4) 0 12))
      else none
    | .held => if amountOk r (at8 d 1) then some (.held r (at8 d 1) (field (at16 d 2) 0 12)) else none
    | .withdraw => (withdrawOf (at8 d 1)).map (.withdraw r)
    | .release => (releaseOf (at8 d 1)).map (.release r)
    | .beacon => none
    | .alert => none

/-- The kind of a claim frame. -/
def claimKind : ClaimMsg → FrameKind
  | .intent .. => .intent
  | .held .. => .held
  | .withdraw .. => .withdraw
  | .release .. => .release

/-- The kind of a frame. -/
def bodyKind : FrameBody → FrameKind
  | .beacon _ => .beacon
  | .alert _ => .alert
  | .claim m => claimKind m

/-- The payload of a frame. -/
def bodyBytes : FrameBody → List Byte
  | .beacon b => beaconBytes b
  | .alert a => alertBytes a
  | .claim m => claimBytes m

/-- The frame a station of a shaft and address puts on the line (R89, R90). -/
def lineFrame (shaft addr : Nat) (b : FrameBody) : LineFrame :=
  { extended := true, remote := false, ident := BitVec.ofNat 29 (identNat (bodyKind b) shaft addr), data := bodyBytes b }

/-- A riser frame's contents read by its kind; none where it is not interpretable or set aside (R59, R92). -/
def readBody (f : RiserFrame) : Option FrameBody :=
  match f.kind with
  | .beacon => (readBeacon f.data).map .beacon
  | .alert => (readAlert f.data).map .alert
  | k => (readClaim k f.data).map .claim

/-- The resource a claim frame names. -/
def claimResource : ClaimMsg → Resource
  | .intent r _ _ _ _ => r
  | .held r _ _ => r
  | .withdraw r _ => r
  | .release r _ => r

/-- The values a station can send in a frame (R56, R90, R91): each field within its range, the probe values present exactly when
the quality is not ABSENT. -/
def sendable : FrameBody → Bool
  | .beacon b =>
    b.level ≤ 127 && b.reliefUnits ≤ 255 && b.cls ≤ 3 &&
      (match b.quality, b.probeT, b.probeW with
       | .absent, none, none => true
       | .absent, _, _ => false
       | _, some t, some w => -500 ≤ t && t ≤ 600 && 0 ≤ w && w ≤ 300
       | _, _, _ => false)
  | .alert a => a.level ≤ 127
  | .claim (.intent r amount cls attempt cap) => amountOk r amount && cls ≤ 3 && attempt ≤ 15 && cap ≤ 4095
  | .claim (.held r amount cap) => amountOk r amount && cap ≤ 4095
  | .claim (.withdraw _ _) => true
  | .claim (.release _ _) => true

end Sys2Proof.Machine
end

