-- ==== Sys2Proof/Machine/Queue.lean ====
section
/-! DEFINITION. The transmit queue of the Link Controller: filling, replacing and removing the frames of its four slots (R99 to
R102, R104) and the choice of the frame to offer (R103). -/

namespace Sys2Proof.Machine

/-- The slot of a resource's claim frames (R102). -/
def slotOf : Resource → Slot
  | .relief => .relief
  | .defrost => .defrost

/-- A frame leaves its slot, or is replaced there: an attempt of it in progress is aborted and its follow-up mark clears (R100,
R101, R104), and the failure count no longer belongs to it (R103). -/
def dropFrame (sl : Slot) (l : Link) : Link :=
  let l1 := if l.failSlot = some sl then { l with failSlot := none } else l
  match l1.attempt with
  | none => l1
  | some a =>
    if a.slot = sl then { l1 with attempt := none, beaconMark := l1.beaconMark && sl != .beacon, alertMark := l1.alertMark && sl != .alert }
    else l1

/-- The attempt in progress, if any, is aborted: the link leaves ONLINE (R104). The frame stays in its slot. -/
def abortAttempt (l : Link) : Link :=
  match l.attempt with
  | none => l
  | some a => { l with attempt := none, beaconMark := l.beaconMark && a.slot != .beacon, alertMark := l.alertMark && a.slot != .alert }

/-- The slot is under attempt. -/
def underAttempt (l : Link) (sl : Slot) : Bool := (l.attempt.map (·.slot)) == some sl

/-- A BEACON is asked for (R100): it is queued in ONLINE and in QUIET, replacing one that waits; one under attempt is left alone and
the follow-up mark is set. While a RESTART waits no BEACON is queued (R111). -/
def queueBeacon (s : State) : State :=
  let l := s.link
  if s.port.restarting || !(l.state = .online || l.state = .quiet) then s
  else if underAttempt l .beacon then s.setLink { l with beaconMark := true }
  else s.setLink { dropFrame .beacon l with beaconSlot := some s.now }

/-- A change of the filtered FIRE input queues an ALERT in JOINING, ONLINE, QUIET and OFFLINE; an ALERT that waits stays in place and
one under attempt sets the follow-up mark (R101). -/
def queueAlert (s : State) : State :=
  let l := s.link
  if s.port.restarting || l.state = .clashed then s
  else if underAttempt l .alert then s.setLink { l with alertMark := true }
  else if l.alertSlot.isSome then s
  else s.setLink { l with alertSlot := some s.now }

/-- The Claim Unit places a claim frame in its resource's slot, replacing the frame there; a frame asked for while CLASHED is not
placed (R102). -/
def placeClaim (m : ClaimMsg) (s : State) : State :=
  if s.link.state = .clashed then s
  else
    let r := claimResource m
    let l := dropFrame (slotOf r) s.link
    s.setLink { l with claimSlot := resSet l.claimSlot r (some { msg := m, queuedAt := s.now }) }

/-- A resource's slot is emptied of its claim frame (R102, R104). -/
def clearClaimSlot (r : Resource) (l : Link) : Link :=
  let l1 := dropFrame (slotOf r) l
  { l1 with claimSlot := resSet l1.claimSlot r none }

/-- The claim frame in a resource's slot. -/
def claimIn (s : State) (r : Resource) : Option ClaimMsg := (resGet s.link.claimSlot r).map (·.msg)

/-- The slot holds an INTENT. -/
def isIntent : Option ClaimMsg → Bool
  | some (.intent ..) => true
  | _ => false

/-- The slot holds a RELEASE. -/
def isRelease : Option ClaimMsg → Bool
  | some (.release ..) => true
  | _ => false

/-- An INTENT queued for a resource is removed from its slot; one that waits for the slot is not in it (R71). -/
def removeIntent (r : Resource) (s : State) : State :=
  if isIntent (claimIn s r) then s.setLink (clearClaimSlot r s.link) else s

/-- The BEACON slot is emptied, its mark cleared (R100). -/
def clearBeacon (l : Link) : Link := { dropFrame .beacon l with beaconSlot := none, beaconMark := false }

/-- The ALERT slot is emptied, its mark cleared (R101). -/
def clearAlert (l : Link) : Link := { dropFrame .alert l with alertSlot := none, alertMark := false }

/-- Every slot is emptied (R110). -/
def clearQueue (l : Link) : Link :=
  { abortAttempt l with beaconSlot := none, alertSlot := none, claimSlot := ⟨none, none⟩, beaconMark := false, alertMark := false,
                        failSlot := none }

/-- A RELEASE is queued (R87, R111). -/
def releaseQueued (s : State) : Bool := isRelease (claimIn s .relief) || isRelease (claimIn s .defrost)

/-! ## Choosing and filling the frame to offer (R103, R91, R101) -/

/-- The BEACON as its owners' state stands (R91). -/
def beaconNow (s : State) : BeaconBody :=
  let q := ownQuality s
  { mode := s.seq.mode.getD .safe
    phase := s.seq.phase.getD .settled
    fire := s.out.fireFiltered
    defrostHeld := reports (procOf s .defrost)
    level := ownLevel s
    probeT := if q = .absent then none else s.port.meas.probeT.value
    probeW := if q = .absent then none else s.port.meas.probeW.value
    quality := q
    reliefUnits := if reports (procOf s .relief) then s.cfg.claims.reliefUnits else 0
    cls := s.cfg.ident.cls
    follow := s.cfg.follow.follow }

/-- The ALERT as the filtered FIRE input stands (R101). -/
def alertNow (s : State) : AlertBody := { fireOn := s.out.fireFiltered, level := ownLevel s }

/-- A queued frame as a candidate for the next attempt. -/
structure Offer where
  ident : Nat
  queuedAt : Time
  slot : Slot
  body : FrameBody
  deriving DecidableEq, Repr

/-- The lower identifier is offered first, then the one queued earlier, then the one in the RELIEF slot (R103). -/
def offeredBefore (a b : Offer) : Bool :=
  a.ident < b.ident ||
    (a.ident = b.ident && (a.queuedAt < b.queuedAt || (a.queuedAt = b.queuedAt && a.slot = .relief && b.slot != .relief)))

/-- The frames in the queue, each as it would be offered now. -/
def offers (s : State) : List Offer :=
  let idn (b : FrameBody) := identNat (bodyKind b) (ownShaft s) (ownAddr s)
  let mk (sl : Slot) (t : Time) (b : FrameBody) : Offer := { ident := idn b, queuedAt := t, slot := sl, body := b }
  (s.link.alertSlot.toList.map fun t => mk .alert t (.alert (alertNow s)))
    ++ (s.link.claimSlot.relief.toList.map fun q => mk .relief q.queuedAt (.claim q.msg))
    ++ (s.link.claimSlot.defrost.toList.map fun q => mk .defrost q.queuedAt (.claim q.msg))
    ++ (s.link.beaconSlot.toList.map fun t => mk .beacon t (.beacon (beaconNow s)))

/-- The frame the next attempt offers (R103). -/
def nextOffer (s : State) : Option Offer := firstBy offeredBefore (offers s)

/-- An attempt can begin: the link is ONLINE, none is in progress and the queue holds a frame (R103). -/
def attemptReady (s : State) : Bool :=
  s.port.closed && s.link.state = .online && s.link.attempt.isNone && (nextOffer s).isSome

/-- The frame on the line while an attempt is in progress: what LTX carries. -/
def State.onLine (s : State) : Option LineFrame :=
  s.link.attempt.map fun a => lineFrame (ownShaft s) (ownAddr s) a.body

end Sys2Proof.Machine
end

