-- ==== Sys2Proof/Machine/Claims.lean ====
section
/-! DEFINITION. The Claim Unit (03_shaft_claims.md): effective capacity, the claim list, beacon reconciliation, the own claim
processes, overcommit, the fire set and the shaft freeze. An operation that reports to the Mode Sequencer answers its reports beside
the state: the Sequencer takes them when the Claim Unit's event is whole (R3). -/

namespace Sys2Proof.Machine

/-- What the Claim Unit reports to the Mode Sequencer (R69). -/
inductive ClaimReport where
  | granted (r : Resource)
  | starved (r : Resource)
  | yielding (r : Resource) (cause : YieldCause)
  | starvedEnd (r : Resource)
  deriving DecidableEq, Repr

/-- A state and the reports made on the way to it, in order. -/
abbrev Reported := State × List ClaimReport

/-- Another operation after one that reports. -/
def thenReport (x : Reported) (f : State → Reported) : Reported :=
  let y := f x.1
  (y.1, x.2 ++ y.2)

/-- No report. -/
def quietly (s : State) : Reported := (s, [])

/-! ## Amounts and capacities (R56 to R58) -/

/-- The own claim amount (R56). -/
def ownAmount (c : Settings) : Resource → Nat
  | .relief => c.claims.reliefUnits
  | .defrost => 1

/-- The own configured capacity (R56). -/
def ownCapacity (c : Settings) : Resource → Nat
  | .relief => c.claims.reliefCap
  | .defrost => c.claims.defrostSlots

/-- The effective capacity; set from close onward (R57). -/
def effective (s : State) (r : Resource) : Nat := (resGet s.claims.capacity r).getD 0

/-- The capacities that are valid in a frame (R57). -/
def capacityOk (r : Resource) (n : Nat) : Bool :=
  match r with
  | .relief => 1 ≤ n && n ≤ 4095
  | .defrost => 1 ≤ n && n ≤ 4

/-! ## Precedence and the list (R60, R64 to R66) -/

/-- Sequence a is earlier than sequence b (R66). -/
def earlier (a b : Word32) : Bool := (a - b).slt 0

/-- Record a is ahead of record b (R66). -/
def ahead (a b : ClaimRecord) : Bool := b.cls < a.cls || (a.cls = b.cls && earlier a.seq b.seq)

/-- The order of the list: by address, RELIEF before DEFROST (R207). -/
def recordBefore (a b : ClaimRecord) : Bool :=
  a.addr < b.addr || (a.addr = b.addr && a.res = .relief && b.res = .defrost)

/-- A record is that of a claimant address and resource (R60). -/
def hasKey (addr : Nat) (r : Resource) (c : ClaimRecord) : Bool := c.addr = addr && c.res = r

/-- The record of a key. -/
def findRecord (s : State) (addr : Nat) (r : Resource) : Option ClaimRecord := s.claims.list.find? (hasKey addr r)

/-- How many records the claim list holds at most (R60). -/
def claimCapacity : Nat := 32

/-- The state with the claim list replaced; the list-full mark clears when the list has room (R65). -/
def setClaimList (l : List ClaimRecord) (s : State) : State :=
  s.setClaims { s.claims with list := l, fullMark := s.claims.fullMark && claimCapacity ≤ l.length }

/-- The record of a key is removed. -/
def removeRecord (addr : Nat) (r : Resource) (s : State) : State :=
  setClaimList (s.claims.list.filter fun c => !hasKey addr r c) s

/-- The record of a key is changed in place. -/
def changeRecord (addr : Nat) (r : Resource) (f : ClaimRecord → ClaimRecord) (s : State) : State :=
  setClaimList (s.claims.list.map fun c => if hasKey addr r c then f c else c) s

/-- Both own processes are disturbed (R73). -/
def disturb (s : State) : State :=
  let p := s.claims.proc
  s.setClaims { s.claims with proc := ⟨{ p.relief with disturbed := true }, { p.defrost with disturbed := true }⟩ }

/-- The INTENT record of another station whose sequence is earliest: the one a full list gives up (R65). Which one that is where no
sequence is earlier than all the others is a DESIGN CHOICE, log entry 32. -/
def victimIntent (s : State) : Option ClaimRecord :=
  firstBy (fun a b => earlier a.seq b.seq) (s.claims.list.filter fun c => !c.held && c.addr != ownAddr s)

/-- A record is created, under R65 when the list is full. -/
def createRecord (entry : ClaimRecord) (sender : Nat) (s : State) : State :=
  if s.claims.list.length < claimCapacity then setClaimList (insertBy recordBefore entry s.claims.list) s
  else
    match victimIntent s with
    | some v =>
      let rest := s.claims.list.filter fun c => !hasKey v.addr v.res c
      setClaimList (insertBy recordBefore entry rest) s
    | none =>
      let s1 := disturb s
      if s1.claims.fullMark then s1
      else post (.claimListFull sender) (s1.setClaims { s1.claims with fullMark := true })

/-! ## Overcommit (R81) -/

/-- The HELD records of a resource in precedence, each with whether it is the own one; the own claim last if it has no record (R81). How
they stand where their sequences span 2^31 or more, so that R66 gives no order, is a DESIGN CHOICE, log entry 32. -/
def heldOrder (s : State) (r : Resource) : List (Bool × Nat) :=
  let held := sortBy ahead (s.claims.list.filter fun c => c.held && c.res = r)
  let order := held.map fun c => (decide (c.addr = ownAddr s), c.amount)
  if order.any (·.1) then order else order ++ [(true, ownAmount s.cfg r)]

/-- The own claim is within the longest leading run whose amounts sum to no more than the capacity. -/
def runHasOwn (cap : Nat) : List (Bool × Nat) → Nat → Bool
  | [], _ => false
  | (own, a) :: rest, sum => if sum + a ≤ cap then own || runHasOwn cap rest (sum + a) else false

/-- The own claim is within the run of R81. -/
def withinRun (s : State) (r : Resource) : Bool := runHasOwn (effective s r) (heldOrder s r) 0

/-- The process yields by the overcommit check (R81). -/
def yieldProc (r : Resource) (s : State) : Reported :=
  let s1 := setProc r { procOf s r with state := .yielding, cause := some .overcommit } s
  (post (.overcommitYield r) s1, [.yielding r .overcommit])

/-- The overcommit check of a HELD process (R81). -/
def overcommitCheck (r : Resource) (s : State) : Reported :=
  if (procOf s r).state = .held && !withinRun s r then yieldProc r s else quietly s

/-- The overcommit check that follows a HELD record of the sender having entered the list or been refreshed (R62, R67, R68, R81). A
record that a full list kept out has not entered it. -/
def checkEntered (sender : Nat) (r : Resource) (s : State) : Reported :=
  if ((findRecord s sender r).map (·.held)) = some true then overcommitCheck r s else quietly s

/-! ## Claim frames (R57 to R63) -/

/-- A capacity heard joins the mismatch record and is noticed (R58). -/
def noteMismatch (r : Resource) (cap sender : Nat) (s : State) : State :=
  let seen := resGet s.claims.mismatch r
  if cap < ownCapacity s.cfg r && !seen.contains cap && seen.length < 8 then
    post (.capacityMismatch r sender) (s.setClaims { s.claims with mismatch := resSet s.claims.mismatch r (seen ++ [cap]) })
  else s

/-- The capacity carried by an INTENT or HELD frame is taken (R57, R58): a fall is followed by the overcommit check. That a mismatch is
noticed before that check is a DESIGN CHOICE, log entry 31. -/
def takeCapacity (r : Resource) (cap sender : Nat) (s : State) : Reported :=
  if !capacityOk r cap then quietly s
  else
    let s1 := noteMismatch r cap sender s
    if cap < effective s1 r then
      overcommitCheck r (s1.setClaims { s1.claims with capacity := resSet s1.claims.capacity r (some cap) })
    else quietly s1

/-- An INTENT's effect on the list (R61). -/
def listIntent (sender : Nat) (seq : Word32) (r : Resource) (amount cls cap : Nat) (s : State) : State :=
  let entry : ClaimRecord :=
    { addr := sender, res := r, amount := amount, held := false, cls := cls, seq := seq, capacity := some cap, refreshed := s.now }
  if (findRecord s sender r).isSome then changeRecord sender r (fun _ => entry) s else createRecord entry sender s

/-- A HELD frame's effect on the list (R62). -/
def listHeld (sender : Nat) (seq : Word32) (r : Resource) (amount cap : Nat) (s : State) : State :=
  if (findRecord s sender r).isSome then
    changeRecord sender r (fun c => { c with held := true, amount := amount, capacity := some cap, refreshed := s.now }) s
  else
    createRecord { addr := sender, res := r, amount := amount, held := true, cls := 0, seq := seq, capacity := some cap,
                   refreshed := s.now } sender s

/-- A claim frame of the own shaft is taken: its capacity, then its effect on the list, then the overcommit check where a HELD record
entered or was refreshed (R57, R61 to R63, R81). That the check which follows a fall of the capacity is made before the frame's effect on
the list is a DESIGN CHOICE, log entry 31. -/
def takeClaimFrame (sender : Nat) (seq : Word32) (m : ClaimMsg) (s : State) : Reported :=
  match m with
  | .intent r amount cls _ cap =>
    thenReport (takeCapacity r cap sender s) fun s1 => quietly (listIntent sender seq r amount cls cap s1)
  | .held r amount cap =>
    thenReport (takeCapacity r cap sender s) fun s1 => checkEntered sender r (listHeld sender seq r amount cap s1)
  | .withdraw r _ => quietly (removeRecord sender r s)
  | .release r _ => quietly (removeRecord sender r s)

/-! ## Beacon reconciliation (R67, R68) -/

/-- One resource of a BEACON: the units it reports held, 0 for none (R67, R68). -/
def reconcile (sender : Nat) (seq : Word32) (cls units : Nat) (r : Resource) (s : State) : Reported :=
  match findRecord s sender r with
  | some c =>
    if units = 0 then quietly (if c.held then removeRecord sender r s else s)
    else
      checkEntered sender r (changeRecord sender r (fun c =>
        { c with held := true, amount := if r = .relief then units else c.amount, refreshed := s.now }) s)
  | none =>
    if units = 0 then quietly s
    else
      checkEntered sender r (createRecord { addr := sender, res := r, amount := units, held := true, cls := cls, seq := seq,
                                              capacity := none, refreshed := s.now } sender s)

/-- An own-shaft BEACON reconciles the sender's records, RELIEF's before DEFROST's (R67): that order is a DESIGN CHOICE, log entry 27. -/
def takeBeaconClaims (sender : Nat) (seq : Word32) (b : BeaconBody) (s : State) : Reported :=
  let s1 := setClaimList (s.claims.list.map fun c => if c.addr = sender then { c with cls := b.cls } else c) s
  thenReport (reconcile sender seq b.cls b.reliefUnits .relief s1) fun s2 =>
    reconcile sender seq b.cls (if b.defrostHeld then 1 else 0) .defrost s2

/-! ## Attempts (R70 to R77) -/

/-- A PENDING process queues its INTENT when the slot is free (R71); until then the INTENT waits. -/
def queueIntent (r : Resource) (s : State) : State :=
  if (claimIn s r).isSome then s
  else placeClaim (.intent r (ownAmount s.cfg r) s.cfg.ident.cls (procOf s r).attempt (effective s r)) s

/-- An attempt begins: PENDING, its INTENT queued or waiting (R70, R71, R76). -/
def beginAttempt (r : Resource) (n : Nat) (s : State) : State :=
  queueIntent r (setProc r { procOf s r with state := .pending, attempt := n, request := false, timer := none, cause := none } s)

/-- The process goes to IDLE, attempt 0, with or without a waiting request. -/
def toIdle (r : Resource) (request : Bool) (s : State) : State :=
  setProc r { procOf s r with state := .idle, attempt := 0, request := request, timer := none, cause := none } s

/-- New attempts are held back: the shaft freeze is set or the own FIRE input is asserted (R70, R71). -/
def heldBack (s : State) : Bool := s.claims.freeze || s.out.fireFiltered

/-- A claim request from the Mode Sequencer (R70). -/
def requestClaim (r : Resource) (s : State) : Reported :=
  let p := procOf s r
  match p.state with
  | .idle =>
    if p.request then quietly s
    else if heldBack s then quietly (setProc r { p with request := true } s)
    else quietly (beginAttempt r 1 s)
  | .releasing => quietly (setProc r { p with request := true } s)
  | .yielding => quietly (setProc r { p with request := true } s)
  | .held => (s, [.granted r])
  | .starved => (s, [.starved r])
  | .pending => quietly s
  | .holdoff => quietly s
  | .committing => quietly s
  | .backoff => quietly s

/-- The process enters STARVED (R77). -/
def enterStarved (r : Resource) (s : State) : Reported :=
  let s1 := setProc r { procOf s r with state := .starved, timer := some (s.now + secs s.cfg.claims.tLOCK), request := false } s
  (post (.claimStarved r) s1, [.starved r])

/-- What follows a failed attempt once its WITHDRAW is queued: BACKOFF, or STARVED at the last allowed attempt (R75). -/
def afterFailure (r : Resource) (s : State) : Reported :=
  let p := procOf s r
  if p.attempt < s.cfg.claims.maxTries then
    let period := secs s.cfg.claims.tBACK * p.attempt + ownAddr s % 8 * 250
    quietly (setProc r { p with state := .backoff, timer := some (s.now + period) } s)
  else enterStarved r s

/-- An attempt fails: WITHDRAW is queued with the reason (R75). -/
def failAttempt (r : Resource) (why : WithdrawReason) (s : State) : Reported := afterFailure r (placeClaim (.withdraw r why) s)

/-- The sum S of R74, over the list as it stands. -/
def commitSum (s : State) (r : Resource) : Nat :=
  let others := s.claims.list.filter fun c => c.res = r && c.addr != ownAddr s
  let counted := others.filter fun c =>
    c.held || (match findRecord s (ownAddr s) r with
               | some own => ahead c own
               | none => true)
  (counted.map (·.amount)).sum + ownAmount s.cfg r

/-- tHOLD expires in HOLDOFF: the attempt is decided (R74). -/
def decideAttempt (r : Resource) (s : State) : Reported :=
  if (procOf s r).disturbed then failAttempt r .disturbed s
  else if commitSum s r ≤ effective s r then
    quietly (placeClaim (.held r (ownAmount s.cfg r) (effective s r)) (setProc r { procOf s r with state := .committing, timer := none } s))
  else failAttempt r .full s

/-! ## Cancel and release (R79, R80) -/

/-- A cancel from the Mode Sequencer (R79). -/
def cancelClaim (r : Resource) (s : State) : State :=
  let p := procOf s r
  match p.state with
  | .idle => setProc r { p with request := false } s
  | .pending => toIdle r false (removeIntent r s)
  | .holdoff => placeClaim (.withdraw r .cancelled) (toIdle r false s)
  | .committing => placeClaim (.withdraw r .cancelled) (toIdle r false s)
  | .backoff => toIdle r false s
  | .releasing => setProc r { p with request := false } s
  | .held => s
  | .yielding => s
  | .starved => s

/-- A release from the Mode Sequencer (R80, R86). -/
def releaseClaim (r : Resource) (s : State) : State :=
  let p := procOf s r
  match p.state with
  | .held => placeClaim (.release r .done) (setProc r { p with state := .releasing, cause := none } s)
  | .yielding =>
    if p.cause = some .clash then removeRecord (ownAddr s) r (toIdle r p.request s)
    else placeClaim (.release r .yield) (setProc r { p with state := .releasing, cause := none } s)
  | _ => s

/-! ## Own frames on the line (R72, R78, R80) -/

/-- The own INTENT appears (R72): the process first, then the list. -/
def ownIntentAppears (r : Resource) (s : State) : State :=
  let p := procOf s r
  if p.state = .pending then
    setProc r { p with state := .holdoff, disturbed := false, timer := some (s.now + s.cfg.claims.tHOLD) } s
  else s

/-- A HELD process is granted its claim (R78, R88). -/
def grantClaim (r : Resource) (s : State) : Reported := (post (.claimGranted r) s, [.granted r])

/-- The own HELD has taken its effect on the list (R78). A COMMITTING process enters HELD and the overcommit check is made of it, the own
claim ranked last where a full list kept its record out: within the run it is granted, outside the run it yields without a grant (R81,
R88; log entry 23). -/
def ownHeldAppears (r : Resource) (s : State) : Reported :=
  if (procOf s r).state != .committing then quietly s
  else
    let s1 := setProc r { procOf s r with state := .held, timer := none } s
    if withinRun s1 r then grantClaim r s1 else yieldProc r s1

/-- The own RELEASE has left the list; the process enters IDLE with any waiting request (R80). -/
def ownReleaseAppears (r : Resource) (s : State) : State :=
  if (procOf s r).state = .releasing then toIdle r (procOf s r).request s else s

/-- An own frame appears on the line and is handed to the Claim Unit (R97). While a RESTART waits only a RELEASE is (R87). -/
def takeOwnFrame (seq : Word32) (b : FrameBody) (s : State) : Reported :=
  let me := ownAddr s
  match b with
  | .claim (.release r why) => quietly (ownReleaseAppears r (takeClaimFrame me seq (.release r why) s).1)
  | .claim (.intent r amount cls attempt cap) =>
    if s.port.restarting then quietly s
    else takeClaimFrame me seq (.intent r amount cls attempt cap) (ownIntentAppears r s)
  | .claim (.held r amount cap) =>
    if s.port.restarting then quietly s
    else thenReport (takeClaimFrame me seq (.held r amount cap) s) (ownHeldAppears r)
  | .claim (.withdraw r why) => if s.port.restarting then quietly s else takeClaimFrame me seq (.withdraw r why) s
  | .beacon bb => if s.port.restarting then quietly s else takeBeaconClaims me seq bb s
  | .alert _ => quietly s

/-! ## Fire set and shaft freeze (R82, R83) -/

/-- One process when the shaft freeze is set (R83). -/
def freezeProc (r : Resource) (s : State) : State :=
  match (procOf s r).state with
  | .pending => toIdle r true (removeIntent r s)
  | .holdoff => placeClaim (.withdraw r .frozen) (toIdle r true s)
  | _ => s

/-- A waiting request is taken at attempt 1 when nothing holds new attempts back (R70, R83, R84). -/
def takeWaiting (r : Resource) (s : State) : State :=
  let p := procOf s r
  if p.state = .idle && p.request && !heldBack s then beginAttempt r 1 s else s

/-- Both resources in turn, RELIEF first (log entry 27). -/
def forBoth (f : Resource → State → State) (s : State) : State := f .defrost (f .relief s)

/-- The fire set with an address in it, its refresh time now, in ascending order of address (R82). -/
def fireJoin (addr : Nat) (now : Time) (l : List (Nat × Time)) : List (Nat × Time) :=
  insertBy (fun a b => a.1 < b.1) (addr, now) (l.filter fun e => e.1 != addr)

/-- An address reports fire: it joins the set or is refreshed, and the first sets the freeze (R82, R83). -/
def fireReported (addr : Nat) (s : State) : State :=
  let first := s.claims.fireSet.isEmpty
  let s1 := s.setClaims { s.claims with fireSet := fireJoin addr s.now s.claims.fireSet, freeze := true }
  if first then forBoth freezeProc (disturb (post (.shaftFreezeOn addr) s1)) else s1

/-- An address leaves the fire set, and the last clears the freeze (R82, R83). -/
def fireGone (addr : Nat) (s : State) : State :=
  let rest := s.claims.fireSet.filter fun e => e.1 != addr
  if s.claims.fireSet.isEmpty || !rest.isEmpty then s.setClaims { s.claims with fireSet := rest }
  else forBoth takeWaiting (post .shaftFreezeOff (s.setClaims { s.claims with fireSet := [], freeze := false }))

/-- The fire information of an own-shaft BEACON or ALERT of another station (R82). -/
def takeFire (sender : Nat) (fire : Bool) (s : State) : State := if fire then fireReported sender s else fireGone sender s

/-! ## Own FIRE (R84) -/

/-- One process when the own FIRE input is asserted (R84). -/
def fireProc (r : Resource) (s : State) : State :=
  let p := procOf s r
  match p.state with
  | .idle => setProc r { p with request := false } s
  | .releasing => setProc r { p with request := false } s
  | .pending => toIdle r false (removeIntent r s)
  | .holdoff => placeClaim (.withdraw r .frozen) (toIdle r false s)
  | .committing => placeClaim (.withdraw r .frozen) (toIdle r false s)
  | .backoff => toIdle r false s
  | .held => s
  | .yielding => s
  | .starved => s

/-! ## The link and RESTART (R85 to R87) -/

/-- On the entry into QUIET a process whose INTENT was removed fails DISTURBED without a WITHDRAW (R75, R85, R109). -/
def quietProc (r : Resource) (s : State) : Reported :=
  let s1 := removeIntent r s
  if (procOf s1 r).state = .pending then afterFailure r s1 else quietly s1

/-- One process on a clash (R86). -/
def clashProc (r : Resource) (s : State) : Reported :=
  let p := procOf s r
  match p.state with
  | .held => (setProc r { p with state := .yielding, cause := some .clash, request := false } s, [.yielding r .clash])
  | .yielding => quietly (setProc r { p with cause := some .clash, request := false } s)
  | .releasing => quietly (removeRecord (ownAddr s) r (toIdle r false s))
  | .pending => quietly (toIdle r false s)
  | .holdoff => quietly (toIdle r false s)
  | .committing => quietly (toIdle r false s)
  | .backoff => quietly (toIdle r false s)
  | .idle => quietly (setProc r { p with request := false } s)
  | .starved => quietly (setProc r { p with request := false } s)

/-- One process at the acceptance of a RESTART, its slot already emptied of all but a RELEASE (R87, R111). -/
def restartProc (r : Resource) (s : State) : State :=
  let p := procOf s r
  let release := placeClaim (.release r .restart) (setProc r { p with state := .releasing, cause := none, request := false } s)
  let keep := setProc r { p with request := false } s
  match p.state with
  | .held => if s.link.state = .online then release else keep
  | .yielding => if s.link.state = .online && p.cause != some .clash then release else keep
  | .pending => toIdle r false s
  | .committing => toIdle r false s
  | .holdoff => toIdle r false s
  | .backoff => toIdle r false s
  | .idle => keep
  | .releasing => keep
  | .starved => keep

/-- The Claim Unit's starting state at close and at RESTART completion: capacities as configured, everything else empty or IDLE
(R57, R58, R60, R65, R69, R82, R87). -/
def claimsStart (c : Settings) : ClaimUnit :=
  { ClaimUnit.reset with capacity := ⟨some (ownCapacity c .relief), some (ownCapacity c .defrost)⟩ }

end Sys2Proof.Machine
end

