-- ==== Sys2Proof/Machine/Outputs.lean ====
section
/-! DEFINITION. The Output Unit (08_actuator_outputs_and_override_levels.md): the winner of a channel, jumping and slewing, the
wheel-run output with what it starts and stops in the Limit Supervisor (R184, R192), demands and ramp completion. -/

namespace Sys2Proof.Machine

/-! ## Winner (R164, R165) -/

/-- The demand a source holds on a channel (R164). -/
def demandOf (o : OutputUnit) (ch : Channel) : DemandSource → Option Nat
  | .fire => chGet o.fire ch
  | .guard => (chGet o.guard ch).map (·.value)
  | .manual => (chGet o.manual ch).map (·.value)
  | .sequencer => o.seqSet.map fun d => chGet d ch

/-- The override level of a source (R164). -/
def levelOf (c : Settings) : DemandSource → Nat
  | .fire => 4
  | .guard => c.outputs.lvlGuard
  | .manual => c.outputs.lvlManual
  | .sequencer => c.outputs.lvlSeq

/-- The better of a present best source and one that comes later in the tie order: the later one only at a strictly higher level. -/
def better (c : Settings) (o : OutputUnit) (ch : Channel) (best : Option DemandSource) (x : DemandSource) : Option DemandSource :=
  if (demandOf o ch x).isNone then best
  else match best with
    | none => some x
    | some b => if levelOf c b < levelOf c x then some x else some b

/-- The winner of a channel: the highest level, ties in the order FIRE, GUARD, MANUAL, SEQUENCER (R165). -/
def winner (c : Settings) (o : OutputUnit) (ch : Channel) : Option DemandSource :=
  [DemandSource.fire, .guard, .manual, .sequencer].foldl (better c o ch) none

/-- A source moves a channel in a single jump: FIRE, and GUARD of manner IMMEDIATE (R165, R167). -/
def jumps (o : OutputUnit) (ch : Channel) : DemandSource → Bool
  | .fire => true
  | .guard => ((chGet o.guard ch).map (·.immediate)).getD false
  | .manual => false
  | .sequencer => false

/-- The demand a channel moves toward, and whether it is taken in a jump. -/
def aim (c : Settings) (o : OutputUnit) (ch : Channel) : Option (Nat × Bool) :=
  match winner c o ch with
  | none => none
  | some src => (demandOf o ch src).map fun d => (d, jumps o ch src)

/-! ## Moving an output (R163, R166, R167) -/

/-- The wheel-run output follows the WHL output (R163). Its turning on starts the stall timer of a CLEAR STALL and clears the last
wrap time; its turning off stops the stall timer (R184, R192). -/
def wheelFollows (s : State) : State :=
  let on := decide (0 < s.out.present.whl)
  if on = s.out.wheelRun then s
  else
    let s1 := s.setOut { s.out with wheelRun := on }
    if on then
      s1.setLimits { s1.limits with
        stallTimer := if s1.limits.stall = .clear then some (s1.now + secs s1.cfg.limits.tSTALL) else s1.limits.stallTimer
        lastWrap := none }
    else s1.setLimits { s1.limits with stallTimer := none }

/-- A channel's present output and accumulator are set. -/
def setPresent (ch : Channel) (v acc : Nat) (s : State) : State :=
  wheelFollows (s.setOut { s.out with present := chSet s.out.present ch v, acc := chSet s.out.acc ch acc })

/-- The way a channel moves: up 1, down −1, not at all 0, jumps and channels with no demand counting as not at all. -/
def heading (c : Settings) (o : OutputUnit) (ch : Channel) : Int :=
  match aim c o ch with
  | some (d, false) => Int.sign ((d : Int) - chGet o.present ch)
  | _ => 0

/-- A channel after its demands changed from those of `old`: a jumping winner's demand is taken at once; a slewed channel keeps its
accumulator only while it goes on moving the same way (R166, R167). -/
def settleChannel (old : OutputUnit) (ch : Channel) (s : State) : State :=
  match aim s.cfg s.out ch with
  | none => s
  | some (d, true) => setPresent ch d 0 s
  | some (_, false) =>
    let h := heading s.cfg s.out ch
    if h != 0 && h = heading s.cfg { old with present := s.out.present } ch then s
    else s.setOut { s.out with acc := chSet s.out.acc ch 0 }

/-- Demands are posted, changed or removed, and every channel's winner is chosen afresh (R165). -/
def changeDemands (f : OutputUnit → OutputUnit) (s : State) : State :=
  let old := s.out
  settleChannel old .whl (settleChannel old .byp (settleChannel old .oda (s.setOut (f s.out))))

/-- A channel's slew accumulator has reached 1000 and it has a distance to go (R166). -/
def slewDue (s : State) (ch : Channel) : Bool :=
  heading s.cfg s.out ch != 0 && 1000 ≤ chGet s.out.acc ch

/-- A slew step: the output moves 1 per-mille toward the demand; the accumulator is lowered by 1000, or cleared on arrival (R166). -/
def slewOnce (ch : Channel) (s : State) : State :=
  match aim s.cfg s.out ch with
  | some (d, false) =>
    let p := chGet s.out.present ch
    let q := if p < d then p + 1 else p - 1
    setPresent ch q (if q = d then 0 else chGet s.out.acc ch - 1000) s
  | _ => s

/-- One millisecond of slewing on a channel: the accumulator is raised while the output differs from a slewed demand (R166). -/
def accumulate (ch : Channel) (s : State) : State :=
  if heading s.cfg s.out ch != 0 then
    s.setOut { s.out with acc := chSet s.out.acc ch (chGet s.out.acc ch + chGet s.cfg.outputs.slew ch) }
  else s

/-! ## Sequencer sets and ramp completion (R168, R170) -/

/-- The number of the next posting: counting from 1, wrapping at 65535 to 1 (R168). -/
def nextPosting (n : Nat) : Nat := if n < 65535 then n + 1 else 1

/-- The Mode Sequencer posts a demand set (R168). -/
def postSet (d : DemandSet) (s : State) : State :=
  changeDemands (fun o => { o with seqSet := some d, posting := nextPosting o.posting, completionPending := true })
    (s.setSeq { s.seq with demands := some d })

/-- A channel counts as complete: another source wins it, or it stands at the sequencer's demand (R170). -/
def channelComplete (c : Settings) (o : OutputUnit) (ch : Channel) : Bool :=
  winner c o ch != some .sequencer || demandOf o ch .sequencer = some (chGet o.present ch)

/-- Ramp completion is to be reported (R170). -/
def completionDue (s : State) : Bool :=
  s.out.completionPending && channelComplete s.cfg s.out .oda && channelComplete s.cfg s.out .byp && channelComplete s.cfg s.out .whl

/-! ## Guard, manual and fire demands (R169, R171, R172, R175) -/

/-- The Output Unit takes an assertion of the filtered FIRE input (R175). -/
def outputsFireAsserted (s : State) : State :=
  post (.fireAsserted s.cfg.outputs.fire) (changeDemands (fun o => { o with fire := s.cfg.outputs.fire }) s)

/-- The Output Unit takes a release of the filtered FIRE input (R175). -/
def outputsFireReleased (s : State) : State :=
  post .fireReleased (changeDemands (fun o => { o with fire := ⟨none, none, none⟩ }) s)

/-- The guard demands of the channels are as given (R169). -/
def setGuards (g : PerChannel (Option Guard)) (s : State) : State := changeDemands (fun o => { o with guard := g }) s

/-- A channel's manual demand is set or removed (R171, R172). -/
def setManual (ch : Channel) (m : Option Manual) (s : State) : State :=
  changeDemands (fun o => { o with manual := chSet o.manual ch m }) s

end Sys2Proof.Machine
end

