-- ==== Sys2Proof/Machine/Peers.lean ====
section
/-! DEFINITION. The Acceptance Filters (05_acceptance_filters.md) and the Peer Table (06_peer_table.md). What the table reports to the
Mode Sequencer (R131) is answered beside the state. -/

namespace Sys2Proof.Machine

/-! ## Filters (R119 to R123) -/

/-- The distance of two levels, taken without sign. -/
def levelDistance (a b : Nat) : Nat := (a - b) + (b - a)

/-- A slot's three tests (R120); `beacon` says the frame is a BEACON, else an ALERT. -/
def slotMatches (ownShaft ownLevel : Nat) (f : FilterRecord) (beacon : Bool) (shaft level : Nat) : Bool :=
  (if beacon then f.beacons else f.alerts) &&
  (match f.selector with
   | .own => shaft = ownShaft
   | .any => true
   | .number n => shaft = n) &&
  (match f.window with
   | .relative span => levelDistance level ownLevel ≤ span
   | .absolute lo hi => lo ≤ level && level ≤ hi)

/-- A slot's result: its match, turned around by inverse; false while disabled (R121). -/
def slotResult (ownShaft ownLevel : Nat) (f : FilterRecord) (beacon : Bool) (shaft level : Nat) : Bool :=
  f.enable && (slotMatches ownShaft ownLevel f beacon shaft level != f.inverse)

/-- The filters' decision (R122, R123): some chain end gives true. -/
def filtersAccept (c : Settings) (beacon : Bool) (shaft level : Nat) : Bool :=
  let own := c.ident.shaft.getD 0
  let res (f : FilterRecord) := slotResult own (c.ident.level.getD 0) f beacon shaft level
  let f := c.filters
  let r0 := res f.f0 && (!f.f0.join || shaft = own)
  let r1 := res f.f1 && (!f.f1.join || r0)
  let r2 := res f.f2 && (!f.f2.join || r1)
  let r3 := res f.f3 && (!f.f3.join || r2)
  (r0 && !f.f1.join) || (r1 && !f.f2.join) || (r2 && !f.f3.join) || r3

/-! ## The table (R127 to R138) -/

/-- What the Peer Table reports to the Mode Sequencer (R131). -/
inductive PeerReport where
  | updated (addr : Nat)
  | gone (addr : Nat)
  deriving DecidableEq, Repr

/-- How many records the table holds at most (R127). -/
def peerCapacity : Nat := 32

/-- The record of an address. -/
def findPeer (s : State) (addr : Nat) : Option PeerRecord := s.peers.records.find? fun p => p.addr = addr

/-- The table's records without an address. -/
def withoutPeer (addr : Nat) (l : List PeerRecord) : List PeerRecord := l.filter fun p => p.addr != addr

/-- The table's records with one put in its place by address (R141). -/
def insertPeer (p : PeerRecord) (l : List PeerRecord) : List PeerRecord := insertBy (fun a b => a.addr < b.addr) p l

/-- The record an accepted BEACON makes (R129, R130, R135). -/
def peerFrom (addr shaft heard : Nat) (b : BeaconBody) (now : Time) : PeerRecord :=
  { addr := addr, shaft := shaft, level := b.level, cls := b.cls, follow := b.follow, mode := b.mode, phase := b.phase,
    fire := b.fire, obsT := b.probeT, obsW := b.probeW, quality := b.quality, lastBeacon := now, lastHeard := now,
    beaconsHeard := heard, fresh := true }

/-- The record a newcomer displaces from a full table, or none where it is refused (R136). -/
def peerVictim (s : State) (newLevel : Nat) : Option PeerRecord :=
  let own := ownLevel s
  match firstBy (fun a b => a.lastHeard < b.lastHeard || (a.lastHeard = b.lastHeard && b.addr < a.addr))
      (s.peers.records.filter fun p => !p.fresh) with
  | some p => some p
  | none =>
    match firstBy (fun a b => levelDistance b.level own < levelDistance a.level own ||
        (levelDistance a.level own = levelDistance b.level own && b.addr < a.addr)) s.peers.records with
    | none => none
    | some p => if levelDistance newLevel own < levelDistance p.level own then some p else none

/-- PEER_TABLE_FULL is posted at most once per tSTALE (R138). -/
def noteTableFull (addr level : Nat) (s : State) : State :=
  let quiet := match s.peers.lastFull with
    | none => false
    | some t => !aged t (secs s.cfg.line.tSTALE) s.now
  if quiet then s else post (.peerTableFull addr level) (s.setPeers { s.peers with lastFull := some s.now })

/-- A record is removed with PEER_LOST (R134, R137). -/
def losePeer (addr : Nat) (cause : LostCause) (s : State) : State :=
  post (.peerLost addr cause) (s.setPeers { s.peers with records := withoutPeer addr s.peers.records })

/-- An accepted BEACON (R129, R135 to R137). -/
def peerBeacon (addr shaft : Nat) (b : BeaconBody) (s : State) : State × List PeerReport :=
  match findPeer s addr with
  | some old =>
    let heard := if old.beaconsHeard < 255 then old.beaconsHeard + 1 else old.beaconsHeard
    let p := peerFrom addr shaft heard b s.now
    (s.setPeers { s.peers with records := s.peers.records.map fun q => if q.addr = addr then p else q }, [.updated addr])
  | none =>
    let create (s1 : State) := s1.setPeers { s1.peers with records := insertPeer (peerFrom addr shaft 1 b s1.now) s1.peers.records }
    if s.peers.records.length < peerCapacity then (create s, [.updated addr])
    else
      match peerVictim s b.level with
      | some v => (create (losePeer v.addr .evicted s), [.gone v.addr, .updated addr])
      | none => (noteTableFull addr b.level s, [])

/-- An accepted ALERT (R132). -/
def peerAlert (addr : Nat) (fire : Bool) (s : State) : State :=
  s.setPeers { s.peers with records := s.peers.records.map fun p => if p.addr = addr then { p with fire := fire, lastHeard := s.now } else p }

/-- A record goes STALE (R133). -/
def peerGoesStale (addr : Nat) (s : State) : State :=
  s.setPeers { s.peers with records := s.peers.records.map fun p => if p.addr = addr then { p with fresh := false } else p }

end Sys2Proof.Machine
end

