-- ==== Sys2Proof/Machine/Sequencing.lean ====
section
/-! DEFINITION. The Mode Sequencer (02_mode_sequencer.md): confirmation, the start test and its blocks, the phases of a transition,
cancellation and SAFE abort, ramp completion, the DEFROST cycle, forced leave and FIRE suspension. -/

namespace Sys2Proof.Machine

/-! ## Mode and phase (R26, R27) -/

/-- The mode is set; a change is reported to the Link Controller, which queues a BEACON (R26, R100). -/
def setMode (m : Mode) (s : State) : State :=
  if s.seq.mode = some m then s else queueBeacon (s.setSeq { s.seq with mode := some m })

/-- The phase is set; a change is reported to the Link Controller, which queues a BEACON (R26, R100). -/
def setPhase (p : Phase) (s : State) : State :=
  if s.seq.phase = some p then s else queueBeacon (s.setSeq { s.seq with phase := some p })

/-- The phase is SETTLED. -/
def settled (s : State) : Bool := s.seq.phase = some .settled

/-- The resource a mode needs claimed (R33). -/
def claimFor : Mode → Option Resource
  | .free => some .relief
  | .defrost => some .defrost
  | _ => none

/-! ## Confirmation (R30) -/

/-- The candidate after a record's desired mode (R30). -/
def updateCandidate (m : Mode) (s : State) : State :=
  if s.seq.candidate = some m then s.setSeq { s.seq with count := min 30 (s.seq.count + 1) }
  else s.setSeq { s.seq with candidate := some m, count := 1 }

/-- How many evaluations confirm a mode (R30). -/
def confirmNeed (c : Settings) (m : Mode) : Nat := if m = .safe || m = .defrost then 1 else c.decision.confirm

/-- The confirmed desire (R30). -/
def confirmed (s : State) : Option Mode :=
  match s.seq.candidate with
  | none => none
  | some m => if confirmNeed s.cfg m ≤ s.seq.count then some m else none

/-- The candidate is cleared (R29, R49). -/
def clearCandidate (s : State) : State := s.setSeq { s.seq with candidate := none, count := 0 }

/-! ## Demand sets (R23, R39) -/

/-- The demand set of SAFE (R23). -/
def safeSet (c : Settings) : DemandSet := ⟨c.outputs.oaMin, 0, c.decision.whlSafe⟩

/-- The demand set formed at the start of a ramp, from the latest record (R39). -/
def rampSet (c : Settings) (e : EvalRecord) : Mode → DemandSet
  | .safe => safeSet c
  | .recover =>
    let speed := match e.speed with
      | some v => if e.frostRisk then min v c.decision.frostCap else v
      | none => c.decision.wheelMin
    ⟨c.outputs.oaMin, 0, speed⟩
  | .neutral => ⟨c.outputs.oaMin, 1000, 0⟩
  | .free => ⟨e.mixing.getD c.outputs.oaMin, 1000, 0⟩
  | .defrost => ⟨c.outputs.oaMin, 1000, 1000⟩

/-! ## Blocks on starting (R32) -/

/-- The dwell of the present mode has not passed (R32). -/
def dwelling (s : State) : Bool :=
  match s.seq.dwellStart with
  | none => false
  | some t => !aged t (secs s.cfg.decision.tDWELL) s.now

/-- The own claim process of a mode's resource is STARVED (R32). -/
def starvedFor (s : State) (m : Mode) : Bool :=
  match claimFor m with
  | none => false
  | some r => (procOf s r).state = .starved

/-- The link is isolated and the mode needs a claim: the isolated block (R32). -/
def isolatedFor (s : State) (m : Mode) : Bool := isolated s && (claimFor m).isSome

/-- Some block of R32 applies to a start toward the target. -/
def blocked (s : State) (target : Mode) : Bool :=
  target != .safe &&
    (s.limits.hold
      || (dwelling s && (target != .defrost || s.seq.mode = some .defrost))
      || (s.seq.mode = some .defrost && !s.seq.defrostExpired)
      || starvedFor s target
      || isolatedFor s target)

/-! ## Follow wait (R36, R37) -/

/-- The wait set chosen from the Peer Table (R36). -/
def chooseWaitSet (s : State) : List Nat :=
  let freshOnes := s.peers.records.filter (·.fresh)
  match s.cfg.follow.follow with
  | .none => []
  | .below =>
    let below := freshOnes.filter fun p => p.shaft = ownShaft s && p.level < ownLevel s
    let order := sortBy (fun a b => b.level < a.level || (a.level = b.level && a.addr < b.addr)) below
    (order.take s.cfg.follow.followN).map (·.addr)
  | .list => (freshOnes.filter fun p => s.cfg.follow.followList.contains p.addr).map (·.addr)

/-- The members of a wait set whose last reported phase is RAMPING. -/
def rampingMembers (s : State) (set : List Nat) : List Nat :=
  (s.peers.records.filter fun p => set.contains p.addr && p.phase = .ramping).map (·.addr)

/-- The wait ends: no member reports RAMPING (R37). -/
def waitOver (s : State) (set : List Nat) : Bool := (rampingMembers s set).isEmpty

/-- The wait set empties and the follow timer stops (R36). -/
def endWait (s : State) : State := s.setSeq { s.seq with waitSet := [], followTimer := none }

/-! ## Phases of a transition (R33, R34, R39) -/

/-- RAMPING is entered: the target's demand set is formed from the latest record and posted (R39). -/
def enterRamping (target : Mode) (s : State) : State :=
  let s1 := setPhase .ramping (endWait s)
  let s2 := postSet (rampSet s1.cfg s1.decision.last target) s1
  s2.setSeq { s2.seq with rampPosting := some s2.out.posting }

/-- FOLLOW_WAIT, or RAMPING where it is skipped (R33, R36). -/
def enterWaitOrRamp (target : Mode) (forced : Bool) (s : State) : State :=
  let set := chooseWaitSet s
  if target = .safe || forced || waitOver s set then enterRamping target s
  else
    setPhase .followWait (s.setSeq { s.seq with waitSet := set, followTimer := some (s.now + secs s.cfg.follow.tFOLLOW) })

/-- The first phase that applies is entered (R33); entering CLAIMING requests the claim (R34). -/
def enterFirstPhase (target : Mode) (forced : Bool) (s : State) : State :=
  match claimFor target with
  | some r =>
    if (procOf s r).state = .held then enterWaitOrRamp target forced s
    else (requestClaim r (setPhase .claiming s)).1
  | none => enterWaitOrRamp target forced s

/-- A transition starts; a SAFE transition clears a pending forced leave (R31, R50). -/
def beginTransition (target : Mode) (forced : Bool) (s : State) : State :=
  enterFirstPhase target forced (s.setSeq { s.seq with
    transition := some { target := target, forced := forced }
    forcedPending := if target = .safe then none else s.seq.forcedPending })

/-- The start test (R31). -/
def startTest (s : State) : State :=
  match confirmed s with
  | none => s
  | some m => if settled s && s.seq.mode != some m && !blocked s m then beginTransition m false s else s

/-- The target of the exit from DEFROST (R47). -/
def exitTarget (s : State) : Mode :=
  match s.decision.last.desired with
  | none => .recover
  | some .defrost => .recover
  | some .free => if starvedFor s .free || isolatedFor s .free then .recover else .free
  | some m => m

/-- The exit from DEFROST is made when its cycle timer has expired and the phase is SETTLED (R46, R47). -/
def exitTest (s : State) : State :=
  if settled s && s.seq.mode = some .defrost && s.seq.defrostExpired then beginTransition (exitTarget s) false s else s

/-- The phase has become SETTLED by a cancellation or an abandonment: the start test, then the exit from DEFROST (R31, R46, R47). -/
def afterSettled (s : State) : State := exitTest (startTest s)

/-! ## Cancel, abandon, abort (R35, R43, R45) -/

/-- A hold the given mode does not need is released (R41, R43). -/
def releaseUnless (m : Option Mode) (r : Resource) (s : State) : State :=
  if holds (procOf s r) && m.bind claimFor != some r then releaseClaim r s else s

/-- Every hold the given mode does not need is released (R41). -/
def releaseUnneeded (m : Option Mode) (s : State) : State := forBoth (releaseUnless m) s

/-- The transition's claim request is cancelled (R43, step 1). -/
def cancelRequest (s : State) : State :=
  match s.seq.transition with
  | none => s
  | some t =>
    match claimFor t.target with
    | none => s
    | some r => cancelClaim r s

/-- The phase becomes SETTLED with no transition. -/
def toSettled (s : State) : State :=
  setPhase .settled (s.setSeq { s.seq with transition := none, rampPosting := none })

/-- A transition in CLAIMING or FOLLOW_WAIT is cancelled, up to its phase becoming SETTLED (R43). -/
def cancelTransition (s : State) : State := toSettled (endWait (releaseUnneeded s.seq.mode (cancelRequest s)))

/-- CLAIM_STARVED reaches the Sequencer in CLAIMING: the transition is abandoned (R35). -/
def abandon (target : Mode) (s : State) : State := afterSettled (post (.transitionAbandoned target) (toSettled (endWait s)))

/-- A confirmed SAFE aborts the transition in progress (R45). -/
def abortToSafe (s : State) : State :=
  let s1 := endWait (forBoth cancelClaim s)
  enterRamping .safe (s1.setSeq { s1.seq with transition := some { target := .safe, forced := false }, forcedPending := none })

/-! ## Evaluation records (R30, R42, R43, R45) -/

/-- The running update of R42. -/
def runningUpdate (s : State) : State :=
  match s.seq.demands with
  | none => s
  | some d =>
    if s.seq.mode = some .recover then
      match s.decision.last.speed with
      | some v => postSet { d with whl := v } s
      | none => s
    else if s.seq.mode = some .free then
      match s.decision.last.mixing with
      | some v => postSet { d with oda := v } s
      | none => s
    else s

/-- What a confirmed desire does to a transition in progress: SAFE aborts it, another cancels it before its ramp (R43 to R45). -/
def desireAgainst (t : Transition) (s : State) : State :=
  match confirmed s with
  | none => s
  | some m =>
    if m = t.target then s
    else if m = .safe then abortToSafe s
    else if s.seq.phase = some .ramping then s
    else afterSettled (cancelTransition s)

/-- The Sequencer takes the latest evaluation record (R30, R42 to R45, R52). -/
def takeRecord (s : State) : State :=
  match s.decision.last.desired with
  | none => s
  | some m =>
    if !running s then s
    else
      let s1 := updateCandidate m s
      match s1.seq.phase, s1.seq.transition with
      | some .settled, _ => startTest (runningUpdate s1)
      | some .suspended, _ => s1
      | some _, some t => desireAgainst t s1
      | _, _ => s1

/-! ## Forced leave (R49, R50) -/

/-- The target of a forced leave of a mode (R49). -/
def forcedTarget (s : State) (affected : Mode) : Mode :=
  if affected = .defrost then .recover
  else match s.decision.last.desired with
    | none => .neutral
    | some .free => .neutral
    | some .defrost => .recover
    | some m => m

/-- A forced leave takes effect from SETTLED: the candidate is cleared and, in the affected mode, a forced transition starts (R49,
R50). A pending one that is acted on clears the candidate here again (log entry 12). -/
def leaveNow (affected : Mode) (s : State) : State :=
  let s1 := clearCandidate (s.setSeq { s.seq with forcedPending := none })
  if s1.seq.mode = some affected then beginTransition (forcedTarget s1 affected) true s1 else afterSettled s1

/-- A forced leave becomes pending and clears the candidate (R49, R50). -/
def leaveLater (affected : Mode) (s : State) : State := clearCandidate (s.setSeq { s.seq with forcedPending := some affected })

/-- The target of the transition in progress, or of the one a suspension record keeps (R11, R49). -/
def targetOf (s : State) : Option Mode :=
  match s.seq.transition with
  | some t => some t.target
  | none => s.seq.record.map (·.target)

/-- A cause of forced leave, naming the affected mode (R49, R50). A cause that arrives while a forced leave is pending changes nothing,
whatever the phase. While RAMPING out of the affected mode it does nothing at all, and leaves the candidate as it stands: DESIGN CHOICE, log
entry 30. -/
def forceLeave (affected : Mode) (s : State) : State :=
  if !running s || s.seq.forcedPending.isSome then s
  else
    let leaving := s.seq.mode = some affected
    let entering := targetOf s = some affected
    match s.seq.phase with
    | some .settled => if leaving then leaveNow affected s else s
    | some .claiming | some .followWait =>
      if leaving then leaveNow affected (endWait (cancelRequest s))
      else if entering then afterSettled (clearCandidate (cancelTransition s))
      else s
    | some .ramping => if entering then leaveLater affected s else s
    | some .suspended => if leaving || entering then leaveLater affected s else s
    | none => s

/-- The link has entered CLASHED or OFFLINE: a forced leave of FREE and of DEFROST (R49). Where both are affected, in DEFROST with a
transition or a record toward FREE, the present mode's leave is taken first: DESIGN CHOICE, log entry 26. -/
def linkLost (s : State) : State :=
  if s.seq.mode = some .defrost then forceLeave .free (forceLeave .defrost s) else forceLeave .defrost (forceLeave .free s)

/-! ## Ramp completion (R40, R170) -/

/-- The DEFROST timers at a change of mode (R40 step 3, R46, R48). -/
def defrostTimers (old : Option Mode) (target : Mode) (s : State) : State :=
  if target = .defrost then
    s.setSeq { s.seq with defrostTimer := some (s.now + secs s.cfg.decision.tDEFROST), defrostExpired := false }
  else if old = some .defrost then
    s.setSeq { s.seq with defrostTimer := none, defrostExpired := false, defrostEnd := some s.now }
  else s

/-- The mode becomes the ramp's target (R40 step 1). -/
def enterMode (target : Mode) (s : State) : State :=
  let s1 := s.setSeq { s.seq with dwellStart := some s.now, dwellTimer := some (s.now + secs s.cfg.decision.tDWELL) }
  post (.modeChanged target) (setMode target s1)

/-- The Sequencer acts on a ramp completion while RAMPING (R40). -/
def rampCompleted (target : Mode) (s : State) : State :=
  let old := s.seq.mode
  let s1 := if old = some target then s else enterMode target s
  let s2 := releaseUnneeded (some target) s1
  let s3 := if old = some target then s2 else defrostTimers old target s2
  let s4 := toSettled s3
  match s4.seq.forcedPending with
  | some m => leaveNow m s4
  | none => afterSettled s4

/-- The Output Unit's report names the posting it completes: the Sequencer acts on it while RAMPING and only on the set of that ramp
(R170). -/
def takeCompletion (n : Nat) (s : State) : State :=
  match s.seq.transition with
  | none => s
  | some t =>
    if running s && s.seq.phase = some .ramping && s.seq.rampPosting = some n then rampCompleted t.target s else s

/-- A ramp completion is reported where one is due (R170). -/
def reportOnce (s : State) : State :=
  if completionDue s then takeCompletion s.out.posting (s.setOut { s.out with completionPending := false }) else s

/-- Ramp completions are reported within the event until none is due: one completion can start a ramp that is complete at once (R40).
Each needs a mode change or a pending forced leave that the ones before it leave fewer of, so the count is never used up (log entry
9). -/
def reportAll : Nat → State → State
  | 0, s => s
  | n + 1, s => if completionDue s then reportAll n (reportOnce s) else s

/-- The completions of an event. -/
def settleRamps (s : State) : State := reportAll 8 s

/-! ## Reports of the other blocks (R31, R35, R37, R49) -/

/-- The Sequencer takes one report of the Claim Unit (R35, R49, R77). -/
def takeClaimReport (x : ClaimReport) (s : State) : State :=
  if !running s then s
  else
    let claiming (r : Resource) : Option Transition :=
      if s.seq.phase = some .claiming then s.seq.transition.bind fun t => if claimFor t.target = some r then some t else none else none
    match x with
    | .granted r =>
      match claiming r with
      | some t => enterWaitOrRamp t.target t.forced s
      | none => s
    | .starved r =>
      match claiming r with
      | some t => abandon t.target s
      | none => s
    | .yielding r .overcommit => forceLeave (match r with | .relief => .free | .defrost => .defrost) s
    | .yielding _ .clash => s
    | .starvedEnd _ => startTest s

/-- The Sequencer takes the Claim Unit's reports in order. -/
def takeClaimReports : List ClaimReport → State → State
  | [], s => s
  | x :: rest, s => takeClaimReports rest (takeClaimReport x s)

/-- An operation of the Claim Unit, then its reports. -/
def reported (x : Reported) : State := takeClaimReports x.2 x.1

/-- The end of the wait is tested (R37). -/
def waitTest (s : State) : State :=
  match s.seq.transition with
  | some t => if s.seq.phase = some .followWait && waitOver s s.seq.waitSet then enterRamping t.target s else s
  | none => s

/-- The Sequencer takes one report of the Peer Table (R37, R131). -/
def takePeerReport (x : PeerReport) (s : State) : State :=
  if !running s || s.seq.phase != some .followWait then s
  else match x with
    | .updated a => if s.seq.waitSet.contains a then waitTest s else s
    | .gone a =>
      if s.seq.waitSet.contains a then waitTest (s.setSeq { s.seq with waitSet := s.seq.waitSet.filter (fun b => b != a) }) else s

/-- The Sequencer takes the Peer Table's reports in order. -/
def takePeerReports : List PeerReport → State → State
  | [], s => s
  | x :: rest, s => takePeerReports rest (takePeerReport x s)

/-! ## FIRE (R51 to R54) -/

/-- FIRE is asserted (R51). -/
def suspend (s : State) : State :=
  if s.seq.phase = some .suspended || s.seq.phase.isNone then s
  else
    let record := match s.seq.transition, s.seq.phase with
      | some t, some p =>
        if p = .settled then none
        else some { target := t.target, interrupted := p, forced := t.forced, start := s.now,
                    relief := (procOf s .relief).state, defrost := (procOf s .defrost).state : Suspension }
      | _, _ => none
    let s1 := endWait s
    setPhase .suspended (s1.setSeq { s1.seq with record := record, transition := none, rampPosting := none })

/-- A record resumes when every one of these conditions holds (R53 step 3). -/
def resumable (x : Suspension) (s : State) : Bool :=
  let claimOk := match claimFor x.target with
    | none => true
    | some r =>
      let recorded := match r with | .relief => x.relief | .defrost => x.defrost
      (procOf s r).state != .yielding && (recorded != .held || (procOf s r).state = .held)
  s.now ≤ x.start + secs s.cfg.outputs.tRESUME
    && (confirmed s = some x.target || x.forced)
    && claimOk
    && !isolatedFor s x.target

/-- The interrupted transition is restored in its interrupted phase (R53). A STARVED process answers its new request at once (R70). -/
def resume (x : Suspension) (s : State) : State :=
  let s1 := post (.resumed x.target) (s.setSeq { s.seq with record := none, transition := some { target := x.target, forced := x.forced } })
  match x.interrupted with
  | .claiming =>
    let starved := starvedFor s1 x.target
    let s2 := enterFirstPhase x.target x.forced s1
    if starved then abandon x.target s2 else s2
  | .followWait => enterWaitOrRamp x.target x.forced s1
  | _ => enterRamping x.target s1

/-- A record is removed with DISCARDED (R54). -/
def dropRecord (x : Suspension) (s : State) : State := post (.discarded x.target) (s.setSeq { s.seq with record := none })

/-- The ramp back to the present mode after a discard (R54). -/
def rampBack (s : State) : State :=
  match s.seq.mode with
  | none => s
  | some m => enterRamping m (s.setSeq { s.seq with transition := some { target := m, forced := false } })

/-- Release with no record: SETTLED, the demand set posted again (R53 step 5). -/
def releaseSettled (s : State) : State :=
  let s1 := setPhase .settled s
  let s2 := match s1.seq.demands with
    | none => s1
    | some d => postSet d s1
  if s2.seq.mode = some .defrost && s2.seq.defrostExpired then exitTest s2
  else match s2.seq.forcedPending with
    | some m => leaveNow m s2
    | none => startTest s2

/-- FIRE is released (R53). -/
def resumeOrSettle (s : State) : State :=
  if s.seq.phase != some .suspended then s
  else if confirmed s = some .safe then
    let s1 := match s.seq.record with
      | some x => dropRecord x s
      | none => s
    beginTransition .safe false s1
  else match s.seq.record with
    | none => releaseSettled s
    | some x =>
      if s.seq.forcedPending.isSome then rampBack (dropRecord x s)
      else if resumable x s then resume x s
      else rampBack (dropRecord x s)

/-! ## Close and RESTART (R28, R29) -/

/-- The Sequencer starts in SAFE, SETTLED, with the SAFE demand set posted (R28, R29). -/
def sequencerStart (s : State) : State :=
  postSet (safeSet s.cfg) (s.setSeq { Sequencer.reset with mode := some .safe, phase := some .settled })

/-- The Sequencer at the acceptance of a RESTART (R29). -/
def sequencerRestart (s : State) : State :=
  let s1 := endWait s
  postSet (safeSet s.cfg) (s1.setSeq { s1.seq with mode := some .safe, phase := some .settled, transition := none, rampPosting := none })

end Sys2Proof.Machine
end

