-- ==== Sys2Proof/Machine/Limiting.lean ====
section
/-! DEFINITION. The Limit Supervisor and the rotation monitor (09_limit_supervision_and_wheel_rotation.md): judging the limits, guard
combination, the hold, the stall watch, and the counting of filtered rotation pulses. -/

namespace Sys2Proof.Machine

/-! ## Limit states and guard demands (R179, R180, R186, R187) -/

/-- The state of a limit (R179). -/
def limitOf (l : Limits) : LimitName → LimitState
  | .supplyLow => l.supplyLow
  | .frostTrip => l.frostTrip
  | .stall => l.stall

/-- The Limit Supervisor with one limit's state replaced. -/
def setLimit (n : LimitName) (v : LimitState) (l : Limits) : Limits :=
  match n with
  | .supplyLow => { l with supplyLow := v }
  | .frostTrip => { l with frostTrip := v }
  | .stall => { l with stall := v }

/-- The manner of an action's guard demands, IMMEDIATE when set; an action that does not guard has none (R180, R186). -/
def guardManner : LimitAction → Option Bool
  | .guardStop => some true
  | .guardRamp => some false
  | .ignore => none
  | .note => none
  | .hold => none

/-- The guard demands of the limits (R186). -/
def limitDemand (c : Settings) : LimitName → Channel → Option Nat
  | .supplyLow, .oda => some c.outputs.oaMin
  | .supplyLow, .byp => some 0
  | .supplyLow, .whl => some 1000
  | .frostTrip, .oda => some c.outputs.oaMin
  | .frostTrip, .byp => some 1000
  | .frostTrip, .whl => some 1000
  | .stall, .oda => none
  | .stall, .byp => some 1000
  | .stall, .whl => some 0

/-- The guard demand a limit has on a channel (R186). -/
def limitGuard (c : Settings) (l : Limits) (n : LimitName) (ch : Channel) : Option Guard :=
  match limitOf l n with
  | .clear => none
  | .active _ _ => (guardManner (actionOf c n)).bind fun m => (limitDemand c n ch).map fun v => { value := v, immediate := m }

/-- A channel's combined demand: that of the first limit in the order STALL, FROST_TRIP, SUPPLY_LOW that has one (R187). -/
def combinedGuard (c : Settings) (l : Limits) (ch : Channel) : Option Guard :=
  ((limitGuard c l .stall ch).or (limitGuard c l .frostTrip ch)).or (limitGuard c l .supplyLow ch)

/-- The combined demands of the three channels (R187). -/
def combinedGuards (c : Settings) (l : Limits) : PerChannel (Option Guard) :=
  ⟨combinedGuard c l .oda, combinedGuard c l .byp, combinedGuard c l .whl⟩

/-- The combination is formed afresh and what differs from the demands last posted is posted or withdrawn (R187). -/
def postGuards (s : State) : State :=
  let g := combinedGuards s.cfg s.limits
  if g = s.limits.posted then s else setGuards g (s.setLimits { s.limits with posted := g })

/-! ## The hold (R188) -/

/-- A limit counts toward the hold: ACTIVE with action HOLD. -/
def holdsBack (c : Settings) (l : Limits) (n : LimitName) : Bool := limitOf l n != .clear && actionOf c n = .hold

/-- The hold as the limits stand (R188). -/
def holdNow (c : Settings) (l : Limits) : Bool := holdsBack c l .supplyLow || holdsBack c l .frostTrip || holdsBack c l .stall

/-- The hold follows the limits; at its clearing the Sequencer makes its start test, but not while a RESTART waits (R188, R195). -/
def followHold (s : State) : State :=
  let now := holdNow s.cfg s.limits
  let s1 := s.setLimits { s.limits with hold := now }
  if s.limits.hold && !now && running s then startTest s1 else s1

/-! ## Judging (R181, R183, R189) -/

/-- A limit changes state: its notice unless its action is IGNORE, the guard combination, the hold (R180, R187 to R189). -/
def moveLimit (n : LimitName) (v : LimitState) (note : NoticeBody) (s : State) : State :=
  let s1 := s.setLimits (setLimit n v s.limits)
  let s2 := if actionOf s.cfg n = .ignore then s1 else post note s1
  followHold (postGuards s2)

/-- A value is judged against a trip level: below it trips, at or above it plus LIM_HYST clears (R181, R183). -/
def judge (n : LimitName) (trip v : Int) (src : TripSource) (s : State) : State :=
  match limitOf s.limits n with
  | .clear => if v < trip then moveLimit n (.active v src) (.limitTripped n v src (actionOf s.cfg n)) s else s
  | .active _ _ => if trip + s.cfg.limits.limHyst ≤ v then moveLimit n .clear (.limitCleared n (.value v)) s else s

/-- SUPPLY_LOW is judged on a written SUPPLY_T (R181). -/
def judgeSupply (v : Int) (s : State) : State := judge .supplyLow s.cfg.limits.tSupLow v .supplyT s

/-- FROST_TRIP is judged on a value of the given source (R183). -/
def judgeFrost (v : Int) (src : TripSource) (s : State) : State := judge .frostTrip s.cfg.limits.tFrostTrip v src s

/-- The t_x of the latest evaluation is handed over: judged only while EXHAUST_T is not fresh (R19, R182). -/
def takeEstimate (s : State) : State :=
  match s.decision.last.tX with
  | none => s
  | some x => if fresh s .exhaustT then s else judgeFrost x .estimate s

/-! ## STALL (R184, R185) -/

/-- A fresh run of the stall timer. -/
def stallFromNow (s : State) : Option Time := some (s.now + secs s.cfg.limits.tSTALL)

/-- The stall timer expires: STALL becomes ACTIVE with tSTALL as its value (R184). -/
def stallFound (s : State) : State :=
  let v : Int := s.cfg.limits.tSTALL
  moveLimit .stall (.active v .stallPeriod) (.limitTripped .stall v .stallPeriod (actionOf s.cfg .stall))
    (s.setLimits { s.limits with stallTimer := none })

/-- An accepted LIMIT CLEAR (R185). -/
def clearStall (s : State) : State :=
  let s1 := moveLimit .stall .clear (.limitCleared .stall .command) s
  if s1.out.wheelRun then s1.setLimits { s1.limits with stallTimer := stallFromNow s1 } else s1

/-! ## Rotation (R191, R192) -/

/-- The period latched at a wrap (R192). -/
def wrapPeriod (l : Limits) (now : Time) : Option Nat :=
  match l.lastWrap with
  | none => l.revPeriod
  | some t => some (min 65535 (now - t))

/-- A filtered rotation pulse: a running stall timer starts again, the ring counter counts or wraps (R184, R191, R192). -/
def rotationPulse (s : State) : State :=
  let l := { s.limits with stallTimer := if s.limits.stallTimer.isSome then stallFromNow s else none }
  if l.ring + 1 < s.cfg.limits.ppr then s.setLimits { l with ring := l.ring + 1 }
  else s.setLimits { l with ring := 0, revCount := l.revCount + 1, revPeriod := wrapPeriod l s.now, lastWrap := some s.now }

/-! ## RESTART (R195) -/

/-- Every limit CLEAR, the guards withdrawn, the hold clear, the stall timer afresh while the wheel runs (R195). -/
def limitsRestart (s : State) : State :=
  let l := { s.limits with supplyLow := .clear, frostTrip := .clear, stall := .clear, hold := false,
                           posted := ⟨none, none, none⟩ }
  let s1 := setGuards ⟨none, none, none⟩ (s.setLimits l)
  s1.setLimits { s1.limits with stallTimer := if s1.out.wheelRun then stallFromNow s1 else none }

end Sys2Proof.Machine
end

