-- ==== Sys2Proof/Machine/Measuring.lean ====
section
/-! DEFINITION. The measurement store (R204, R205) and what a write or a lapse of a channel hands on (R146, R181, R182). -/

namespace Sys2Proof.Machine

/-- The range of a channel (R204). -/
def measRange : MeasChannel → Int × Int
  | .returnT => (-500, 600)
  | .returnW => (0, 300)
  | .supplyT => (-500, 600)
  | .probeT => (-500, 600)
  | .probeW => (0, 300)
  | .exhaustT => (-500, 600)

/-- A value as the store holds it (R204). -/
def measClamp (ch : MeasChannel) (v : Int) : Int := clampInt (measRange ch).1 (measRange ch).2 v

/-- A value is stored with the present uptime (R204). -/
def storeValue (ch : MeasChannel) (v : Int) (s : State) : State :=
  let w := measClamp ch v
  s.setPort { s.port with
    meas := setMeas s.port.meas ch { value := some w, arrival := some s.now, clamped := w != v, lapsed := false } }

/-- NONE is stored (R204). -/
def storeNone (ch : MeasChannel) (s : State) : State := s.setPort { s.port with meas := setMeas s.port.meas ch .empty }

/-- The verdict becomes AGREE and the counter 0 (R146); while a RESTART waits the Band Estimator takes no event (R144). -/
def clearVerdict (s : State) : State := if running s then s.setBand { s.band with disagree := false, counter := 0 } else s

/-- What a stored value hands on (R181, R182, R204). -/
def afterValue (ch : MeasChannel) (v : Int) (s : State) : State :=
  match ch with
  | .supplyT => judgeSupply v s
  | .exhaustT => judgeFrost v .exhaustT s
  | .returnT => s
  | .returnW => s
  | .probeT => s
  | .probeW => s

/-- What a stored NONE hands on (R146, R204). -/
def afterNone (ch : MeasChannel) (s : State) : State :=
  match ch with
  | .probeT => clearVerdict s
  | .probeW => clearVerdict s
  | .returnT => s
  | .returnW => s
  | .supplyT => s
  | .exhaustT => s

/-- MEAS WRITE to one of the six channels (R204). -/
def writeMeas (ch : MeasChannel) (v : Option Int) (s : State) : State :=
  match v with
  | some x =>
    let w := measClamp ch x
    reply (okOrClamped (w != x)) .none (settleRamps (afterValue ch w (storeValue ch x s)))
  | none => replyOk (afterNone ch (storeNone ch s))

/-- BASIS needs a channel: its lapse is noticed (R205). -/
def neededByBasis (b : Basis) : MeasChannel → Bool
  | .returnT => true
  | .returnW => b != .drybulb
  | .supplyT => false
  | .probeT => false
  | .probeW => false
  | .exhaustT => false

/-- A channel's value reaches tMEASAGE: its turning stale has not yet been taken (R205). -/
def lapseDue (s : State) (ch : MeasChannel) : Bool :=
  let m := measOf s.port.meas ch
  match m.value, m.arrival with
  | some _, some t => !m.lapsed && aged t (secs s.cfg.band.tMEASAGE) s.now
  | _, _ => false

/-- A channel turns stale: noticed once where BASIS needs it (R205). -/
def lapse (ch : MeasChannel) (s : State) : State :=
  let m := measOf s.port.meas ch
  let s1 := s.setPort { s.port with meas := setMeas s.port.meas ch { m with lapsed := true } }
  match m.value with
  | some v => if neededByBasis s.cfg.decision.basis ch then post (.measurementStale ch v) s1 else s1
  | none => s1

end Sys2Proof.Machine
end

