-- ==== Sys2Proof/Machine/Banding.lean ====
section
/-! DEFINITION. The Band Estimator (07_outdoor_band_estimation.md): peer samples, the median, the disagreement check, the value of
the active source and the band status. -/

namespace Sys2Proof.Machine

/-- A sample: temperature and humidity ratio. -/
abbrev Sample := Int × Int

/-- A Peer Table record is a peer sample (R148). -/
def isSample (s : State) (p : PeerRecord) : Bool :=
  let own := ownLevel s
  p.fresh && p.quality = .valid && ((p.level - own) + (own - p.level) ≤ s.cfg.band.bandHalf)
    && (s.cfg.band.bandShaft = .any || p.shaft = ownShaft s)

/-- The peer samples of an estimate (R148). -/
def peerSamples (s : State) : List Sample :=
  (s.peers.records.filter (isSample s)).map fun p => (p.obsT.getD 0, p.obsW.getD 0)

/-- The median of a list of values; an even count takes the mean of the two middle values, rounded toward −∞ (R149). -/
def median (l : List Int) : Int :=
  let v := sortBy (fun a b => decide (a < b)) l
  let n := v.length
  if n % 2 = 1 then v.getD (n / 2) 0 else Int.fdiv (v.getD (n / 2 - 1) 0 + v.getD (n / 2) 0) 2

/-- The median of samples, each component on its own (R149). -/
def medianOf (l : List Sample) : Sample := (median (l.map (·.1)), median (l.map (·.2)))

/-- The own reading as stored. -/
def ownReading (s : State) : Sample := (s.port.meas.probeT.value.getD 0, s.port.meas.probeW.value.getD 0)

/-- The value the active source gives (R150). -/
def sourceValue (src : OutdoorSource) (q : Quality) (own : Sample) (peers : List Sample) (now : Time) : Option BandValue :=
  let medianValue (l : List Sample) : Option BandValue :=
    if l.isEmpty then none
    else some { t := (medianOf l).1, w := (medianOf l).2, origin := .median, count := l.length, foundAt := now }
  let ownValue : BandValue := { t := own.1, w := own.2, origin := .own, count := 1, foundAt := now }
  match src with
  | .band => medianValue (if q = .valid then peers ++ [own] else peers)
  | .ownFirst => if q = .valid then some ownValue else medianValue peers
  | .ownOnly => if q = .valid then some ownValue else none

/-- The own reading stands apart from the peer-only median (R155). -/
def disagrees (c : Settings) (own mid : Sample) : Bool :=
  (c.band.disTolT : Int) < (own.1 - mid.1).natAbs || (c.band.disTolW : Int) < (own.2 - mid.2).natAbs

/-- The disagreement check, where its conditions hold (R155, R156). -/
def disagreementCheck (peers : List Sample) (s : State) : State :=
  if peers.length < s.cfg.band.disMinPeers || ownQuality s = .absent then s
  else
    let own := ownReading s
    let mid := medianOf peers
    let b := s.band
    if disagrees s.cfg own mid = b.disagree then s.setBand { b with counter := 0 }
    else if b.counter + 1 < s.cfg.band.disCount then s.setBand { b with counter := b.counter + 1 }
    else
      let s1 := s.setBand { b with disagree := !b.disagree, counter := 0 }
      post (if b.disagree then .ownProbeRestored own.1 own.2 mid.1 mid.2 else .ownProbeDisagree own.1 own.2 mid.1 mid.2) s1

/-- An estimate finds a value (R151). -/
def foundValue (v : BandValue) (s : State) : State :=
  let restored := s.band.status = .held || (s.band.status = .unknown && s.band.lost)
  let s1 := s.setBand { s.band with value := some v, status := .valid, lost := false, holdTimer := none }
  if restored then post (.bandRestored v.t v.w v.origin) s1 else s1

/-- The band value is given up (R152, R153). -/
def loseBand (s : State) : State :=
  post .bandUnknown (s.setBand { s.band with value := none, status := .unknown, lost := true, holdTimer := none })

/-- An estimate finds no value (R152, R154). -/
def foundNone (s : State) : State :=
  if s.band.status = .valid then
    if s.cfg.band.tBANDHOLD = 0 then loseBand s
    else
      let s1 := s.setBand { s.band with status := .held, holdTimer := some (s.now + secs s.cfg.band.tBANDHOLD) }
      match s.band.value with
      | some v => post (.bandHeld v.t v.w) s1
      | none => s1
  else s

/-- An estimate (R147). -/
def estimate (s : State) : State :=
  let peers := peerSamples s
  let s1 := disagreementCheck peers s
  match sourceValue s1.band.source (ownQuality s1) (ownReading s1) peers s1.now with
  | some v => foundValue v s1
  | none => foundNone s1

/-- A source is live: an estimate made at this moment would find a value (R158). -/
def sourceLive (s : State) : OutdoorSource → Bool
  | .band => !(peerSamples s).isEmpty || ownQuality s = .valid
  | .ownFirst => ownQuality s = .valid || !(peerSamples s).isEmpty
  | .ownOnly => ownQuality s = .valid

end Sys2Proof.Machine
end

