-- ==== Sys2Proof/Machine/Deciding.lean ====
section
/-! DEFINITION. The Decision Unit's arithmetic (01_changeover_arithmetic.md): Stages 0 to 8 and the result record, as functions of the
configuration and the inputs an evaluation reads. -/

namespace Sys2Proof.Machine

/-! ## Stages 1 to 3 (R10 to R13) -/

/-- Enthalpy in 0.01 kJ/kg, rounded to nearest with a half away from zero (R10). -/
def enthalpy (t w : Int) : Int :=
  let n := 1006000 * t + 2501000 * w + 186 * w * t
  if 0 ≤ n then Int.tdiv (n + 50000) 100000 else Int.tdiv (n - 50000) 100000

/-- The enthalpy of a side whose two values are present (R10). -/
def sideEnthalpy (t w : Option Int) : Option Int :=
  match t, w with
  | some a, some b => some (enthalpy a b)
  | _, _ => none

/-- BASIS uses the humidity and enthalpy tests (R11, R12, R14). -/
def usesEnthalpy (b : Basis) : Bool := b != .drybulb

/-- BASIS uses the dry-bulb favour test (R12). -/
def usesDrybulb (b : Basis) : Bool := b != .enthalpy

/-- The outdoor air is within limits (R11). -/
def withinLimits (d : DecisionItems) (inFree : Bool) (tO wO : Int) : Bool :=
  let band := if inFree then d.limBand else 0
  d.tFreeLow - band ≤ tO && tO ≤ d.tFreeHigh + band && (!usesEnthalpy d.basis || wO ≤ d.wFreeHigh + band)

/-- One favour test: non-strict at the ON margin, strict at the OFF margin once in FREE (R12). -/
def favourTest (inFree : Bool) (outdoor ret on off : Int) : Bool :=
  if inFree then outdoor < ret - off else outdoor ≤ ret - on

/-- The comparison of R12. -/
def comparison (d : DecisionItems) (inFree : Bool) (tO tR hO hR : Int) : Bool :=
  (!usesDrybulb d.basis || favourTest inFree tO tR d.dtOn d.dtOff)
    && (!usesEnthalpy d.basis || favourTest inFree hO hR d.dhOn d.dhOff)

/-! ## Stages 4 to 7 (R14 to R20) -/

/-- Recovery is useful (R14). -/
def useful (d : DecisionItems) (tO tR hO hR : Int) : Bool :=
  d.dtRec ≤ (tR - tO).natAbs && (!usesEnthalpy d.basis || d.dhRec ≤ (hR - hO).natAbs)

/-- The share the wheel must restore, truncated toward zero (R15). -/
def neededShare (tSp tO tR : Int) : Int := Int.tdiv (1000 * (tSp - tO)) (tR - tO)

/-- The wheel speed before the frost cap: rounded up, clamped to WHEEL_MIN..1000 (R16). -/
def wheelSpeed (d : DecisionItems) (needed : Nat) : Nat :=
  max d.wheelMin (min 1000 ((needed * 1000 + d.eff - 1) / d.eff))

/-- The frost cap (R17). -/
def cappedSpeed (d : DecisionItems) (frostRisk inDefrost : Bool) (needed : Nat) : Nat :=
  let v := wheelSpeed d needed
  if frostRisk && !inDefrost then min v d.frostCap else v

/-- The estimated exhaust temperature, floored (R18). -/
def exhaustEstimate (d : DecisionItems) (tO tR : Int) : Option Int :=
  if tO < tR then some (Int.fdiv (1000 * tR - d.eff * (tR - tO)) 1000) else none

/-- The mixing position (R20). -/
def mixingPosition (oaMin : Nat) (tSp tO tR : Int) : Nat :=
  if tR - tO ≤ 0 then 1000
  else if tR ≤ tSp then oaMin
  else max oaMin (min 1000 (Int.tdiv (1000 * (tR - tSp)) (tR - tO)).toNat)

/-! ## The result (R22 to R24) -/

/-- The demand set of a desired mode (R23). -/
def demandSet (c : Settings) (m : Mode) (speed mixing : Option Nat) : DemandSet :=
  match m with
  | .safe => safeSet c
  | .recover => ⟨c.outputs.oaMin, 0, speed.getD 0⟩
  | .neutral => ⟨c.outputs.oaMin, 1000, 0⟩
  | .free => ⟨mixing.getD c.outputs.oaMin, 1000, 0⟩
  | .defrost => ⟨c.outputs.oaMin, 1000, 1000⟩

/-- The record of an evaluation before any stage has run: its inputs, and the fields Stage 0 leaves (R9, R24). -/
def inputRecord (n : Word16) (i : EvalInputs) : EvalRecord :=
  { EvalRecord.empty with
    number := n, tO := i.tO, wO := i.wO, bandStatus := i.bandStatus, tR := i.tR, wR := i.wR, tSp := some i.tSp,
    spOrigin := some i.spOrigin, inFree := i.inFree, inDefrost := i.inDefrost, isolated := i.isolated }

/-- The gate of Stage 0: why it ends the evaluation, or none where it passes (R9). -/
def gate (d : DecisionItems) (i : EvalInputs) : Option EvalReason :=
  if i.bandStatus = .unknown then some .inputUnknown
  else if i.tR.isNone || (usesEnthalpy d.basis && i.wR.isNone) then some .returnStale
  else none

/-- What Stage 3 finds (R13): FREE, one of the two reasons it leaves, or neither. -/
inductive Favour where
  | free | outdoorLimit | isolated | none
  deriving DecidableEq, Repr

/-- Stage 3 (R13). -/
def favourOf (d : DecisionItems) (i : EvalInputs) (tO wO tR hO hR : Int) : Favour :=
  if !comparison d i.inFree tO tR hO hR then .none
  else if !withinLimits d i.inFree tO wO then .outdoorLimit
  else if i.isolated then .isolated
  else .free

/-- Stages 4, 5 and 8, when Stage 3 has not given FREE: desired mode, reason, recovery useful, needed and speed (R14 to R17, R21,
R22). -/
def recovery (c : Settings) (i : EvalInputs) (left : Favour) (frostRisk : Bool) (tO tR hO hR : Int) :
    Mode × EvalReason × Bool × Option Int × Option Nat :=
  let d := c.decision
  let because (why : EvalReason) : EvalReason :=
    match left with
    | .outdoorLimit => .outdoorLimit
    | .isolated => .isolated
    | .free => why
    | .none => why
  if !useful d tO tR hO hR then (.neutral, because .recoveryNotUseful, false, none, none)
  else
    let n := neededShare i.tSp tO tR
    if n ≤ 0 then (.neutral, because .setpointOtherSide, true, some n, none)
    else
      let share := (min n 1000).toNat
      let speed := cappedSpeed d frostRisk i.inDefrost share
      if frostRisk && i.defrostAllowed then (.defrost, .frost, true, some share, some speed)
      else (.recover, because .recoveryUseful, true, some share, some speed)

/-- An evaluation's result record (R9 to R24). -/
def evalRecord (c : Settings) (n : Word16) (i : EvalInputs) : EvalRecord :=
  let d := c.decision
  let base := inputRecord n i
  match gate d i, i.tO, i.tR with
  | none, some tO, some tR =>
    let wO := i.wO.getD 0
    let hO := sideEnthalpy i.tO i.wO
    let hR := sideEnthalpy i.tR i.wR
    let tX := exhaustEstimate d tO tR
    let risk := match tX with
      | some x => decide (x < d.tFrost)
      | none => false
    let common := { base with defrostPermitted := i.defrostAllowed, hO := hO, hR := hR, tX := tX, frostRisk := risk }
    let left := favourOf d i tO wO tR (hO.getD 0) (hR.getD 0)
    if left = .free then
      let pos := mixingPosition c.outputs.oaMin i.tSp tO tR
      { common with favour := true, mixing := some pos, desired := some .free, reason := some .freeFavoured,
                    demand := some (demandSet c .free none (some pos)) }
    else
      let (m, why, use, needed, speed) := recovery c i left risk tO tR (hO.getD 0) (hR.getD 0)
      { common with recoveryUseful := use, needed := needed, speed := speed, desired := some m, reason := some why,
                    demand := some (demandSet c m speed none) }
  | some why, _, _ => { base with desired := some .safe, reason := some why, demand := some (safeSet c) }
  | none, _, _ => { base with desired := some .safe, reason := some .inputUnknown, demand := some (safeSet c) }

/-! ## Reading the inputs (R6) -/

/-- The station is "in" a mode for an evaluation: its present mode, or the target of its transition, a suspended one included (R11,
R17). -/
def inMode (s : State) (m : Mode) : Bool := s.seq.mode = some m || targetOf s = some m

/-- No DEFROST cycle has ended less than tDEFINT ago (R21). -/
def defrostIntervalOk (s : State) : Bool :=
  match s.seq.defrostEnd with
  | none => true
  | some t => aged t (secs s.cfg.decision.tDEFINT) s.now

/-- The four conditions of a defrost request (R21). -/
def defrostAllowed (s : State) : Bool :=
  s.seq.mode = some .recover && settled s && defrostIntervalOk s && (procOf s .defrost).state != .starved && !isolated s

/-- The inputs as their owners hold them, the estimate having been made (R6, R157). -/
def readInputs (s : State) : EvalInputs :=
  let v := if s.band.status = .unknown then none else s.band.value
  { bandStatus := s.band.status
    tO := v.map (·.t)
    wO := v.map (·.w)
    tR := freshValue s .returnT
    wR := freshValue s .returnW
    tSp := s.decision.setpoint.getD s.cfg.decision.tSpDefault
    spOrigin := if s.decision.setpoint.isSome then .written else .dflt
    inFree := inMode s .free
    inDefrost := inMode s .defrost
    isolated := isolated s
    defrostAllowed := defrostAllowed s }

/-- The estimate, and the record the evaluation makes and numbers (R5 to R8, R147). -/
def makeRecord (s : State) : State :=
  let s1 := estimate s
  let n := s1.decision.counter + 1
  s1.setDecision { s1.decision with counter := n, last := evalRecord s1.cfg n (readInputs s1) }

end Sys2Proof.Machine
end

