-- ==== Sys2Proof/Machine/Evaluating.lean ====
section
/-! DEFINITION. An evaluation whole (R5 to R8, R25): the record is made, and handed to the Mode Sequencer and the Limit Supervisor with
no order between the two. -/

namespace Sys2Proof.Machine

/-- The Mode Sequencer takes the record, with the ramp completions that follow at once (R25, R30, R40). -/
def handToSequencer (s : State) : State := settleRamps (takeRecord s)

/-- The Limit Supervisor takes t_x, with the ramp completions that follow at once (R19, R25, R40). -/
def handToLimits (s : State) : State := settleRamps (takeEstimate s)

/-- An evaluation (R22, R25). -/
def evaluate (s : State) : State := unordered handToSequencer handToLimits (makeRecord s)

/-- An evaluation is requested; none is made while a RESTART waits (R4, R5). -/
def requestEvaluation (s : State) : State := if running s then evaluate s else s

/-- When the evaluation timer expires if it starts now (R4). -/
def evalFromNow (s : State) : Option Time := some (s.now + secs s.cfg.decision.tEVAL)

end Sys2Proof.Machine
end

