-- ==== Sys2Proof/Machine/Linking.lean ====
section
/-! DEFINITION. The Link Controller's states and events (04_riser_line.md): entering OFFLINE, JOINING, QUIET and CLASHED (R105 to
R110), numbering and handing on received frames (R93 to R98), and the outcomes of a transmission attempt (R97, R103). -/

namespace Sys2Proof.Machine

/-! ## Link states (R105 to R110) -/

/-- The link with every timer of its states stopped and the failure count 0 (R105, R110, R111). -/
def stopTimers (l : Link) : Link :=
  { l with joinTimer := none, beaconTimer := none, quietTimer := none, failCount := 0, failSlot := none }

/-- A link that leaves ONLINE disturbs both own processes (R73, R85). -/
def disturbFrom (was : LinkState) (s : State) : State := if was = .online then disturb s else s

/-- The link enters JOINING with the joining timer at 2×tBCN (R107). -/
def enterJoining (s : State) : State :=
  s.setLink { s.link with state := .joining, joinTimer := some (s.now + 2 * secs s.cfg.line.tBCN), failCount := 0, failSlot := none }

/-- The link enters OFFLINE: the BEACON slot empties, an attempt is aborted, the timers stop (R100, R104 to R106). -/
def enterOffline (s : State) : State :=
  let s1 := s.setLink { stopTimers (clearBeacon (abortAttempt s.link)) with state := .offline }
  settleRamps (linkLost (disturbFrom s.link.state s1))

/-- The link enters QUIET after the sixteenth failure of a frame of a kind (R85, R109). -/
def enterQuiet (k : FrameKind) (s : State) : State :=
  let s1 := s.setLink { abortAttempt s.link with
    state := .quiet, quietTimer := some (s.now + secs s.cfg.line.tQUIET), failCount := 0, failSlot := none }
  let s2 := disturbFrom s.link.state (post (.linkQuiet k) s1)
  settleRamps (reported (thenReport (quietProc .relief s2) (quietProc .defrost)))

/-- The link enters CLASHED on a frame of a kind and shaft (R86, R95, R110). -/
def enterClashed (k : FrameKind) (shaft : Nat) (s : State) : State :=
  let s1 := s.setLink { stopTimers (clearQueue s.link) with state := .clashed }
  let s2 := disturbFrom s.link.state (post (.addressClash (ownAddr s) k shaft) s1)
  settleRamps (linkLost (reported (thenReport (clashProc .relief s2) (clashProc .defrost))))

/-- The quiet period ends (R109). -/
def leaveQuiet (s : State) : State :=
  post .linkRestored (s.setLink { s.link with state := .online, quietTimer := none, failCount := 0, failSlot := none })

/-- The joining period ends: ONLINE, the first BEACON, the beacon timer, an evaluation (R5, R108). -/
def leaveJoining (s : State) : State :=
  requestEvaluation (queueBeacon (s.setLink { s.link with
    state := .online, joinTimer := none, beaconTimer := some (s.now + secs s.cfg.line.tBCN) }))

/-- A period of the beacon timer ends (R100). -/
def beaconPeriod (s : State) : State :=
  let s1 := queueBeacon s
  s1.setLink { s1.link with beaconTimer := some (s1.now + secs s1.cfg.line.tBCN) }

/-! ## Receiving (R93 to R98) -/

/-- A frame takes the next receive sequence number (R93). -/
def numberFrame (s : State) : State := s.setLink { s.link with sequence := s.link.sequence + 1 }

/-- Received frames are processed: closed, and the link not OFFLINE (R94). -/
def processing (s : State) : Bool := s.port.closed && s.link.state != .offline

/-- The Claim Unit takes what it takes from a frame of the own shaft, its reports following (R96). -/
def handToClaims (sender : Nat) (b : FrameBody) (s : State) : State :=
  let seq := s.link.sequence
  match b with
  | .claim m => settleRamps (reported (takeClaimFrame sender seq m s))
  | .beacon x =>
    settleRamps (reported (thenReport (takeBeaconClaims sender seq x s) fun s1 => quietly (takeFire sender x.fire s1)))
  | .alert a => takeFire sender a.fireOn s

/-- The Acceptance Filters judge a BEACON or ALERT, and the Peer Table takes one they accept (R114, R123, R124). -/
def handToFilters (sender shaft : Nat) (b : FrameBody) (s : State) : State :=
  match b with
  | .claim _ => s
  | .beacon x =>
    if filtersAccept s.cfg true shaft x.level then
      let r := peerBeacon sender shaft x s
      settleRamps (takePeerReports r.2 r.1)
    else s
  | .alert a => if filtersAccept s.cfg false shaft a.level then peerAlert sender a.fireOn s else s

/-- A frame that is no clash is handed on by its kind and shaft (R96), to the Claim Unit before the Acceptance Filters (R59). -/
def handOn (f : RiserFrame) (s : State) : State :=
  match readBody f with
  | none => s
  | some b =>
    if f.shaft = ownShaft s then handToFilters f.addr f.shaft b (handToClaims f.addr b s)
    else handToFilters f.addr f.shaft b s

/-- A processed riser frame: number, clash check, hand on (R94, R95). -/
def processFrame (f : RiserFrame) (s : State) : State :=
  let s1 := numberFrame s
  if f.addr = ownAddr s then
    if s.link.state = .clashed then s1 else enterClashed f.kind f.shaft s1
  else if s.port.restarting then s1
  else handOn f s1

/-- A frame is received (R90, R94). -/
def receiveFrame (f : LineFrame) (s : State) : State :=
  match readRiser f with
  | none => s
  | some r => if processing s then processFrame r s else s

/-- A receive error event (R98). -/
def receiveFault (s : State) : State := if processing s && !s.port.restarting then disturb s else s

/-! ## Transmitting (R97, R100, R101, R103) -/

/-- An attempt begins with the frame the queue offers (R103). -/
def beginTransmit (s : State) : State :=
  if attemptReady s then
    match nextOffer s with
    | some o => s.setLink { s.link with attempt := some { slot := o.slot, body := o.body } }
    | none => s
  else s

/-- A slot is emptied. -/
def emptySlot (sl : Slot) (l : Link) : Link :=
  match sl with
  | .beacon => { l with beaconSlot := none }
  | .alert => { l with alertSlot := none }
  | .relief => { l with claimSlot := { l.claimSlot with relief := none } }
  | .defrost => { l with claimSlot := { l.claimSlot with defrost := none } }

/-- The follow-up mark of the frame sent queues a new one (R100, R101). -/
def followUp (beaconMark alertMark : Bool) (sl : Slot) (s : State) : State :=
  match sl with
  | .beacon => if beaconMark then queueBeacon s else s
  | .alert => if alertMark then queueAlert s else s
  | .relief => s
  | .defrost => s

/-- The success of an own frame's transmission is taken (R97, R103). -/
def transmitted (s : State) : State :=
  match s.link.attempt with
  | none => s
  | some a =>
    let l := { emptySlot a.slot (abortAttempt s.link) with failCount := 0, failSlot := none, sequence := s.link.sequence + 1 }
    let s1 := followUp s.link.beaconMark s.link.alertMark a.slot (s.setLink l)
    settleRamps (reported (takeOwnFrame l.sequence a.body s1))

/-- The failure count after a failure of the frame in a slot (R103). -/
def failuresNow (l : Link) (sl : Slot) : Nat := if l.failSlot = some sl then l.failCount + 1 else 1

/-- How many failures in a row take the link to QUIET (R103, R109). -/
def failureLimit : Nat := 16

/-- The failure of an attempt is taken (R103, R109). -/
def transmitFailed (s : State) : State :=
  match s.link.attempt with
  | none => s
  | some a =>
    let n := failuresNow s.link a.slot
    if failureLimit ≤ n then enterQuiet (bodyKind a.body) s
    else s.setLink { abortAttempt s.link with failCount := n, failSlot := some a.slot }

end Sys2Proof.Machine
end

