-- ==== Sys2Proof/Machine/Starting.lean ====
section
/-! DEFINITION. Events that reach several blocks at once: the filtered FIRE input (R174), the close (R201 to R203), RESTART (R212,
R213) and power-on reset (R211). -/

namespace Sys2Proof.Machine

/-! ## FIRE (R174, R175) -/

/-- The three blocks that take an ASSERTED level as an assertion (R174). The Sequencer stops taking completions before the outputs
jump, as worked example 2.15 shows; the Sequencer and the Claim Unit take it only while no RESTART waits (log entry 5). -/
def assertFire (s : State) : State :=
  let s1 := if running s then forBoth fireProc (suspend s) else s
  settleRamps (outputsFireAsserted s1)

/-- A release of the filtered FIRE input: the fire demands go first, as worked example 2.15 shows, then waiting requests are taken, then
the Sequencer acts and requests an evaluation (R5, R53, R84, R174, R175; log entry 5). -/
def releaseFire (s : State) : State :=
  let s1 := settleRamps (outputsFireReleased s)
  if running s1 then
    requestEvaluation (settleRamps (resumeOrSettle (forBoth takeWaiting s1)))
  else s1

/-- The filtered FIRE level changes; a change before close is handed to no block (R101, R173, R174). -/
def fireChanges (level : Bool) (s : State) : State :=
  let s1 := s.setOut { s.out with fireFiltered := level, fireSince := none }
  if !s1.port.closed then s1
  else if level then assertFire (queueAlert s1)
  else releaseFire (queueAlert s1)

/-- A steadiness timer after its pin takes a level: it runs while the pin differs from the filtered level (R173, R190). A pin that
keeps its level leaves the timer as it is. -/
def steadiness (old level filtered : Bool) (since : Option Time) (now : Time) : Option Time :=
  if old = level then since else if level = filtered then none else some now

/-! ## Close (R201 to R203) -/

/-- The link's first state: JOINING, or OFFLINE where that is wished (R112). -/
def linkStart (s : State) : State := if s.link.offlineWish then s else enterJoining s

/-- Every block takes its starting state at the close (R28, R57, R69, R143, R203). -/
def startBlocks (s : State) : State :=
  let s1 := linkStart s
  let s2 := s1.setDecision { s1.decision with timer := evalFromNow s1 }
  let s3 := s2.setClaims (claimsStart s2.cfg)
  let s4 := s3.setBand { s3.band with source := s3.cfg.band.source }
  let s5 := s4.setPeers { s4.peers with lastFull := none }
  settleRamps (sequencerStart s5)

/-- An ASSERTED filtered level is taken as an assertion (R174). -/
def assertIfFire (s : State) : State := if s.out.fireFiltered then assertFire s else s

/-- The configuration closes: checks, closed flag, the blocks' starting state, then the CONFIG_ADJUSTED notices (R201 to R203). -/
def closeConfig (s : State) : State :=
  let r := closeChecks s.cfg
  let s1 := s.setPort { s.port with cfg := r.1, closed := true }
  replyOk (postAll (r.2.map .configAdjusted) (assertIfFire (startBlocks s1)))

/-! ## RESTART (R212, R213) -/

/-- A claim slot keeps only a RELEASE (R111). -/
def keepRelease (r : Resource) (l : Link) : Link :=
  if isRelease ((resGet l.claimSlot r).map (·.msg)) then l else clearClaimSlot r l

/-- The Link Controller at the acceptance of a RESTART (R100, R101, R111). -/
def linkRestart (l : Link) : Link :=
  { keepRelease .defrost (keepRelease .relief (clearAlert (clearBeacon l))) with beaconTimer := none }

/-- Every manual demand is removed without a notice (R177). -/
def dropManual (s : State) : State := changeDemands (fun o => { o with manual := ⟨none, none, none⟩ }) s

/-- The acceptance of a RESTART (R212). That the manual demands are removed before the SAFE set is posted is a DESIGN CHOICE, log entry
33. -/
def acceptRestart (s : State) : State :=
  let s1 := s.setPort { s.port with restarting := true }
  let s2 := forBoth restartProc (s1.setLink (linkRestart s1.link))
  let s3 := s2.setDecision { s2.decision with timer := none }
  let s4 := s3.setBand { s3.band with holdTimer := none }
  settleRamps (sequencerRestart (dropManual s4))

/-- The Local Port at the completion of a RESTART: stores emptied, RESTARTED the first notice (R213). -/
def portRestart (s : State) : State :=
  post .restarted (s.setPort (setNotices { s.port with meas := .empty } [] false))

/-- The link at the completion of a RESTART: the queue empty, the timers stopped, JOINING from any state (R111). -/
def linkRestarted (s : State) : State := enterJoining (s.setLink (stopTimers (clearQueue s.link)))

/-- Every block's step at the completion of a RESTART (R213). -/
def completeRestart (s : State) : State :=
  let s1 := portRestart s
  let s2 := s1.setDecision { s1.decision with setpoint := none, timer := evalFromNow s1 }
  let s3 := s2.setPeers { records := [], lastFull := none }
  let s4 := s3.setClaims (claimsStart s3.cfg)
  let s5 := s4.setBand { Band.reset with source := s4.cfg.band.source }
  let s6 := sequencerStart (limitsRestart s5)
  let s7 := linkRestarted s6
  assertIfFire (settleRamps (s7.setPort { s7.port with restarting := false }))

/-- A waiting RESTART completes when no RELEASE remains queued (R111, R212). -/
def restartDone (s : State) : Bool := s.port.closed && s.port.restarting && !releaseQueued s

/-- A waiting RESTART is completed where it can be. -/
def finishRestart (s : State) : State := if restartDone s then completeRestart s else s

/-! ## Power-on reset (R211) -/

/-- The station after a power-on reset. The pins stand as they are driven, so a pin that is high starts its steadiness timer (R173,
R190); waiting commands and the model's count of free values are no part of the station. -/
def powerOn (s : State) : State :=
  let since (pin : Bool) : Option Time := if pin then some 0 else none
  { State.reset with
    pending := s.pending
    firePin := s.firePin
    rotPin := s.rotPin
    out := { OutputUnit.reset with fireSince := since s.firePin }
    limits := { Limits.reset with rotSince := since s.rotPin }
    choices := s.choices }

end Sys2Proof.Machine
end

