-- ==== Sys2Proof/Machine/Reading.lean ====
section
/-! DEFINITION. What the reads of the Local Port return: an item's stored value (R200), the groups of STATUS READ (R206) and the
records of EVAL, PEER and CLAIM READ (R141, R207). -/

namespace Sys2Proof.Machine

/-! ## CFG READ (R200) -/

/-- The stored value of an item; none for an item the part does not have. -/
def readItem (c : Settings) : CfgItem → Option ItemValue
  | .numeric i => some (.number (getNum c i))
  | .listed i => some (.number (some (getListed c i)))
  | .firePosition ch => some (.position (chGet c.outputs.fire ch))
  | .bandShaft => some (.bandShaft c.band.bandShaft)
  | .source => some (.source c.band.source)
  | .basis => some (.basis c.decision.basis)
  | .follow => some (.follow c.follow.follow)
  | .action l => some (.action (actionOf c l))
  | .followList => some (.followList c.follow.followList)
  | .filter n => some (.filter (getFilter c n))
  | .attnMask => some (.attnMask c.attnMask)
  | .unknown => none

/-! ## STATUS READ (R205, R206) -/

/-- A process as STATUS READ shows it. -/
def procStatus (s : State) (r : Resource) : ProcStatus :=
  { state := (procOf s r).state, attempt := (procOf s r).attempt, capacity := resGet s.claims.capacity r }

/-- The seconds that a number of ms makes, the rounding of a part of a second left open (R171; log entry 10). -/
def secondsLeft (ms : Nat) : Nat := ms / 1000 + (if ms % 1000 != 0 && Config.remainderUp ms then 1 else 0)

/-- A channel as STATUS READ shows it (R161, R171). -/
def channelStatus (s : State) (ch : Channel) : ChannelStatus :=
  { present := chGet s.out.present ch
    winner := winner s.cfg s.out ch
    manual := (chGet s.out.manual ch).map fun m => (m.value, secondsLeft (m.expiry - s.now)) }

/-- A measurement channel as STATUS READ shows it; the age is in ms (R205). -/
def measStatus (s : State) (ch : MeasChannel) : MeasStatus :=
  let m := measOf s.port.meas ch
  { value := m.value, age := m.arrival.map (s.now - ·), fresh := fresh s ch, clamped := m.clamped }

/-- The reply of STATUS READ (R206). The time at which the band value was found and the hold expiry are shown in ms: DESIGN CHOICE, log
entry 29. -/
def statusReport (s : State) : StatusReport where
  closed := s.port.closed
  restarting := s.port.restarting
  uptime := uptime s
  noticeCount := s.port.notices.length
  overflow := s.port.overflow
  link := s.link.state
  offlineWish := s.link.offlineWish
  mode := s.seq.mode
  phase := s.seq.phase
  target := s.seq.transition.map (·.target)
  candidate := s.seq.candidate
  count := s.seq.count
  claims := ⟨procStatus s .relief, procStatus s .defrost⟩
  freeze := s.claims.freeze
  bandStatus := s.band.status
  bandValue := s.band.value.map fun v => { v with foundAt := shownMs v.foundAt }
  holdExpiry := s.band.holdTimer.map shownMs
  quality := ownQuality s
  disagree := s.band.disagree
  disagreeCounter := s.band.counter
  source := s.band.source
  outputs := ⟨channelStatus s .oda, channelStatus s .byp, channelStatus s .whl⟩
  wheelRun := s.out.wheelRun
  supplyLow := s.limits.supplyLow
  frostTrip := s.limits.frostTrip
  stall := s.limits.stall
  hold := s.limits.hold
  revCount := s.limits.revCount
  revPeriod := s.limits.revPeriod
  returnT := measStatus s .returnT
  returnW := measStatus s .returnW
  supplyT := measStatus s .supplyT
  probeT := measStatus s .probeT
  probeW := measStatus s .probeW
  exhaustT := measStatus s .exhaustT

/-! ## PEER READ and CLAIM READ (R141, R207) -/

/-- A peer record as PEER READ shows it, its times as uptime. -/
def shownPeer (p : PeerRecord) : PeerRecord := { p with lastBeacon := shownMs p.lastBeacon, lastHeard := shownMs p.lastHeard }

/-- A claim record as CLAIM READ shows it, its time as uptime. -/
def shownClaim (c : ClaimRecord) : ClaimRecord := { c with refreshed := shownMs c.refreshed }

/-- PEER READ (R141): an index at or above the count, or above 31, is refused and the count still carried. -/
def answerPeer (index : Nat) (s : State) : State :=
  let count := s.peers.records.length
  match if index ≤ 31 then s.peers.records[index]? else none with
  | some p => reply .ok (.peer (some (shownPeer p)) count) s
  | none => reply (.refused .badIndex) (.peer none count) s

/-- CLAIM READ (R207): as PEER READ. -/
def answerClaim (index : Nat) (s : State) : State :=
  let count := s.claims.list.length
  match if index ≤ 31 then s.claims.list[index]? else none with
  | some c => reply .ok (.claim (some (shownClaim c)) count) s
  | none => reply (.refused .badIndex) (.claim none count) s

/-! ## NOTICE POP (R209, R210) -/

/-- NOTICE POP. -/
def popNotice (s : State) : State :=
  match s.port.notices with
  | n :: rest => reply .ok (.notice n rest.length s.port.overflow) (s.setPort (setNotices s.port rest s.port.overflow))
  | [] => reply .ok (.empty s.port.overflow) (s.setPort (setNotices s.port [] false))

end Sys2Proof.Machine
end

