-- ==== Sys2Proof/Machine/PortCommands.lean ====
section
/-! DEFINITION. The meanings of the Local Port's commands (10_local_port_configuration_and_notices.md) and of RESET_N: one per row of
the table from POWER_ON_RESET to RESTART_COMPLETION. Every one answers a next state; a refused command changes only the reply. -/

namespace Sys2Proof.Machine

/-- What `exec` answers. -/
abbrev Answer := Host.Outcome State Fault Refusal

/-- POWER_ON_RESET (R211). -/
def execPowerOnReset (s : State) : Answer := .next (powerOn s)

/-- TRANSACTION_DISCARDED (R196): no effect, and no reply is left. -/
def execTransactionDiscarded (s : State) : Answer := .next (s.setPort { s.port with reply := none })

/-- BAD_COMMAND (R196). -/
def execBadCommand (s : State) : Answer := .next (refuse .badCommand s)

/-- CFG WRITE (R199, R200). -/
def execCfgWrite (w : CfgWrite) (s : State) : Answer :=
  .next <|
    if w = .unknown then refuse .unknownItem s
    else if s.port.closed then replyOk s
    else match storeItem s.cfg w with
      | some (c, clamped) => reply (okOrClamped clamped) .none (s.setPort { s.port with cfg := c })
      | none => refuse .badOperand s

/-- CFG READ (R200). -/
def execCfgRead (item : CfgItem) (s : State) : Answer :=
  .next <|
    match readItem s.cfg item with
    | some v => reply .ok (.item v) s
    | none => refuse .unknownItem s

/-- CFG CLOSE (R201 to R203). -/
def execCfgClose (s : State) : Answer :=
  let i := s.cfg.ident
  .next <|
    if s.port.closed then replyOk s
    else if i.addr.isNone || i.level.isNone || i.shaft.isNone then
      reply (.refused .missingIdentity) (.missing i.addr.isNone i.level.isNone i.shaft.isNone) s
    else closeConfig s

/-- MEAS WRITE (R204). -/
def execMeasWrite (ch : Option MeasChannel) (v : Option Int) (s : State) : Answer :=
  .next <| admitClosed (fun s =>
    match ch with
    | none => refuse .badOperand s
    | some c => writeMeas c v s) s

/-- The range of the setpoint (R7). -/
def setpointClamp (v : Int) : Int := clampInt 120 250 v

/-- SETPOINT WRITE (R7). -/
def execSetpointWrite (v : Int) (s : State) : Answer :=
  .next <| admitOperating (fun s =>
    reply (okOrClamped (setpointClamp v != v)) .none (s.setDecision { s.decision with setpoint := some (setpointClamp v) })) s

/-- SOURCE SELECT (R158, R159). -/
def execSourceSelect (src : Option OutdoorSource) (s : State) : Answer :=
  .next <| admitOperating (fun s =>
    match src with
    | none => refuse .badOperand s
    | some x => if sourceLive s x then replyOk (s.setBand { s.band with source := x }) else refuse .sourceNotLive s) s

/-- A position and a duration that MANUAL POST takes (R171). -/
def manualOk (position duration : Nat) : Bool := position ≤ 1000 && 1 ≤ duration && duration ≤ 3600

/-- MANUAL POST (R171). -/
def execManualPost (ch : Option Channel) (position duration : Nat) (s : State) : Answer :=
  .next <| admitOperating (fun s =>
    match ch with
    | none => refuse .badOperand s
    | some c =>
      if !manualOk position duration then refuse .badOperand s
      else if s.cfg.outputs.lvlManual = 0 then refuse .levelOff s
      else replyOk (settleRamps (setManual c (some { value := position, expiry := s.now + secs duration }) s))) s

/-- MANUAL CANCEL (R172). -/
def execManualCancel (ch : Option Channel) (s : State) : Answer :=
  .next <| admitOperating (fun s =>
    match ch with
    | none => refuse .badOperand s
    | some c =>
      if (chGet s.out.manual c).isNone then refuse .notPosted s else replyOk (settleRamps (setManual c none s))) s

/-- LIMIT CLEAR (R185). -/
def execLimitClear (s : State) : Answer :=
  .next <| admitOperating (fun s =>
    if s.limits.stall = .clear then refuse .notLatched s else replyOk (settleRamps (clearStall s))) s

/-- LINK ON (R105, R106). -/
def execLinkOn (s : State) : Answer :=
  .next <|
    if !s.port.closed then replyOk (s.setLink { s.link with offlineWish := false })
    else if s.port.restarting then refuse .restarting s
    else if s.link.state = .offline then replyOk (settleRamps (startTest (enterJoining s)))
    else replyOk s

/-- A process stands in the way of LINK OFF (R106). -/
def keepsLink (p : Process) : Bool := p.state != .idle && p.state != .starved

/-- LINK OFF (R106). -/
def execLinkOff (s : State) : Answer :=
  .next <|
    if !s.port.closed then replyOk (s.setLink { s.link with offlineWish := true })
    else if s.port.restarting then refuse .restarting s
    else if s.link.state = .offline then replyOk s
    else if s.link.state = .clashed then refuse .clashed s
    else if keepsLink (procOf s .relief) || keepsLink (procOf s .defrost) then refuse .claimsHeld s
    else replyOk (enterOffline s)

/-- STATUS READ (R206). -/
def execStatusRead (s : State) : Answer := .next (reply .ok (.status (statusReport s)) s)

/-- EVAL READ (R24, R207). -/
def execEvalRead (s : State) : Answer := .next <| admitClosed (fun s => reply .ok (.evaluation s.decision.last) s) s

/-- PEER READ (R141). -/
def execPeerRead (index : Nat) (s : State) : Answer := .next <| admitClosed (answerPeer index) s

/-- CLAIM READ (R207). -/
def execClaimRead (index : Nat) (s : State) : Answer := .next <| admitClosed (answerClaim index) s

/-- NOTICE POP (R209). -/
def execNoticePop (s : State) : Answer := .next (popNotice s)

/-- IDENT READ (R207). -/
def execIdentRead (s : State) : Answer := .next (reply .ok (.ident 0x4210 3) s)

/-- RESTART (R212); with no RELEASE queued it completes in the event of its acceptance. -/
def execRestart (s : State) : Answer := .next <| admitOperating (fun s => finishRestart (replyOk (acceptRestart s))) s

/-- RESTART_COMPLETION (R213). -/
def execRestartCompletion (s : State) : Answer := .next (finishRestart s)

end Sys2Proof.Machine
end

