-- ==== Sys2Proof/Machine/LineEvents.lean ====
section
/-! DEFINITION. The meanings of the riser line's events: frames received, the outcomes of transmission attempts, the link's timers, and
the Claim Unit's queueing when a slot or a hold-back clears (04_riser_line.md, R70, R71). A timer's expiry that is not due, and an
outcome with no attempt in progress, change nothing (log entry 7). -/

namespace Sys2Proof.Machine

/-- FRAME_RECEIVED (R90, R94 to R96). -/
def execFrameReceived (f : LineFrame) (s : State) : Answer := .next (receiveFrame f s)

/-- RECEIVE_ERROR (R98). -/
def execReceiveError (s : State) : Answer := .next (receiveFault s)

/-- TRANSMIT_ATTEMPT_START (R103). -/
def execTransmitAttemptStart (s : State) : Answer := .next (beginTransmit s)

/-- TRANSMIT_SUCCESS (R97). -/
def execTransmitSuccess (s : State) : Answer := .next (transmitted s)

/-- A waiting request can be taken: IDLE with request and nothing holds it back (R70, R83, R84). -/
def waitingDue (s : State) (r : Resource) : Bool :=
  running s && (procOf s r).state = .idle && (procOf s r).request && !heldBack s

/-- WAITING_REQUEST_TAKEN (R70). -/
def execWaitingRequestTaken (r : Resource) (s : State) : Answer := .next (if waitingDue s r then takeWaiting r s else s)

/-- A PENDING process's INTENT waited for its slot, which is free now (R71). -/
def intentDue (s : State) (r : Resource) : Bool :=
  running s && (procOf s r).state = .pending && (claimIn s r).isNone && s.link.state != .clashed

/-- DEFERRED_INTENT_QUEUE (R71). -/
def execDeferredIntentQueue (r : Resource) (s : State) : Answer := .next (if intentDue s r then queueIntent r s else s)

/-- ARBITRATION_LOST (R103): the attempt ends, the frame stays queued, the count is unchanged. -/
def execArbitrationLost (s : State) : Answer := .next (s.setLink (abortAttempt s.link))

/-- TRANSMIT_FAILURE (R103, R109). -/
def execTransmitFailure (s : State) : Answer := .next (transmitFailed s)

/-- The quiet timer has expired. -/
def quietDue (s : State) : Bool := s.link.state = .quiet && due s.link.quietTimer s.now

/-- QUIET_TIMER_EXPIRY (R109). -/
def execQuietTimerExpiry (s : State) : Answer := .next (if quietDue s then leaveQuiet s else s)

/-- The joining timer has expired. -/
def joiningDue (s : State) : Bool := s.link.state = .joining && due s.link.joinTimer s.now

/-- JOINING_TIMER_EXPIRY (R108). -/
def execJoiningTimerExpiry (s : State) : Answer := .next (if joiningDue s then leaveJoining s else s)

/-- The beacon timer has expired. -/
def beaconDue (s : State) : Bool := due s.link.beaconTimer s.now

/-- BEACON_TIMER_EXPIRY (R100). -/
def execBeaconTimerExpiry (s : State) : Answer := .next (if beaconDue s then beaconPeriod s else s)

end Sys2Proof.Machine
end

