-- ==== Sys2Proof/Machine/PinEvents.lean ====
section
/-! DEFINITION. The meanings of the FIRE and ROT pins' events: pin changes and the steadiness timers of their filters (R173, R190). The
filters run before close and after. An expiry that is not due changes nothing (log entry 7). -/

namespace Sys2Proof.Machine

/-- The FIRE steadiness timer has reached FIRE_FILTER, at the value standing now (R173). -/
def fireFilterDue (s : State) : Bool :=
  match s.out.fireSince with
  | none => false
  | some t => aged t s.cfg.outputs.fireFilter s.now

/-- The ROT steadiness timer has reached ROT_FILTER (R190). -/
def rotFilterDue (s : State) : Bool :=
  match s.limits.rotSince with
  | none => false
  | some t => aged t s.cfg.limits.rotFilter s.now

/-- FIRE_PIN_CHANGE (R173). -/
def execFirePinChange (level : Bool) (s : State) : Answer :=
  let since := steadiness s.firePin level s.out.fireFiltered s.out.fireSince s.now
  .next ((s.setFirePin level).setOut { s.out with fireSince := since })

/-- FIRE_FILTER_EXPIRY (R173, R174). -/
def execFireFilterExpiry (s : State) : Answer := .next (if fireFilterDue s then fireChanges s.firePin s else s)

/-- ROT_PIN_CHANGE (R190). -/
def execRotPinChange (level : Bool) (s : State) : Answer :=
  let since := steadiness s.rotPin level s.limits.rotFiltered s.limits.rotSince s.now
  .next ((s.setRotPin level).setLimits { s.limits with rotSince := since })

/-- The filtered ROT level takes the pin's level; a rise is a filtered rotation pulse (R190). -/
def rotChanges (s : State) : State :=
  let s1 := s.setLimits { s.limits with rotFiltered := s.rotPin, rotSince := none }
  if s.rotPin && !s.limits.rotFiltered then rotationPulse s1 else s1

/-- ROT_FILTER_EXPIRY (R190). -/
def execRotFilterExpiry (s : State) : Answer := .next (if rotFilterDue s then rotChanges s else s)

end Sys2Proof.Machine
end

