-- ==== Sys2Proof/Machine/TimerEvents.lean ====
section
/-! DEFINITION. The meanings of the timers and ages of the other blocks: evaluation, band hold, slewing, the Sequencer's timers, the
Claim Unit's timers and ages, the Peer Table's ages, measurements, manual demands and the stall timer. Each expiry has its effect when
it is due and changes nothing otherwise (R1; log entry 7). While a RESTART waits the blocks it stops take none (R212). -/

namespace Sys2Proof.Machine

/-! ## Evaluation and band (R4, R153) -/

/-- The evaluation timer has expired. -/
def evalDue (s : State) : Bool := running s && due s.decision.timer s.now

/-- EVAL_TIMER_EXPIRY (R4): the timer starts again and an evaluation is made. -/
def execEvalTimerExpiry (s : State) : Answer :=
  .next (if evalDue s then evaluate (s.setDecision { s.decision with timer := evalFromNow s }) else s)

/-- The hold timer has expired while HELD. -/
def bandHoldDue (s : State) : Bool := running s && s.band.status = .held && due s.band.holdTimer s.now

/-- BAND_HOLD_EXPIRY (R153). -/
def execBandHoldExpiry (s : State) : Answer := .next (if bandHoldDue s then loseBand s else s)

/-! ## Outputs (R166, R172) -/

/-- SLEW_STEP (R166), with the ramp completion it may bring about (R170). -/
def execSlewStep (ch : Channel) (s : State) : Answer := .next (if slewDue s ch then settleRamps (slewOnce ch s) else s)

/-- A channel's manual demand that has reached its expiry time (R172). -/
def expiredManual (s : State) (ch : Channel) : Option Manual :=
  match chGet s.out.manual ch with
  | some m => if m.expiry ≤ s.now then some m else none
  | none => none

/-- MANUAL_EXPIRED (R172). -/
def execManualExpired (ch : Channel) (s : State) : Answer :=
  .next <|
    match expiredManual s ch with
    | some m => settleRamps (setManual ch none (post (.manualExpired ch m.value) s))
    | none => s

/-! ## Sequencer (R31, R38, R46) -/

/-- The dwell has expired and the event has not been taken. -/
def dwellDue (s : State) : Bool := running s && due s.seq.dwellTimer s.now

/-- DWELL_EXPIRY (R31, R32). -/
def execDwellExpiry (s : State) : Answer :=
  .next (if dwellDue s then settleRamps (startTest (s.setSeq { s.seq with dwellTimer := none })) else s)

/-- The DEFROST cycle timer has expired. -/
def defrostDue (s : State) : Bool := running s && due s.seq.defrostTimer s.now

/-- DEFROST_CYCLE_EXPIRY (R46, R47). -/
def execDefrostCycleExpiry (s : State) : Answer :=
  .next (if defrostDue s then settleRamps (exitTest (s.setSeq { s.seq with defrostTimer := none, defrostExpired := true })) else s)

/-- The tFOLLOW timer has expired in FOLLOW_WAIT. -/
def followDue (s : State) : Bool := running s && s.seq.phase = some .followWait && due s.seq.followTimer s.now

/-- The follow wait is given up: FOLLOW_TIMEOUT with the lowest member still RAMPING, and RAMPING is entered (R38). -/
def followGivenUp (s : State) : State :=
  match s.seq.transition with
  | some t => settleRamps (enterRamping t.target (post (.followTimeout (rampingMembers s s.seq.waitSet).head?) s))
  | none => s

/-- FOLLOW_TIMEOUT (R38). -/
def execFollowTimeout (s : State) : Answer := .next (if followDue s then followGivenUp s else s)

/-! ## Claim Unit (R64, R74, R76, R77, R82) -/

/-- A process is in a state whose timer has expired. -/
def procDue (s : State) (r : Resource) (st : ProcState) : Bool :=
  running s && (procOf s r).state = st && due (procOf s r).timer s.now

/-- CLAIM_HOLDOFF_EXPIRY (R74). -/
def execClaimHoldoffExpiry (r : Resource) (s : State) : Answer :=
  .next (if procDue s r .holdoff then settleRamps (reported (decideAttempt r s)) else s)

/-- The backoff ends: the next attempt, or IDLE with request while attempts are held back (R76). -/
def endBackoff (r : Resource) (s : State) : State :=
  if heldBack s then toIdle r true s else beginAttempt r ((procOf s r).attempt + 1) s

/-- BACKOFF_EXPIRY (R76). -/
def execBackoffExpiry (r : Resource) (s : State) : Answer := .next (if procDue s r .backoff then endBackoff r s else s)

/-- LOCKOUT_EXPIRY (R77): IDLE, and the end of STARVED is reported. -/
def execLockoutExpiry (r : Resource) (s : State) : Answer :=
  .next (if procDue s r .starved then settleRamps (reported (toIdle r false s, [.starvedEnd r])) else s)

/-- How long a record stays without a refresh (R64). -/
def recordLife (c : Settings) (x : ClaimRecord) : Nat := if x.held then secs c.line.tEXPIRE else 4 * c.claims.tHOLD

/-- A record of a key has aged out (R64). -/
def recordAged (s : State) (addr : Nat) (r : Resource) : Bool :=
  match findRecord s addr r with
  | some x => running s && aged x.refreshed (recordLife s.cfg x) s.now
  | none => false

/-- CLAIM_RECORD_EXPIRY (R64). -/
def execClaimRecordExpiry (addr : Nat) (r : Resource) (s : State) : Answer :=
  .next (if recordAged s addr r then removeRecord addr r s else s)

/-- An address of the fire set has aged out (R82). -/
def fireAged (s : State) (addr : Nat) : Bool :=
  match s.claims.fireSet.find? fun e => e.1 = addr with
  | some e => running s && aged e.2 (secs s.cfg.line.tEXPIRE) s.now
  | none => false

/-- FIRE_SET_EXPIRY (R82, R83). -/
def execFireSetExpiry (addr : Nat) (s : State) : Answer := .next (if fireAged s addr then fireGone addr s else s)

/-! ## Peer Table (R133, R134) -/

/-- A FRESH record's last beacon time is tSTALE old (R133). -/
def staleDue (s : State) (addr : Nat) : Bool :=
  match findPeer s addr with
  | some p => running s && p.fresh && aged p.lastBeacon (secs s.cfg.line.tSTALE) s.now
  | none => false

/-- PEER_STALE (R133): reported to the Sequencer, which drops the member (R37). -/
def execPeerStale (addr : Nat) (s : State) : Answer :=
  .next (if staleDue s addr then settleRamps (takePeerReports [.gone addr] (peerGoesStale addr s)) else s)

/-- A record's last-heard time is tEXPIRE old (R134). -/
def lostDue (s : State) (addr : Nat) : Bool :=
  match findPeer s addr with
  | some p => running s && aged p.lastHeard (secs s.cfg.line.tEXPIRE) s.now
  | none => false

/-- PEER_LOST (R134). -/
def execPeerLost (addr : Nat) (s : State) : Answer :=
  .next (if lostDue s addr then settleRamps (takePeerReports [.gone addr] (losePeer addr .expired s)) else s)

/-! ## Measurements and STALL (R184, R205) -/

/-- MEASUREMENT_STALE (R205); the store runs its ages while a RESTART waits. -/
def execMeasurementStale (ch : MeasChannel) (s : State) : Answer := .next (if lapseDue s ch then lapse ch s else s)

/-- The stall timer has expired. -/
def stallDue (s : State) : Bool := due s.limits.stallTimer s.now

/-- STALL_TIMER_EXPIRY (R184). -/
def execStallTimerExpiry (s : State) : Answer := .next (if stallDue s then settleRamps (stallFound s) else s)

end Sys2Proof.Machine
end

