-- ==== Sys2Proof/Machine/Clock.lean ====
section
/-! DEFINITION. The 1 ms time base (R1, R3, R166; log entries 1 and 2): the events due at a moment, and what the station does when no
command waits: it queues a due event, or lets a millisecond pass when none is due. -/

namespace Sys2Proof.Machine

/-- An event where it is due. -/
def whenDue (b : Bool) (i : Instr) : List Instr := if b then [i] else []

/-- The events due now that belong to no record of a list. -/
def dueFixed (s : State) : List Instr :=
  whenDue (restartDone s) .restartCompletion
    ++ whenDue (evalDue s) .evalTimerExpiry
    ++ whenDue (bandHoldDue s) .bandHoldExpiry
    ++ whenDue (dwellDue s) .dwellExpiry
    ++ whenDue (defrostDue s) .defrostCycleExpiry
    ++ whenDue (followDue s) .followTimeout
    ++ whenDue (fireFilterDue s) .fireFilterExpiry
    ++ whenDue (attemptReady s) .transmitAttemptStart
    ++ whenDue (quietDue s) .quietTimerExpiry
    ++ whenDue (joiningDue s) .joiningTimerExpiry
    ++ whenDue (beaconDue s) .beaconTimerExpiry
    ++ whenDue (stallDue s) .stallTimerExpiry
    ++ whenDue (rotFilterDue s) .rotFilterExpiry

/-- The channels, resources and measurement channels. -/
def channels : List Channel := [.oda, .byp, .whl]
def resources : List Resource := [.relief, .defrost]
def measChannels : List MeasChannel := [.returnT, .returnW, .supplyT, .probeT, .probeW, .exhaustT]

/-- The events due now of each channel, resource and measurement channel. -/
def dueEach (s : State) : List Instr :=
  channels.flatMap (fun ch => whenDue (slewDue s ch) (.slewStep ch) ++ whenDue (expiredManual s ch).isSome (.manualExpired ch))
    ++ resources.flatMap (fun r =>
      whenDue (waitingDue s r) (.waitingRequestTaken r) ++ whenDue (intentDue s r) (.deferredIntentQueue r)
        ++ whenDue (procDue s r .holdoff) (.claimHoldoffExpiry r) ++ whenDue (procDue s r .backoff) (.backoffExpiry r)
        ++ whenDue (procDue s r .starved) (.lockoutExpiry r))
    ++ measChannels.flatMap (fun ch => whenDue (lapseDue s ch) (.measurementStale ch))

/-- The ageing events due now. -/
def dueAged (s : State) : List Instr :=
  s.claims.list.flatMap (fun c => whenDue (recordAged s c.addr c.res) (.claimRecordExpiry c.addr c.res))
    ++ s.claims.fireSet.flatMap (fun e => whenDue (fireAged s e.1) (.fireSetExpiry e.1))
    ++ s.peers.records.flatMap (fun p => whenDue (staleDue s p.addr) (.peerStale p.addr) ++ whenDue (lostDue s p.addr) (.peerLost p.addr))

/-- Every event due now. -/
def dueEvents (s : State) : List Instr := dueFixed s ++ dueEach s ++ dueAged s

/-- A millisecond passes: the time base counts and each channel's accumulator is raised where its output is to move (R166). -/
def tick (s : State) : State := accumulate .whl (accumulate .byp (accumulate .oda (s.setNow (s.now + 1))))

/-- What the station does when no command waits: a due event is put in the queue, a free value saying which of several (R3), or a
millisecond passes. -/
def idle (s : State) : State :=
  match dueEvents s with
  | [] => tick s
  | [i] => s.setPending [i]
  | i :: rest =>
    let l := i :: rest
    (s.setPending [l.getD (Config.dueChoice s.choices % l.length) i]).setChoices (s.choices + 1)

end Sys2Proof.Machine
end

