-- ==== Sys2Proof/Machine/Dispatch.lean ====
section
/-! DEFINITION. The dispatch: one arm per command and event of the table, each one direct call of its meaning. -/

namespace Sys2Proof.Machine

def exec (i : Instr) (s : State) : Host.Outcome State Fault Refusal :=
  match i with
  | .powerOnReset => Sys2Proof.Machine.execPowerOnReset s
  | .transactionDiscarded => Sys2Proof.Machine.execTransactionDiscarded s
  | .badCommand => Sys2Proof.Machine.execBadCommand s
  | .cfgWrite w => Sys2Proof.Machine.execCfgWrite w s
  | .cfgRead item => Sys2Proof.Machine.execCfgRead item s
  | .cfgClose => Sys2Proof.Machine.execCfgClose s
  | .measWrite ch v => Sys2Proof.Machine.execMeasWrite ch v s
  | .setpointWrite v => Sys2Proof.Machine.execSetpointWrite v s
  | .sourceSelect src => Sys2Proof.Machine.execSourceSelect src s
  | .manualPost ch position duration => Sys2Proof.Machine.execManualPost ch position duration s
  | .manualCancel ch => Sys2Proof.Machine.execManualCancel ch s
  | .limitClear => Sys2Proof.Machine.execLimitClear s
  | .linkOn => Sys2Proof.Machine.execLinkOn s
  | .linkOff => Sys2Proof.Machine.execLinkOff s
  | .statusRead => Sys2Proof.Machine.execStatusRead s
  | .evalRead => Sys2Proof.Machine.execEvalRead s
  | .peerRead index => Sys2Proof.Machine.execPeerRead index s
  | .claimRead index => Sys2Proof.Machine.execClaimRead index s
  | .noticePop => Sys2Proof.Machine.execNoticePop s
  | .identRead => Sys2Proof.Machine.execIdentRead s
  | .restart => Sys2Proof.Machine.execRestart s
  | .restartCompletion => Sys2Proof.Machine.execRestartCompletion s
  | .evalTimerExpiry => Sys2Proof.Machine.execEvalTimerExpiry s
  | .bandHoldExpiry => Sys2Proof.Machine.execBandHoldExpiry s
  | .slewStep ch => Sys2Proof.Machine.execSlewStep ch s
  | .dwellExpiry => Sys2Proof.Machine.execDwellExpiry s
  | .defrostCycleExpiry => Sys2Proof.Machine.execDefrostCycleExpiry s
  | .followTimeout => Sys2Proof.Machine.execFollowTimeout s
  | .firePinChange level => Sys2Proof.Machine.execFirePinChange level s
  | .fireFilterExpiry => Sys2Proof.Machine.execFireFilterExpiry s
  | .frameReceived f => Sys2Proof.Machine.execFrameReceived f s
  | .receiveError => Sys2Proof.Machine.execReceiveError s
  | .transmitAttemptStart => Sys2Proof.Machine.execTransmitAttemptStart s
  | .transmitSuccess => Sys2Proof.Machine.execTransmitSuccess s
  | .waitingRequestTaken r => Sys2Proof.Machine.execWaitingRequestTaken r s
  | .deferredIntentQueue r => Sys2Proof.Machine.execDeferredIntentQueue r s
  | .arbitrationLost => Sys2Proof.Machine.execArbitrationLost s
  | .transmitFailure => Sys2Proof.Machine.execTransmitFailure s
  | .quietTimerExpiry => Sys2Proof.Machine.execQuietTimerExpiry s
  | .joiningTimerExpiry => Sys2Proof.Machine.execJoiningTimerExpiry s
  | .beaconTimerExpiry => Sys2Proof.Machine.execBeaconTimerExpiry s
  | .claimHoldoffExpiry r => Sys2Proof.Machine.execClaimHoldoffExpiry r s
  | .backoffExpiry r => Sys2Proof.Machine.execBackoffExpiry r s
  | .lockoutExpiry r => Sys2Proof.Machine.execLockoutExpiry r s
  | .claimRecordExpiry addr r => Sys2Proof.Machine.execClaimRecordExpiry addr r s
  | .fireSetExpiry addr => Sys2Proof.Machine.execFireSetExpiry addr s
  | .peerStale addr => Sys2Proof.Machine.execPeerStale addr s
  | .peerLost addr => Sys2Proof.Machine.execPeerLost addr s
  | .measurementStale ch => Sys2Proof.Machine.execMeasurementStale ch s
  | .manualExpired ch => Sys2Proof.Machine.execManualExpired ch s
  | .stallTimerExpiry => Sys2Proof.Machine.execStallTimerExpiry s
  | .rotPinChange level => Sys2Proof.Machine.execRotPinChange level s
  | .rotFilterExpiry => Sys2Proof.Machine.execRotFilterExpiry s

end Sys2Proof.Machine
end

