-- ==== Sys2Proof/Safety.lean ====
section
/-! DEFINITION. What a sound state of the station is: the bounds and relations that the spec says the part holds at all times
(00_scope.md, "Invariants"), each as a predicate of a state. -/

namespace Sys2Proof.Machine

/-! ## Before close (R28, R69, R93, R105, R128, R143, R162, R179, R204, R208) -/

/-- Before close nothing stands away from its power-on value but the configuration record, the OFFLINE wish, the pins with their two
filters, the rotation monitor and the last reply. -/
def BeforeClose (s : State) : Prop :=
  s.port.closed = false →
    s.port.restarting = false ∧ s.port.meas = .empty ∧ s.port.notices = [] ∧ s.port.overflow = false ∧ s.port.attn = false
      ∧ s.link = { Link.reset with offlineWish := s.link.offlineWish }
      ∧ s.peers = State.reset.peers ∧ s.band = .reset ∧ s.decision = .reset ∧ s.claims = .reset ∧ s.seq = .reset
      ∧ s.out = { OutputUnit.reset with fireFiltered := s.out.fireFiltered, fireSince := s.out.fireSince }
      ∧ s.limits = { Limits.reset with
          rotFiltered := s.limits.rotFiltered, rotSince := s.limits.rotSince, ring := s.limits.ring
          revCount := s.limits.revCount, revPeriod := s.limits.revPeriod, lastWrap := s.limits.lastWrap }

/-! ## Local Port (R201, R208, R210, R212) -/

/-- The notice queue holds at most 16 notices, ATTN follows it, and a RESTART waits only after close. -/
def NoticesSound (p : Port) : Prop :=
  p.notices.length ≤ noticeCapacity ∧ p.attn = attnOf p.cfg.attnMask p.notices ∧ (p.restarting = true → p.closed = true)

/-! ## Peer Table (R127, R141) -/

/-- A record has counted 1 to 255 beacons (R127). -/
abbrev CountSound (p : PeerRecord) : Prop := 1 ≤ p.beaconsHeard ∧ p.beaconsHeard ≤ 255

/-- At most 32 peer records, in strictly ascending order of address, each with a count of 1 to 255 beacons heard. -/
def PeersSound (t : PeerTable) : Prop :=
  t.records.length ≤ peerCapacity ∧ t.records.Pairwise (fun a b => a.addr < b.addr)
    ∧ ∀ p ∈ t.records, CountSound p

/-! ## Claim Unit (R60, R65, R82, R83) -/

/-- At most 32 claim records, one per claimant and resource in the order of CLAIM READ, the list-full mark set only while the list is
full, and the shaft freeze set exactly while the fire set is not empty. -/
def ClaimsSound (c : ClaimUnit) : Prop :=
  c.list.length ≤ claimCapacity
    ∧ c.list.Pairwise (fun a b => recordBefore a b = true)
    ∧ (c.fullMark = true → claimCapacity ≤ c.list.length)
    ∧ c.freeze = !c.fireSet.isEmpty

/-! ## Output Unit (R161, R163) -/

/-- The wheel-run output is on exactly while the WHL output is above 0. -/
def WheelSound (o : OutputUnit) : Prop := o.wheelRun = decide (0 < o.present.whl)

/-- Every channel's value is at most 1000. -/
def SetInRange (d : DemandSet) : Prop := d.oda ≤ 1000 ∧ d.byp ≤ 1000 ∧ d.whl ≤ 1000

/-- An optional value is at most 1000 where it is present. -/
def AtMost1000 (v : Option Nat) : Prop := ∀ x, v = some x → x ≤ 1000

/-- The configuration items that demands are made of lie in 0..1000. -/
def ConfigInRange (c : Settings) : Prop :=
  c.outputs.oaMin ≤ 1000 ∧ c.decision.whlSafe ≤ 1000 ∧ c.decision.wheelMin ≤ 1000 ∧ c.decision.frostCap ≤ 1000
    ∧ ∀ ch, AtMost1000 (chGet c.outputs.fire ch)

/-- Every present output, every demand held, and everything a demand is made from lies in 0..1000. -/
def OutputsInRange (s : State) : Prop :=
  ConfigInRange s.cfg
    ∧ AtMost1000 s.decision.last.speed ∧ AtMost1000 s.decision.last.mixing
    ∧ (∀ d, s.seq.demands = some d → SetInRange d)
    ∧ (∀ d, s.out.seqSet = some d → SetInRange d)
    ∧ SetInRange s.out.present
    ∧ ∀ ch src, AtMost1000 (demandOf s.out ch src)

/-- A channel that FIRE or a guard of manner IMMEDIATE wins stands at that demand (R167). -/
def JumpsMade (s : State) : Prop := ∀ ch v, aim s.cfg s.out ch = some (v, true) → chGet s.out.present ch = v

/-! ## Modes and claims (R40) -/

/-- The process of the resource a mode needs is HELD or YIELDING, where the mode needs one. -/
def ModeHeld (s : State) (m : Mode) : Prop := ∀ r, claimFor m = some r → holds (procOf s r) = true

/-- A phase past CLAIMING in which outputs wait or move. -/
def pastClaiming (p : Phase) : Bool := p = .followWait || p = .ramping

/-- Outside a RESTART the own process of what the present mode needs holds its claim, and so does that of a transition past CLAIMING,
a suspended one included. -/
def ModeBacked (s : State) : Prop :=
  s.port.restarting = false →
    (∀ m, s.seq.mode = some m → ModeHeld s m)
      ∧ (∀ t p, s.seq.transition = some t → s.seq.phase = some p → pastClaiming p = true → ModeHeld s t.target)
      ∧ (∀ x, s.seq.record = some x → s.seq.phase = some .suspended → x.interrupted ≠ .claiming → ModeHeld s x.target)

/-! ## All of them -/

/-- A sound state: quiet before close, and within the bounds of the notice queue, the Peer Table, the claim list, the wheel-run output
and the channels that jump. -/
structure Sound (s : State) : Prop where
  before : BeforeClose s
  notices : NoticesSound s.port
  peers : PeersSound s.peers
  claims : ClaimsSound s.claims
  wheel : WheelSound s.out
  jumps : JumpsMade s

/-! ## Ramps (R170) -/

/-- A demand set has somewhere to go: on some channel that SEQUENCER wins the present output stands away from it. -/
def RampsAway (s : State) (d : DemandSet) : Prop :=
  ∃ ch, winner s.cfg s.out ch = some .sequencer ∧ chGet s.out.present ch ≠ chGet d ch

/-- `t` is ramping toward a target with the target's demand set posted as posting `n`, its Sequencer otherwise standing as `q` (R33,
R39, R168). -/
def RampingTo (target : Mode) (forced : Bool) (q : Sequencer) (n : Nat) (s t : State) : Prop :=
  let set := rampSet s.cfg s.decision.last target
  t.seq = { q with
      phase := some .ramping, transition := some ⟨target, forced⟩, waitSet := [], followTimer := none, demands := some set
      rampPosting := some n }
    ∧ t.out.seqSet = some set ∧ t.out.posting = n

/-- The target of a forced leave of a mode, `d` being the desired mode of the latest record: RECOVER out of DEFROST, and out of FREE the
desired mode, or NEUTRAL if that is FREE (R49). -/
def leaveTarget (mode d : Mode) : Mode := if mode = .defrost then .recover else if d = .free then .neutral else d

/-- `t` has started a forced leave: ramping toward the forced target with the forced flag, the candidate cleared and no forced leave
pending (R49, R50). -/
def ForcedOut (target : Mode) (s t : State) : Prop :=
  RampingTo target true { s.seq with candidate := none, count := 0, forcedPending := none } (nextPosting s.out.posting) s t

/-- The Sequencer with its transition ended and the phase SETTLED (R35, R43). -/
def settledSeq (q : Sequencer) : Sequencer :=
  { q with phase := some .settled, transition := none, rampPosting := none, waitSet := [], followTimer := none }

/-- The end of a FOLLOW_WAIT has been tested with a wait set: while one of its members' records in the Peer Table of `t` reports RAMPING
the wait goes on with that set, and otherwise the ramp toward the target starts (R37). -/
def WaitTested (set : List Nat) (s t : State) : Prop :=
  let held : Prop := ∃ p ∈ t.peers.records, p.addr ∈ set ∧ p.phase = .ramping
  ∀ x, s.seq.transition = some x →
    (held → t.seq = { s.seq with waitSet := set } ∧ t.out = s.out)
      ∧ (¬held → RampsAway s (rampSet s.cfg s.decision.last x.target) →
          RampingTo x.target x.forced s.seq (nextPosting s.out.posting) s t)

/-- No desire is confirmed for a mode other than the given one. -/
def OnlyDesires (m : Mode) (s : State) : Prop := ∀ d, confirmed s = some d → d = m

/-- `t` has started a transition toward a mode from `s`, without force: CLAIMING, with a request, where the mode needs a claim that is not
HELD; else FOLLOW_WAIT, where a member of the wait set chosen now reports RAMPING and the mode is not SAFE; else RAMPING (R31, R33, R34,
R36). A ramp that has somewhere to go does not complete at once. A transition toward SAFE clears a pending forced leave (R50). -/
def Starts (m : Mode) (s t : State) : Prop :=
  let started := { s.seq with
    transition := some ⟨m, false⟩, forcedPending := if m = .safe then none else s.seq.forcedPending }
  let backed : Prop := ∀ r, claimFor m = some r → (procOf s r).state = .held
  let wait := chooseWaitSet s
  (∀ r, claimFor m = some r → (procOf s r).state ≠ .held →
      t.seq = { started with phase := some .claiming } ∧ t.out = s.out ∧ t.port = s.port
        ∧ ((procOf s r).state = .idle → (procOf s r).request = false → heldBack s = false →
            (procOf t r).state = .pending ∧ (procOf t r).attempt = 1
              ∧ (claimIn s r = none → claimIn t r = some (.intent r (ownAmount s.cfg r) s.cfg.ident.cls 1 (effective s r))))
        ∧ ((procOf s r).state = .idle → heldBack s = true →
            procOf t r = { procOf s r with request := true } ∧ t.link.claimSlot = s.link.claimSlot))
    ∧ (backed → m ≠ .safe → rampingMembers s wait ≠ [] →
      t.seq = { started with
          phase := some .followWait, waitSet := wait, followTimer := some (s.now + s.cfg.follow.tFOLLOW * 1000) }
        ∧ t.out = s.out ∧ t.claims = s.claims ∧ t.port = s.port)
    ∧ (backed → m = .safe ∨ rampingMembers s wait = [] → RampsAway s (rampSet s.cfg s.decision.last m) →
      RampingTo m false started (nextPosting s.out.posting) s t ∧ t.out.completionPending = true
        ∧ t.claims = s.claims ∧ t.port = s.port)

/-- The start test has been made in `s`: a confirmed desire for a mode that is not the present one, while SETTLED and with no block,
starts its transition, and nothing happens otherwise (R31). -/
def StartTested (s t : State) : Prop :=
  let passes (m : Mode) : Prop :=
    s.seq.phase = some .settled ∧ confirmed s = some m ∧ s.seq.mode ≠ some m ∧ blocked s m = false
  ((∀ m, ¬passes m) → t = s) ∧ ∀ m, passes m → Starts m s t

/-- FREE and DEFROST, the modes that need a claim on the line. -/
def usesClaim (m : Mode) : Prop := m = .free ∨ m = .defrost

/-- What the link's entry into CLASHED or OFFLINE does to the Mode Sequencer (R49, R50): out of an affected mode the forced ramp starts, at
once or in place of a transition that still waits; a transition that waits toward an affected mode is cancelled; while RAMPING into one, or
SUSPENDED, the forced leave becomes pending; while RAMPING out of one, or where no mode is affected, or a forced leave is pending already,
nothing changes. -/
def LinkLossForces (s t : State) : Prop :=
  let waiting : Prop := s.seq.phase = some .claiming ∨ s.seq.phase = some .followWait
  let modeUses : Prop := ∃ m, s.seq.mode = some m ∧ usesClaim m
  let pending (m : Mode) : Prop := t.seq = { s.seq with candidate := none, count := 0, forcedPending := some m }
  let stands : Prop := t.seq = s.seq ∧ t.out = s.out
  (s.seq.forcedPending ≠ none → stands) ∧ (s.seq.forcedPending = none →
    (∀ m d, usesClaim m → s.seq.mode = some m → s.seq.phase = some .settled → s.decision.last.desired = some d → d ≠ .defrost →
        let target := leaveTarget m d
        RampsAway s (rampSet s.cfg s.decision.last target) → ForcedOut target s t)
      ∧ (∀ m d x, usesClaim m → s.seq.mode = some m → waiting → s.seq.transition = some x →
        s.decision.last.desired = some d → d ≠ .defrost →
        let target := leaveTarget m d
        RampsAway s (rampSet s.cfg s.decision.last target) → ForcedOut target s t)
      ∧ (∀ x, usesClaim x.target → waiting → s.seq.transition = some x → ¬modeUses →
        t.seq = settledSeq { s.seq with candidate := none, count := 0 } ∧ t.out = s.out)
      ∧ (∀ x, usesClaim x.target → s.seq.phase = some .ramping → s.seq.transition = some x → pending x.target)
      ∧ (∀ x, ¬usesClaim x.target → s.seq.phase = some .ramping → s.seq.transition = some x → stands)
      ∧ (∀ m, usesClaim m → s.seq.mode = some m → s.seq.phase = some .suspended → pending m)
      ∧ (∀ x, usesClaim x.target → ¬modeUses → s.seq.phase = some .suspended → s.seq.transition = none → s.seq.record = some x →
        pending x.target)
      ∧ (¬modeUses → (∀ x, s.seq.transition = some x → ¬usesClaim x.target) → (∀ x, s.seq.record = some x → ¬usesClaim x.target) →
        stands))

/-- No exit from DEFROST waits to be made (R46, R47). -/
def NoExitWaits (s : State) : Prop := s.seq.mode = some .defrost → s.seq.defrostExpired = false

/-! ## BEACONs (R67) -/

/-- The units of a resource that a BEACON reports held, 0 for none (R67, R68). -/
def unitsHeld (b : BeaconBody) : Resource → Nat
  | .relief => b.reliefUnits
  | .defrost => if b.defrostHeld = true then 1 else 0

/-! ## The shaft freeze (R73, R83) -/

/-- What the freeze does to an own claim process when it is set: an attempt that is PENDING or in HOLDOFF ends in IDLE with its request
waiting, its INTENT removed or its WITHDRAW queued; every other process runs on, disturbed, and keeps its frame (R73, R83). -/
def FreezeTaken (r : Resource) (s t : State) : Prop :=
  let p := procOf s r
  let q := procOf t r
  (p.state = .pending ∨ p.state = .holdoff → q.state = .idle ∧ q.request = true ∧ q.attempt = 0 ∧ q.timer = none)
    ∧ (p.state = .pending → claimIn t r = if isIntent (claimIn s r) = true then none else claimIn s r)
    ∧ (p.state = .holdoff → s.link.state ≠ .clashed → claimIn t r = some (.withdraw r .frozen))
    ∧ (p.state ≠ .pending → p.state ≠ .holdoff → q = { p with disturbed := true } ∧ claimIn t r = claimIn s r)

/-- What the end of the freeze does to an own claim process: a request that waits in IDLE begins its first attempt, unless the own FIRE
input is asserted, and every other process runs on (R83). -/
def FreezeEnded (r : Resource) (s t : State) : Prop :=
  let p := procOf s r
  let q := procOf t r
  let taken : Prop := p.state = .idle ∧ p.request = true ∧ s.out.fireFiltered = false
  (taken → q.state = .pending ∧ q.attempt = 1 ∧ q.request = false
      ∧ (s.link.state ≠ .clashed → claimIn s r = none → isIntent (claimIn t r) = true))
    ∧ (¬taken → q = p ∧ claimIn t r = claimIn s r)

/-! ## Admission (R197) -/

/-- The commands that R197 refuses NOT_CLOSED before close. -/
def needsClose : Instr → Bool
  | .measWrite _ _ | .setpointWrite _ | .sourceSelect _ | .manualPost _ _ _ | .manualCancel _ | .limitClear => true
  | .evalRead | .peerRead _ | .claimRead _ | .restart => true
  | _ => false

/-- The commands that R197 refuses RESTARTING while a RESTART waits. -/
def refusedWaiting : Instr → Bool
  | .setpointWrite _ | .sourceSelect _ | .manualPost _ _ _ | .manualCancel _ | .limitClear | .linkOn | .linkOff | .restart => true
  | _ => false

/-- The item a CFG WRITE names. -/
def itemOf : CfgWrite → CfgItem
  | .numeric i _ => .numeric i
  | .listed i _ => .listed i
  | .firePosition ch _ => .firePosition ch
  | .bandShaft _ => .bandShaft
  | .source _ => .source
  | .basis _ => .basis
  | .follow _ => .follow
  | .action l _ => .action l
  | .followList _ => .followList
  | .filter n _ => .filter n
  | .attnMask _ => .attnMask
  | .unknown => .unknown

/-! ## Notices and limits -/

/-- The queue has room for a notice (R208). -/
def HasRoom (s : State) : Prop := s.port.notices.length < noticeCapacity

/-- A notice of a kind, stamped now (R208, R209). -/
def noticeNow (b : NoticeBody) (s : State) : Notice := { body := b, cls := noticeClass b, stamp := stampNow s }

/-- The queue of `t` is that of `s` with one notice more at its end, of the kind's class and stamped now (R208). -/
def Posted (b : NoticeBody) (s t : State) : Prop :=
  t.port.notices = s.port.notices ++ [noticeNow b s]

/-- A limit's state after a value is judged against its trip level (R181, R183). -/
def judged (old : LimitState) (trip hyst v : Int) (src : TripSource) : LimitState :=
  match old with
  | .clear => if v < trip then .active v src else .clear
  | .active v0 src0 => if trip + hyst ≤ v then .clear else .active v0 src0

/-- `t` is `s` with the actuators moved: nothing but the Output Unit, and what the wheel-run output starts and stops in the Limit
Supervisor (R184, R192), stands differently. -/
def OnlyOutputs (s t : State) : Prop :=
  t = (s.setOut t.out).setLimits { s.limits with stallTimer := t.limits.stallTimer, lastWrap := t.limits.lastWrap }

/-! ## Safe runs -/

/-- A step is safe when it goes on: it neither faults nor refuses. -/
def StepSafe (s : State) : Prop := ∃ t, step s = .next t

end Sys2Proof.Machine
end

