-- ==== Sys2Proof/Certificates/Slice0/Obligations.lean ====
section
/-! DEFINITION. The obligations: what the station is claimed to do, stated from the spec's rules. Each docstring names the rules or
sections a statement formalises, and the log entry where it states a choice of the model. Where a premise
says `completionDue s = false`, no ramp completion is outstanding: `CompletionsAreReportedWithinTheEvent` states that this holds at
every moment of a station that starts so. -/

open Sys2Proof Sys2Proof.Machine

/-! ## The machine as a whole -/

/-- A step takes the command at the front of the queue and is exactly that command's meaning on the rest. -/
def Obligations.StepTakesFrontCommand : Prop :=
  ∀ (c : Instr) (rest : List Instr) (s : State), step (s.setPending (c :: rest)) = exec c (s.setPending rest)

/-- With no command waiting, a step queues an event that is due, or lets one millisecond pass when none is: the time base counts and
each channel that has somewhere to slew raises its accumulator (R1, R166). That this is what an empty queue does is the model's choice
(log entries 1 and 2). -/
def Obligations.EmptyQueueTakesDueEventOrMillisecond : Prop :=
  ∀ s : State, s.pending = [] →
    (dueEvents s ≠ [] → ∃ c ∈ dueEvents s, ∃ n, step s = .next ((s.setPending [c]).setChoices n))
      ∧ (dueEvents s = [] → ∃ t, step s = .next t ∧ t = (s.setNow (s.now + 1)).setOut { s.out with acc := t.out.acc }
          ∧ ∀ ch, chGet t.out.acc ch
              = chGet s.out.acc ch + (if heading s.cfg s.out ch = 0 then 0 else chGet s.cfg.outputs.slew ch))

/-- Every command and event is answered with a next state, and none of them touches the queue of those that wait behind it. -/
def Obligations.EveryCommandGoesOnAndKeepsTheQueue : Prop :=
  ∀ (c : Instr) (s : State), ∃ t, exec c s = .next t ∧ t.pending = s.pending

/-- No command but a power-on reset moves the time base, drives a pin it does not name, or opens or changes a closed configuration. The
receive sequence counter rises by 1 at each processed riser frame and each own frame transmitted, and stands at everything else but a
power-on reset, which clears it. -/
def Obligations.TimePinsSequenceAndClosedConfigurationStand : Prop :=
  ∀ (c : Instr) (s t : State), exec c s = .next t →
    (c ≠ .powerOnReset →
      t.now = s.now
        ∧ t.firePin = (match c with | .firePinChange level => level | _ => s.firePin)
        ∧ t.rotPin = (match c with | .rotPinChange level => level | _ => s.rotPin)
        ∧ (s.port.closed = true → t.port.closed = true ∧ t.cfg = s.cfg))
      ∧ t.link.sequence =
        (match c with
         | .powerOnReset => 0
         | .frameReceived f =>
           if (readRiser f).isSome = true ∧ s.port.closed = true ∧ s.link.state ≠ .offline then s.link.sequence + 1
           else s.link.sequence
         | .transmitSuccess => if s.link.attempt.isSome = true then s.link.sequence + 1 else s.link.sequence
         | _ => s.link.sequence)

/-- A power-on reset gives the station its power-on state, whatever it was: the configuration open and at its defaults, the link
OFFLINE, no mode, outputs 0, time 0; the pins stay as driven and one that is high is filtered from then on (R162, R173, R211; log
entry 4). No reply has been given (log entry 15); that the follow-up marks, the posting numbers and the slot of the failure count
stand empty with the rest is deduced (log entry 21). That state is sound. -/
def Obligations.PowerOnResetGivesTheSoundResetState : Prop :=
  (∀ s : State, ∃ t, exec .powerOnReset s = .next t
      ∧ t.port = { cfg := defaults, closed := false, restarting := false, meas := .empty, notices := [], overflow := false
                   attn := false, reply := none }
      ∧ t.now = 0 ∧ t.link = Link.reset ∧ t.peers.records = [] ∧ t.peers.lastFull = none ∧ t.band = Band.reset
      ∧ t.decision = Decision.reset ∧ t.claims = ClaimUnit.reset ∧ t.seq = Sequencer.reset
      ∧ t.out = { OutputUnit.reset with fireSince := if s.firePin then some 0 else none }
      ∧ t.limits = { Limits.reset with rotSince := if s.rotPin then some 0 else none }
      ∧ t.pending = s.pending ∧ t.firePin = s.firePin ∧ t.rotPin = s.rotPin)
    ∧ State.reset.out.present = ⟨0, 0, 0⟩ ∧ State.reset.out.wheelRun = false ∧ State.reset.link.state = .offline
    ∧ State.reset.seq.mode = none ∧ State.reset.port.closed = false
    ∧ Sound State.reset ∧ OutputsInRange State.reset ∧ ModeBacked State.reset ∧ completionDue State.reset = false

/-! ## Invariants that every step keeps -/

/-- Before close nothing but the configuration, the OFFLINE wish, the pins with their filters, the rotation monitor and the reply
stands away from its power-on value. -/
def Obligations.StationIsQuietBeforeClose : Prop :=
  ∀ s t : State, BeforeClose s → step s = .next t → BeforeClose t

/-- The notice queue holds at most 16 notices, ATTN follows it, and a RESTART waits only after close. -/
def Obligations.NoticeQueueStaysSound : Prop :=
  ∀ s t : State, BeforeClose s → NoticesSound s.port → step s = .next t → NoticesSound t.port

/-- The Peer Table holds at most 32 records, one per address, in ascending order of address; each
record's count of beacons heard lies in 1 to 255. -/
def Obligations.PeerTableStaysSound : Prop :=
  ∀ s t : State, PeersSound s.peers → step s = .next t → PeersSound t.peers

/-- The claim list holds at most 32 records, one per claimant and resource, in the order CLAIM READ gives them; the list-full mark is
set only while it is full; the shaft freeze is set exactly while the fire set is not empty. -/
def Obligations.ClaimListAndFreezeStaySound : Prop :=
  ∀ s t : State, ClaimsSound s.claims → step s = .next t → ClaimsSound t.claims

/-- The wheel-run output is on exactly while the WHL output is above 0. -/
def Obligations.WheelRunFollowsWheelOutput : Prop :=
  ∀ s t : State, WheelSound s.out → step s = .next t → WheelSound t.out

/-- A channel that FIRE or a guard of manner IMMEDIATE wins stands at that demand. -/
def Obligations.JumpedChannelsStandAtTheirDemand : Prop :=
  ∀ s t : State, BeforeClose s → JumpsMade s → step s = .next t → JumpsMade t

/-- Every output and every demand lies in 0 to 1000 per-mille. -/
def Obligations.OutputsAndDemandsStayInRange : Prop :=
  ∀ s t : State, OutputsInRange s → step s = .next t → OutputsInRange t

/-- While the mode is FREE the own RELIEF process is HELD or YIELDING, and while it is DEFROST the own DEFROST process is; so too for
the target of a transition past CLAIMING. -/
def Obligations.ModesAreBackedByHeldClaims : Prop :=
  ∀ s t : State, ModeBacked s → step s = .next t → ModeBacked t

/-- A ramp completion is reported within the event that brings it about: none is outstanding between two steps. Log entry 9 says
how the model carries a completion to its end. -/
def Obligations.CompletionsAreReportedWithinTheEvent : Prop :=
  ∀ s t : State, BeforeClose s → completionDue s = false → step s = .next t → completionDue t = false

/-! ## The riser line's frames -/

/-- Every frame a station can send is a frame the line carries, and reads back as the frame it is. -/
def Obligations.SentFramesReadBackWhole : Prop :=
  ∀ (shaft addr : Nat) (b : FrameBody), shaft ≤ 7 → 1 ≤ addr → addr ≤ 48 → sendable b = true →
    frameOk (lineFrame shaft addr b) = true
      ∧ ∃ f, readRiser (lineFrame shaft addr b) = some f
          ∧ f.kind = bodyKind b ∧ f.shaft = shaft ∧ f.addr = addr ∧ readBody f = some b

/-! ## The port: admission, reads, configuration -/

/-- A read changes nothing but the reply, and so do a transaction that is discarded and a command the port does not know. The
uptime shown is the model's time base taken modulo 2^32 s (log entry 6). -/
def Obligations.ReadsAnswerAndChangeNothingElse : Prop :=
  ∀ s : State,
    exec .transactionDiscarded s = .next (s.setPort { s.port with reply := none })
      ∧ exec .badCommand s = .next (s.setPort { s.port with reply := some ⟨.refused .badCommand, .none⟩ })
      ∧ exec .identRead s = .next (s.setPort { s.port with reply := some ⟨.ok, .ident 0x4210 3⟩ })
      ∧ (∃ r, exec .statusRead s = .next (s.setPort { s.port with reply := some ⟨.ok, .status r⟩ })
          ∧ r.closed = s.port.closed ∧ r.restarting = s.port.restarting ∧ r.uptime.toNat = s.now / 1000 % 2 ^ 32
          ∧ r.noticeCount = s.port.notices.length ∧ r.link = s.link.state ∧ r.mode = s.seq.mode ∧ r.phase = s.seq.phase
          ∧ r.target = s.seq.transition.map (·.target) ∧ r.freeze = s.claims.freeze ∧ r.bandStatus = s.band.status
          ∧ r.outputs.whl.present = s.out.present.whl ∧ r.wheelRun = s.out.wheelRun ∧ r.stall = s.limits.stall
          ∧ r.hold = s.limits.hold ∧ r.revCount = s.limits.revCount)
      ∧ (s.port.closed = true →
          exec .evalRead s = .next (s.setPort { s.port with reply := some ⟨.ok, .evaluation s.decision.last⟩ })
            ∧ ∀ n : Nat,
              (∃ st r, exec (.peerRead n) s = .next (s.setPort { s.port with reply := some ⟨st, .peer r s.peers.records.length⟩ })
                ∧ (n < s.peers.records.length ∧ n ≤ 31 → st = .ok ∧ r.map (·.addr) = (s.peers.records[n]?).map (·.addr)
                    ∧ r.map (·.beaconsHeard) = (s.peers.records[n]?).map (·.beaconsHeard))
                ∧ (s.peers.records.length ≤ n ∨ 31 < n → st = .refused .badIndex ∧ r = none))
              ∧ (∃ st r, exec (.claimRead n) s = .next (s.setPort { s.port with reply := some ⟨st, .claim r s.claims.list.length⟩ })
                ∧ (n < s.claims.list.length ∧ n ≤ 31 → st = .ok ∧ r.map (·.seq) = (s.claims.list[n]?).map (·.seq)
                    ∧ r.map (·.addr) = (s.claims.list[n]?).map (·.addr) ∧ r.map (·.res) = (s.claims.list[n]?).map (·.res))
                ∧ (s.claims.list.length ≤ n ∨ 31 < n → st = .refused .badIndex ∧ r = none)))

/-- Before close the operating commands are refused NOT_CLOSED, and while a RESTART waits RESTARTING; a refused command changes
nothing but the reply. -/
def Obligations.CommandsAreRefusedBeforeCloseAndInRestart : Prop :=
  ∀ (c : Instr) (s : State),
    (needsClose c = true → s.port.closed = false →
        exec c s = .next (s.setPort { s.port with reply := some ⟨.refused .notClosed, .none⟩ }))
      ∧ (refusedWaiting c = true → s.port.closed = true → s.port.restarting = true →
        exec c s = .next (s.setPort { s.port with reply := some ⟨.refused .restarting, .none⟩ }))

/-- Before close a CFG WRITE of a numeric item stores the value, or the nearer end of the item's range with CLAMPED. -/
def Obligations.NumericWriteStoresNearestValueInRange : Prop :=
  ∀ (i : NumItem) (v : Int) (s : State), s.port.closed = false →
    let lo := (itemRange i).1
    let hi := (itemRange i).2
    let w := if v < lo then lo else if hi < v then hi else v
    ∃ c, exec (.cfgWrite (.numeric i v)) s = .next (s.setPort { s.port with
          cfg := c, reply := some ⟨if lo ≤ v ∧ v ≤ hi then .ok else .clamped, .none⟩ })
        ∧ getNum c i = some w

/-- A CFG WRITE before close, of any form, changes no other item and nothing else but the reply; each form stores its value, or
refuses it and stores nothing (R199). That no filter record and no fire position is refused rests on the form the model gives them (log
entries 25 and 28). -/
def Obligations.ConfigurationWriteStoresByForm : Prop :=
  (∀ (w : CfgWrite) (s t : State), exec (.cfgWrite w) s = .next t →
      t = s.setPort { s.port with cfg := t.cfg, reply := t.port.reply }
        ∧ ∀ item, item ≠ itemOf w → readItem t.cfg item = readItem s.cfg item)
    ∧ ∀ s : State, s.port.closed = false →
      let refused := s.setPort { s.port with reply := some ⟨.refused .badOperand, .none⟩ }
      let stored (w : CfgWrite) (st : ReplyStatus) (v : ItemValue) : Prop :=
        ∃ c, exec (.cfgWrite w) s = .next (s.setPort { s.port with cfg := c, reply := some ⟨st, .none⟩ })
          ∧ readItem c (itemOf w) = some v
      (∀ (i : ListedItem) (v : Int), ∃ n ∈ listedValues i,
          stored (.listed i v) (if (n : Int) = v then .ok else .clamped) (.number (some n))
            ∧ (((n : Int) ≤ v ∧ ∀ x ∈ listedValues i, (x : Int) ≤ v → x ≤ n) ∨ (v < n ∧ ∀ x ∈ listedValues i, n ≤ x)))
        ∧ (∀ ch, stored (.firePosition ch none) .ok (.position none))
        ∧ (∀ ch p, stored (.firePosition ch (some p)) (if p ≤ 1000 then .ok else .clamped) (.position (some (min p 1000))))
        ∧ (∀ x, stored (.bandShaft (some x)) .ok (.bandShaft x)) ∧ exec (.cfgWrite (.bandShaft none)) s = .next refused
        ∧ (∀ x, stored (.source (some x)) .ok (.source x)) ∧ exec (.cfgWrite (.source none)) s = .next refused
        ∧ (∀ x, stored (.basis (some x)) .ok (.basis x)) ∧ exec (.cfgWrite (.basis none)) s = .next refused
        ∧ (∀ x, stored (.follow (some x)) .ok (.follow x)) ∧ exec (.cfgWrite (.follow none)) s = .next refused
        ∧ (∀ l x, stored (.action l (some x)) .ok (.action x)) ∧ (∀ l, exec (.cfgWrite (.action l none)) s = .next refused)
        ∧ (∀ x, stored (.attnMask (some x)) .ok (.attnMask x)) ∧ exec (.cfgWrite (.attnMask none)) s = .next refused
        ∧ (∀ as : List Int, (4 < as.length ∨ ∃ a ∈ as, a < 1 ∨ 48 < a) → exec (.cfgWrite (.followList as)) s = .next refused)
        ∧ (∀ as : List Int, as.length ≤ 4 → (∀ a ∈ as, 1 ≤ a ∧ a ≤ 48) →
            ∃ l : List Nat, stored (.followList as) .ok (.followList l) ∧ l.Nodup ∧ ∀ a : Nat, a ∈ l ↔ (a : Int) ∈ as)
        ∧ ∀ n f, ∃ g, stored (.filter n f) (if g = f then .ok else .clamped) (.filter g)
            ∧ g.enable = f.enable ∧ g.beacons = f.beacons ∧ g.alerts = f.alerts ∧ g.inverse = f.inverse ∧ g.join = f.join
            ∧ g.selector = (match f.selector with | .number k => .number (min k 7) | sel => sel)
            ∧ g.window = (match f.window with
                          | .relative k => .relative (min k 127)
                          | .absolute lo hi => .absolute (min lo 127) (min hi 127))

/-- After close a CFG WRITE of a known item is answered OK whatever its value, and changes nothing; CFG READ gives every item's stored
value before close and after; an item the part does not have is refused UNKNOWN_ITEM. -/
def Obligations.ClosedConfigurationIsReadNotWritten : Prop :=
  ∀ s : State,
    let answer (st : ReplyStatus) (d : ReplyData) := s.setPort { s.port with reply := some ⟨st, d⟩ }
    (∀ w, w ≠ .unknown → s.port.closed = true → exec (.cfgWrite w) s = .next (answer .ok .none))
      ∧ exec (.cfgWrite .unknown) s = .next (answer (.refused .unknownItem) .none)
      ∧ exec (.cfgRead .unknown) s = .next (answer (.refused .unknownItem) .none)
      ∧ (∀ i, exec (.cfgRead (.numeric i)) s = .next (answer .ok (.item (.number (getNum s.cfg i)))))
      ∧ (∀ i, exec (.cfgRead (.listed i)) s = .next (answer .ok (.item (.number (some (getListed s.cfg i))))))
      ∧ (s.cfg.ident.addr = none → exec (.cfgRead (.numeric .addr)) s = .next (answer .ok (.item (.number none))))
      ∧ (∀ ch, exec (.cfgRead (.firePosition ch)) s = .next (answer .ok (.item (.position (chGet s.cfg.outputs.fire ch)))))
      ∧ (∀ n, exec (.cfgRead (.filter n)) s = .next (answer .ok (.item (.filter (getFilter s.cfg n)))))
      ∧ exec (.cfgRead .followList) s = .next (answer .ok (.item (.followList s.cfg.follow.followList)))
      ∧ exec (.cfgRead .attnMask) s = .next (answer .ok (.item (.attnMask s.cfg.attnMask)))
      ∧ exec (.cfgRead .bandShaft) s = .next (answer .ok (.item (.bandShaft s.cfg.band.bandShaft)))
      ∧ exec (.cfgRead .basis) s = .next (answer .ok (.item (.basis s.cfg.decision.basis)))
      ∧ exec (.cfgRead .follow) s = .next (answer .ok (.item (.follow s.cfg.follow.follow)))
      ∧ (∀ l, exec (.cfgRead (.action l)) s = .next (answer .ok (.item (.action (actionOf s.cfg l)))))
      ∧ exec (.cfgRead .source) s = .next (answer .ok (.item (.source s.cfg.band.source)))

/-- The close-time checks settle the relations between items, each step reading what the steps before it left; they change nothing
else, keep every item in its range, and list each change once. -/
def Obligations.CloseChecksSettleRelationsBetweenItems : Prop :=
  ∀ c : Settings,
    let stale := max c.line.tSTALE (2 * c.line.tBCN)
    let order (f : FilterRecord) : FilterRecord :=
      { f with window := match f.window with
                         | .absolute lo hi => .absolute (min lo hi) (max lo hi)
                         | w => w }
    let d := (closeChecks c).1
    d = { c with
          line := { c.line with tSTALE := stale, tEXPIRE := max c.line.tEXPIRE (stale + c.line.tBCN) }
          decision := { c.decision with
            dtOff := min c.decision.dtOff c.decision.dtOn
            dhOff := min c.decision.dhOff c.decision.dhOn
            tFreeHigh := max c.decision.tFreeHigh (c.decision.tFreeLow + 50)
            frostCap := max c.decision.frostCap c.decision.wheelMin }
          claims := { c.claims with reliefCap := max c.claims.reliefCap c.claims.reliefUnits }
          limits := { c.limits with tFrostTrip := min c.limits.tFrostTrip (c.decision.tFrost - 10) }
          follow := { c.follow with followList := c.follow.followList.filter fun a => c.ident.addr != some a }
          filters := ⟨order c.filters.f0, order c.filters.f1, order c.filters.f2, order c.filters.f3⟩ }
      ∧ ((∀ i v, getNum c i = some v → (itemRange i).1 ≤ v ∧ v ≤ (itemRange i).2) →
          ∀ i v, getNum d i = some v → (itemRange i).1 ≤ v ∧ v ≤ (itemRange i).2)
      ∧ (∀ i x y, .number i x y ∈ (closeChecks c).2 ↔ getNum c i = some x ∧ getNum d i = some y ∧ x ≠ y)
      ∧ (∀ x y, .followList x y ∈ (closeChecks c).2 ↔ x = c.follow.followList ∧ y = d.follow.followList ∧ x ≠ y)
      ∧ (∀ n f g, .filter n f g ∈ (closeChecks c).2 ↔ f = getFilter c n ∧ g = getFilter d n ∧ f ≠ g)
      ∧ (closeChecks c).2.Nodup

/-- CFG CLOSE with ADDR, LEVEL or SHAFT unwritten is refused and names each of them; taken after close it is answered OK and does
nothing; taken before close with all three written it closes the configuration, and every block takes its starting state. The order
of the notices of several adjusted filter slots is the model's choice (log entry 24). -/
def Obligations.CloseStartsTheStation : Prop :=
  ∀ s : State,
    (s.port.closed = true → exec .cfgClose s = .next (s.setPort { s.port with reply := some ⟨.ok, .none⟩ }))
      ∧ (s.port.closed = false →
          ¬(s.cfg.ident.addr.isSome = true ∧ s.cfg.ident.level.isSome = true ∧ s.cfg.ident.shaft.isSome = true) →
          exec .cfgClose s = .next (s.setPort { s.port with reply := some ⟨.refused .missingIdentity,
            .missing s.cfg.ident.addr.isNone s.cfg.ident.level.isNone s.cfg.ident.shaft.isNone⟩ }))
      ∧ (s.port.closed = false → BeforeClose s →
          s.cfg.ident.addr.isSome = true → s.cfg.ident.level.isSome = true → s.cfg.ident.shaft.isSome = true →
          let c := (closeChecks s.cfg).1
          let notice (b : NoticeBody) : Notice := { body := b, cls := noticeClass b, stamp := stampNow s }
          ∃ t, exec .cfgClose s = .next t
            ∧ t.cfg = c ∧ t.port.closed = true ∧ t.port.restarting = false ∧ t.port.reply = some ⟨.ok, .none⟩
            ∧ t.port.notices = (if s.out.fireFiltered then [notice (.fireAsserted c.outputs.fire)] else [])
                ++ (closeChecks s.cfg).2.map (fun a => notice (.configAdjusted a))
            ∧ t.port.overflow = false ∧ t.port.meas = .empty
            ∧ t.link.offlineWish = s.link.offlineWish
            ∧ (s.link.offlineWish = true → t.link.state = .offline ∧ t.link.joinTimer = none)
            ∧ (s.link.offlineWish = false → t.link.state = .joining ∧ t.link.joinTimer = some (s.now + 2 * (c.line.tBCN * 1000)))
            ∧ t.link.beaconSlot = none ∧ t.link.alertSlot = none ∧ t.link.claimSlot = ⟨none, none⟩ ∧ t.link.sequence = 0
            ∧ t.seq = { Sequencer.reset with
                mode := some .safe, phase := some (if s.out.fireFiltered then .suspended else .settled)
                demands := some ⟨c.outputs.oaMin, 0, c.decision.whlSafe⟩ }
            ∧ t.decision = { Decision.reset with timer := some (s.now + c.decision.tEVAL * 1000) }
            ∧ t.claims = { ClaimUnit.reset with capacity := ⟨some c.claims.reliefCap, some c.claims.defrostSlots⟩ }
            ∧ t.band = { Band.reset with source := c.band.source } ∧ t.peers.records = []
            ∧ t.out.seqSet = some ⟨c.outputs.oaMin, 0, c.decision.whlSafe⟩ ∧ t.out.posting = 1
            ∧ (s.out.fireFiltered = false → t.out.present = ⟨0, 0, 0⟩ ∧ t.out.wheelRun = false ∧ t.out.fire = ⟨none, none, none⟩)
            ∧ (s.out.fireFiltered = true → s.cfg.outputs.lvlSeq ≤ 3 → t.out.fire = s.cfg.outputs.fire
                ∧ ∀ ch p, chGet s.cfg.outputs.fire ch = some p → chGet t.out.present ch = p)
            ∧ t.now = s.now ∧ t.pending = s.pending)

/-! ## Measurements, setpoint and source -/

/-- MEAS WRITE after close stores the value, or the nearer end of the channel's range with CLAMPED; NONE empties the channel, and a
probe's verdict with it, but for a NONE taken while a RESTART waits, which leaves the verdict and the counter (deduced, log entry 18);
no other channel changes, and nothing else does but what SUPPLY_T and EXHAUST_T hand on. -/
def Obligations.MeasurementWriteStoresTheChannel : Prop :=
  ∀ s : State, s.port.closed = true → completionDue s = false →
    let ok (st : ReplyStatus) (m : MeasStore) := s.setPort { s.port with meas := m, reply := some ⟨st, .none⟩ }
    (∀ v, exec (.measWrite none v) s = .next (ok (.refused .badOperand) s.port.meas))
      ∧ (∀ ch v,
          let lo := if ch = .returnW ∨ ch = .probeW then 0 else -500
          let hi := if ch = .returnW ∨ ch = .probeW then 300 else 600
          let w := if v < lo then lo else if hi < v then hi else v
          let st : ReplyStatus := if lo ≤ v ∧ v ≤ hi then .ok else .clamped
          let m := setMeas s.port.meas ch { value := some w, arrival := some s.now, clamped := decide (w ≠ v), lapsed := false }
          (ch ≠ .supplyT → ch ≠ .exhaustT → exec (.measWrite (some ch) (some v)) s = .next (ok st m))
            ∧ ∃ t, exec (.measWrite (some ch) (some v)) s = .next t ∧ t.port.meas = m ∧ t.port.reply = some ⟨st, .none⟩
                ∧ t.peers = s.peers ∧ t.band = s.band ∧ t.decision = s.decision)
      ∧ (∀ ch,
          let m := setMeas s.port.meas ch { value := none, arrival := none, clamped := false, lapsed := false }
          (ch ≠ .probeT ∧ ch ≠ .probeW ∨ s.port.restarting = true → exec (.measWrite (some ch) none) s = .next (ok .ok m))
            ∧ (ch = .probeT ∨ ch = .probeW → s.port.restarting = false →
                exec (.measWrite (some ch) none) s = .next ((ok .ok m).setBand { s.band with disagree := false, counter := 0 })))
      ∧ ∀ ch ch' x, measOf (setMeas s.port.meas ch x) ch' = if ch' = ch then x else measOf s.port.meas ch'

/-- SUPPLY_LOW is judged on each value written to SUPPLY_T and FROST_TRIP on each written to EXHAUST_T, as stored; FROST_TRIP is judged
on an evaluation's t_x, as each expiry of the evaluation timer hands it over, only while EXHAUST_T is not fresh. A value between the
trip level and the clear level moves nothing. A written value that clears the last limit with action HOLD clears the hold, and the
Sequencer then makes its start test, but not while a RESTART waits. -/
def Obligations.LimitsAreJudgedOnValues : Prop :=
  ∀ s : State,
    let l := s.cfg.limits
    let clamped (v : Int) : Int := if v < -500 then -500 else if 600 < v then 600 else v
    let follows (n : LimitName) (st : LimitState) (s t : State) : Prop :=
      limitOf t.limits n = st ∧ (∀ k, k ≠ n → limitOf t.limits k = limitOf s.limits k)
        ∧ (st ≠ limitOf s.limits n → t.limits.hold = holdNow s.cfg t.limits ∧ t.limits.posted = combinedGuards s.cfg t.limits)
    (s.port.closed = true → completionDue s = false →
        (∀ v, ∃ t, exec (.measWrite (some .supplyT) (some v)) s = .next t
            ∧ follows .supplyLow (judged s.limits.supplyLow l.tSupLow l.limHyst (clamped v) .supplyT) s t)
          ∧ (∀ v, ∃ t, exec (.measWrite (some .exhaustT) (some v)) s = .next t
            ∧ follows .frostTrip (judged s.limits.frostTrip l.tFrostTrip l.limHyst (clamped v) .exhaustT) s t)
          ∧ (∀ v t, exec (.measWrite (some .supplyT) (some v)) s = .next t → s.limits.supplyLow = .clear → clamped v < l.tSupLow →
              s.out.completionPending = false → s.limits.hold = false → HasRoom s →
              if l.supLowAct = .ignore then t.port.notices = s.port.notices
              else Posted (.limitTripped .supplyLow (clamped v) .supplyT l.supLowAct) s t)
          ∧ (∀ v v0 src t, exec (.measWrite (some .exhaustT) (some v)) s = .next t → s.limits.frostTrip = .active v0 src →
              l.tFrostTrip + l.limHyst ≤ clamped v → s.out.completionPending = false → s.limits.hold = false → HasRoom s →
              if l.frostAct = .ignore then t.port.notices = s.port.notices
              else Posted (.limitCleared .frostTrip (.value (clamped v))) s t)
          ∧ (∀ n ch trip v, (n, ch, trip) = (.supplyLow, .supplyT, l.tSupLow) ∨ (n, ch, trip) = (.frostTrip, .exhaustT, l.tFrostTrip) →
              limitOf s.limits n ≠ .clear → trip + l.limHyst ≤ clamped v → actionOf s.cfg n = .hold → s.limits.hold = true →
              (∀ k, k ≠ n → limitOf s.limits k = .clear ∨ actionOf s.cfg k ≠ .hold) →
              s.limits.posted = combinedGuards s.cfg s.limits →
              let stored := s.setPort { s.port with
                meas := setMeas s.port.meas ch {
                  value := some (clamped v), arrival := some s.now, clamped := decide (clamped v ≠ v), lapsed := false }
                reply := some ⟨if clamped v = v then .ok else .clamped, .none⟩ }
              let cleared := post (.limitCleared n (.value (clamped v)))
                (stored.setLimits { setLimit n .clear s.limits with hold := false })
              ∃ t, exec (.measWrite (some ch) (some v)) s = .next t
                ∧ (s.port.restarting = true → t = cleared) ∧ (s.port.restarting = false → StartTested cleared t)))
      ∧ (∀ x, s.decision.last.tX = some x → fresh s .exhaustT = false →
          follows .frostTrip (judged s.limits.frostTrip l.tFrostTrip l.limHyst x .estimate) s (takeEstimate s))
      ∧ (s.decision.last.tX = none ∨ fresh s .exhaustT = true → takeEstimate s = s)
      ∧ (s.port.closed = true → s.port.restarting = false → (∃ x, s.decision.timer = some x ∧ x ≤ s.now) →
          ∃ t, exec .evalTimerExpiry s = .next t
            ∧ (∀ x, t.decision.last.tX = some x → fresh s .exhaustT = false →
                follows .frostTrip (judged s.limits.frostTrip l.tFrostTrip l.limHyst x .estimate) s t)
            ∧ (t.decision.last.tX = none ∨ fresh s .exhaustT = true → ∀ n, limitOf t.limits n = limitOf s.limits n))

/-- SETPOINT WRITE stores the value clamped to 120..250, and evaluations use it in place of T_SP_DEFAULT; SOURCE SELECT makes a named
source active exactly when an estimate under it, with no disagreement check, would find a value now. -/
def Obligations.SetpointAndSourceAreTaken : Prop :=
  ∀ s : State,
    (s.port.closed = true → s.port.restarting = false →
        (∀ v, exec (.setpointWrite v) s = .next ((s.setDecision { s.decision with setpoint := some (max 120 (min 250 v)) }).setPort
            { s.port with reply := some ⟨if 120 ≤ v ∧ v ≤ 250 then .ok else .clamped, .none⟩ }))
          ∧ exec (.sourceSelect none) s = .next (s.setPort { s.port with reply := some ⟨.refused .badOperand, .none⟩ })
          ∧ (∀ x,
              let found := sourceValue x (ownQuality s) (ownReading s) (peerSamples s) s.now
              (found ≠ none → exec (.sourceSelect (some x)) s = .next ((s.setBand { s.band with source := x }).setPort
                  { s.port with reply := some ⟨.ok, .none⟩ }))
                ∧ (found = none → exec (.sourceSelect (some x)) s = .next (s.setPort
                    { s.port with reply := some ⟨.refused .sourceNotLive, .none⟩ }))))
      ∧ (readInputs s).tSp = (match s.decision.setpoint with | some v => v | none => s.cfg.decision.tSpDefault)
      ∧ ((readInputs s).spOrigin = .written ↔ s.decision.setpoint ≠ none)

/-! ## Manual demands and LIMIT CLEAR -/

/-- MANUAL POST sets its channel's manual demand to the position until the present uptime plus the duration, replacing the one
it held; the tests are made in R171's order. MANUAL CANCEL and expiry remove the demand, expiry with a notice. Nothing but the
actuators moves with them while no ramp waits to complete. That the event does nothing while it is not due is the model's choice
(log entry 7). -/
def Obligations.ManualDemandsArePostedAndRemoved : Prop :=
  ∀ s : State,
    let answer (st : ReplyStatus) := s.setPort { s.port with reply := some ⟨st, .none⟩ }
    (s.port.closed = true → s.port.restarting = false →
      (∀ ch pos dur,
          (ch = none ∨ 1000 < pos ∨ dur < 1 ∨ 3600 < dur → exec (.manualPost ch pos dur) s = .next (answer (.refused .badOperand)))
            ∧ (ch ≠ none → pos ≤ 1000 → 1 ≤ dur → dur ≤ 3600 → s.cfg.outputs.lvlManual = 0 →
                exec (.manualPost ch pos dur) s = .next (answer (.refused .levelOff))))
        ∧ (∀ ch pos dur, pos ≤ 1000 → 1 ≤ dur → dur ≤ 3600 → s.cfg.outputs.lvlManual ≠ 0 →
            ∃ t, exec (.manualPost (some ch) pos dur) s = .next t ∧ t.port.reply = some ⟨.ok, .none⟩
              ∧ t.out.manual = chSet s.out.manual ch (some { value := pos, expiry := s.now + dur * 1000 })
              ∧ t.out.guard = s.out.guard ∧ t.out.fire = s.out.fire
              ∧ (s.out.completionPending = false → OnlyOutputs (answer .ok) t ∧ t.out.seqSet = s.out.seqSet
                  ∧ (winner t.cfg t.out ch = some .manual → chGet t.out.present ch = chGet s.out.present ch)))
        ∧ exec (.manualCancel none) s = .next (answer (.refused .badOperand))
        ∧ (∀ ch, chGet s.out.manual ch = none → exec (.manualCancel (some ch)) s = .next (answer (.refused .notPosted)))
        ∧ (∀ ch, chGet s.out.manual ch ≠ none → ∃ t, exec (.manualCancel (some ch)) s = .next t
              ∧ t.port.reply = some ⟨.ok, .none⟩ ∧ t.out.manual = chSet s.out.manual ch none
              ∧ t.out.guard = s.out.guard ∧ t.out.fire = s.out.fire
              ∧ (s.out.completionPending = false → OnlyOutputs (answer .ok) t ∧ t.out.seqSet = s.out.seqSet)))
      ∧ ∀ ch,
        (∀ m, chGet s.out.manual ch = some m → m.expiry ≤ s.now → ∃ t, exec (.manualExpired ch) s = .next t
            ∧ t.out.manual = chSet s.out.manual ch none ∧ t.out.guard = s.out.guard ∧ t.out.fire = s.out.fire
            ∧ (s.out.completionPending = false → HasRoom s → Posted (.manualExpired ch m.value) s t
                ∧ OnlyOutputs (s.setPort t.port) t ∧ t.out.seqSet = s.out.seqSet))
          ∧ ((∀ m, chGet s.out.manual ch = some m → s.now < m.expiry) → exec (.manualExpired ch) s = .next s)

/-- LIMIT CLEAR makes a latched STALL CLEAR and no other limit, and starts the stall timer if the wheel runs; with STALL CLEAR it is
refused NOT_LATCHED. Where STALL was the last limit that held, the hold clears and the Sequencer makes its start test. -/
def Obligations.LimitClearUnlatchesStall : Prop :=
  ∀ s : State, s.port.closed = true → s.port.restarting = false →
    let held : Prop := ∃ n, n ≠ .stall ∧ limitOf s.limits n ≠ .clear ∧ actionOf s.cfg n = .hold
    (s.limits.stall = .clear →
        exec .limitClear s = .next (s.setPort { s.port with reply := some ⟨.refused .notLatched, .none⟩ }))
      ∧ (s.limits.stall ≠ .clear → ∃ t, exec .limitClear s = .next t ∧ t.port.reply = some ⟨.ok, .none⟩
          ∧ t.limits.stall = .clear ∧ t.limits.supplyLow = s.limits.supplyLow ∧ t.limits.frostTrip = s.limits.frostTrip
          ∧ t.limits.posted = combinedGuards s.cfg t.limits ∧ t.limits.hold = holdNow s.cfg t.limits
          ∧ t.limits.ring = s.limits.ring ∧ t.limits.revCount = s.limits.revCount ∧ t.limits.revPeriod = s.limits.revPeriod
          ∧ (s.out.completionPending = false → s.limits.hold = false ∨ held →
              t.seq = s.seq ∧ t.claims = s.claims ∧ t.link = s.link
                ∧ (t.out.wheelRun = true → t.limits.stallTimer = some (s.now + s.cfg.limits.tSTALL * 1000))
                ∧ (HasRoom s → if s.cfg.limits.stallAct = .ignore then t.port.notices = s.port.notices
                    else Posted (.limitCleared .stall .command) s t)))
      ∧ (s.limits.stall ≠ .clear → s.cfg.limits.stallAct = .hold → s.limits.hold = true → ¬held →
          s.limits.posted = combinedGuards s.cfg s.limits → completionDue s = false →
          let cleared := (s.setPort { s.port with reply := some ⟨.ok, .none⟩ }).setLimits { s.limits with
            stall := .clear, hold := false
            stallTimer := if s.out.wheelRun = true then some (s.now + s.cfg.limits.tSTALL * 1000) else s.limits.stallTimer }
          ∃ t, exec .limitClear s = .next t ∧ StartTested (post (.limitCleared .stall .command) cleared) t)

/-! ## Link commands -/

/-- LINK ON and LINK OFF set the OFFLINE wish before close; after close LINK ON starts JOINING from OFFLINE, where the Sequencer makes its
start test, and changes nothing in any other state, and LINK OFF takes the link OFFLINE unless an own claim stands in its way or the link
is CLASHED. The entry into OFFLINE is a cause of forced leave, which cancels a request that waits; no process changes its state. That the
target kept in a suspension record counts as that of the transition in progress is deduced (log entry 12). That the present mode's leave is
taken first where both modes are affected is the model's choice (log entry 26), and so is that the candidate stands while RAMPING out of
the affected mode (log entry 30). -/
def Obligations.LinkCommandsJoinAndLeaveTheLine : Prop :=
  ∀ s : State,
    let answer (st : ReplyStatus) := s.setPort { s.port with reply := some ⟨st, .none⟩ }
    let free (r : Resource) : Prop := (procOf s r).state = .idle ∨ (procOf s r).state = .starved
    (s.port.closed = false →
        exec .linkOn s = .next ((answer .ok).setLink { s.link with offlineWish := false })
          ∧ exec .linkOff s = .next ((answer .ok).setLink { s.link with offlineWish := true }))
      ∧ (s.port.closed = true → s.port.restarting = false →
          (s.link.state ≠ .offline → exec .linkOn s = .next (answer .ok))
            ∧ (s.link.state = .offline →
                let joined := { s.link with
                  state := .joining, joinTimer := some (s.now + 2 * (s.cfg.line.tBCN * 1000)), failCount := 0, failSlot := none }
                (∃ t, exec .linkOn s = .next t ∧ t.port.reply = some ⟨.ok, .none⟩ ∧ t.link.state = .joining
                    ∧ t.link.joinTimer = joined.joinTimer ∧ t.link.failCount = 0)
                  ∧ (completionDue s = false → ∃ t, exec .linkOn s = .next t ∧ StartTested ((answer .ok).setLink joined) t))
            ∧ (s.link.state = .offline → exec .linkOff s = .next (answer .ok))
            ∧ (s.link.state = .clashed → exec .linkOff s = .next (answer (.refused .clashed)))
            ∧ (s.link.state ≠ .offline → s.link.state ≠ .clashed → ¬(free .relief ∧ free .defrost) →
                exec .linkOff s = .next (answer (.refused .claimsHeld)))
            ∧ (s.link.state ≠ .offline → s.link.state ≠ .clashed → free .relief → free .defrost →
                ∃ t, exec .linkOff s = .next t ∧ t.port.reply = some ⟨.ok, .none⟩ ∧ t.link.state = .offline
                  ∧ t.link.beaconSlot = none ∧ t.link.attempt = none ∧ t.link.failCount = 0
                  ∧ t.link.joinTimer = none ∧ t.link.beaconTimer = none ∧ t.link.quietTimer = none
                  ∧ t.link.alertSlot = s.link.alertSlot
                  ∧ (s.link.state = .online →
                      (procOf t .relief).disturbed = true ∧ (procOf t .defrost).disturbed = true)
                  ∧ (∀ r, (procOf t r).state = (procOf s r).state) ∧ t.claims.list = s.claims.list
                  ∧ (completionDue s = false → LinkLossForces s t
                      ∧ ∀ x r, s.seq.phase = some .claiming → s.seq.transition = some x → claimFor x.target = some r →
                        s.seq.forcedPending = none → (procOf s r).state = .idle → (procOf t r).request = false)))

/-! ## Notices and RESTART -/

/-- NOTICE POP takes the oldest notice, with the number left and the overflow flag; on an empty queue it answers EMPTY and clears the
flag, showing it as it stood. A notice posted to an empty queue first is the one a pop at the same moment returns; a pop taken first
returns EMPTY, and the notice then joins the queue. -/
def Obligations.NoticePopTakesTheOldest : Prop :=
  ∀ s : State,
    (∀ n rest, s.port.notices = n :: rest →
        exec .noticePop s = .next (s.setPort { s.port with
          notices := rest, attn := rest.any fun m => masked s.cfg.attnMask m.cls
          reply := some ⟨.ok, .notice n rest.length s.port.overflow⟩ }))
      ∧ (s.port.notices = [] →
          exec .noticePop s = .next (s.setPort { s.port with
            overflow := false, attn := false, reply := some ⟨.ok, .empty s.port.overflow⟩ }))
      ∧ (∀ b, s.port.notices = [] → ∃ t, exec .noticePop (post b s) = .next t ∧ t.port.notices = []
          ∧ t.port.overflow = s.port.overflow
          ∧ t.port.reply = some ⟨.ok, .notice { body := b, cls := noticeClass b, stamp := stampNow s } 0 s.port.overflow⟩
          ∧ ∃ u, exec .noticePop s = .next u ∧ u.port.reply = some ⟨.ok, .empty s.port.overflow⟩ ∧ Posted b u (post b u))

/-- A notice joins a queue with room at its end; at a full queue a FAULT takes the place of the oldest EVENT, and every other case drops
the notice; either way the overflow flag is set. ATTN is high exactly while a notice of a masked class is queued. -/
def Obligations.NoticeQueueTakesNoticesByClass : Prop :=
  ∀ (b : NoticeBody) (s : State),
    let n : Notice := { body := b, cls := noticeClass b, stamp := stampNow s }
    let t := post b s
    t = s.setPort { s.port with notices := t.port.notices, overflow := t.port.overflow, attn := t.port.attn }
      ∧ (t.port.attn = true ↔ ∃ m ∈ t.port.notices, masked s.cfg.attnMask m.cls = true)
      ∧ n.stamp.seconds.toNat = s.now / 1000 % 2 ^ 32 ∧ n.stamp.millis = s.now % 1000
      ∧ (s.port.notices.length < 16 → t.port.notices = s.port.notices ++ [n] ∧ t.port.overflow = s.port.overflow)
      ∧ (16 ≤ s.port.notices.length → t.port.overflow = true
          ∧ (n.cls ≠ .fault ∨ (∀ m ∈ s.port.notices, m.cls ≠ .event) → t.port.notices = s.port.notices)
          ∧ (∀ before e after, n.cls = .fault → s.port.notices = before ++ e :: after → (∀ m ∈ before, m.cls ≠ .event) →
              e.cls = .event → t.port.notices = before ++ after ++ [n]))

/-- A RESTART accepted with a hold on an ONLINE link queues its RELEASE and waits, the Sequencer already in SAFE and SETTLED; with
nothing to release it completes in the same event. -/
def Obligations.RestartReleasesHeldClaimsAndWaits : Prop :=
  ∀ s : State, s.port.closed = true → s.port.restarting = false →
    (∀ r0, s.link.state = .online → holds (procOf s r0) = true → (∀ r, (procOf s r).cause ≠ some .clash) →
        ∃ t, exec .restart s = .next t ∧ t.port.restarting = true ∧ t.port.reply = some ⟨.ok, .none⟩
          ∧ (∀ r, holds (procOf s r) = true → (procOf t r).state = .releasing ∧ (procOf t r).request = false
              ∧ claimIn t r = some (.release r .restart))
          ∧ (∀ r, (procOf s r).state = .pending ∨ (procOf s r).state = .holdoff ∨ (procOf s r).state = .committing
              ∨ (procOf s r).state = .backoff → (procOf t r).state = .idle ∧ (procOf t r).request = false)
          ∧ t.link.state = .online ∧ t.link.beaconSlot = none ∧ t.link.alertSlot = none ∧ t.link.beaconTimer = none
          ∧ t.seq.mode = some .safe ∧ t.seq.phase = some .settled ∧ t.seq.transition = none ∧ t.seq.waitSet = []
          ∧ t.seq.demands = some ⟨s.cfg.outputs.oaMin, 0, s.cfg.decision.whlSafe⟩ ∧ t.out.seqSet = t.seq.demands
          ∧ t.out.manual = ⟨none, none, none⟩ ∧ t.out.guard = s.out.guard ∧ t.out.fire = s.out.fire
          ∧ t.decision = { s.decision with timer := none } ∧ t.band = { s.band with holdTimer := none }
          ∧ t.peers = s.peers ∧ t.claims.list = s.claims.list ∧ t.claims.fireSet = s.claims.fireSet
          ∧ t.port.notices = s.port.notices ∧ t.port.meas = s.port.meas)
      ∧ ((s.link.state ≠ .online ∨ ∀ r, holds (procOf s r) = false) → releaseQueued s = false →
          ∃ t, exec .restart s = .next t ∧ t.port.restarting = false ∧ t.port.reply = some ⟨.ok, .none⟩
            ∧ t.link.state = .joining ∧ (t.port.notices.head?).map (·.body) = some .restarted
            ∧ t.seq.mode = some .safe ∧ t.claims.proc = ⟨.idle, .idle⟩)

/-- A RESTART that waits completes when no RELEASE is queued, and not before: stores, tables and limits are emptied, the
Sequencer starts again, the link enters JOINING, and the configuration, the counters and the filters run on. That the event does
nothing while it is not due is the model's choice (log entry 7). -/
def Obligations.RestartCompletesWhenNoReleaseIsQueued : Prop :=
  ∀ s : State,
    (¬(s.port.closed = true ∧ s.port.restarting = true ∧ releaseQueued s = false) → exec .restartCompletion s = .next s)
      ∧ (s.port.closed = true → s.port.restarting = true → releaseQueued s = false →
          let c := s.cfg
          let notice (b : NoticeBody) : Notice := { body := b, cls := noticeClass b, stamp := stampNow s }
          ∃ t, exec .restartCompletion s = .next t ∧ t.cfg = c ∧ t.port.closed = true ∧ t.port.restarting = false
            ∧ t.port.meas = .empty ∧ t.port.overflow = false ∧ t.port.reply = s.port.reply
            ∧ t.port.notices = notice .restarted :: (if s.out.fireFiltered then [notice (.fireAsserted c.outputs.fire)] else [])
            ∧ t.decision = { s.decision with setpoint := none, timer := some (s.now + c.decision.tEVAL * 1000) }
            ∧ t.peers.records = [] ∧ t.peers.lastFull = none
            ∧ t.claims = { ClaimUnit.reset with capacity := ⟨some c.claims.reliefCap, some c.claims.defrostSlots⟩ }
            ∧ t.band = { Band.reset with source := c.band.source }
            ∧ t.link = { Link.reset with
                state := .joining, joinTimer := some (s.now + 2 * (c.line.tBCN * 1000))
                sequence := s.link.sequence, offlineWish := s.link.offlineWish }
            ∧ t.seq = { Sequencer.reset with
                mode := some .safe, phase := some (if s.out.fireFiltered then .suspended else .settled)
                demands := some ⟨c.outputs.oaMin, 0, c.decision.whlSafe⟩ }
            ∧ t.out.seqSet = t.seq.demands ∧ t.out.posting = nextPosting s.out.posting
            ∧ t.out.guard = ⟨none, none, none⟩ ∧ t.out.fireFiltered = s.out.fireFiltered ∧ t.out.fireSince = s.out.fireSince
            ∧ t.limits.supplyLow = .clear ∧ t.limits.frostTrip = .clear ∧ t.limits.stall = .clear ∧ t.limits.hold = false
            ∧ t.limits.posted = ⟨none, none, none⟩
            ∧ t.limits.ring = s.limits.ring ∧ t.limits.revCount = s.limits.revCount ∧ t.limits.revPeriod = s.limits.revPeriod
            ∧ t.limits.rotFiltered = s.limits.rotFiltered ∧ t.limits.rotSince = s.limits.rotSince)

/-! ## Evaluations -/

/-- Each expiry of the evaluation timer starts the timer again and makes one evaluation, which takes the next number and
replaces the whole record by what the arithmetic gives for the inputs as they stand. The new record is then handed to the Mode
Sequencer and its t_x to the Limit Supervisor, in either order; the desired mode counts toward the candidate. That the event does
nothing while it is not due is the model's choice (log entry 7). -/
def Obligations.EvaluationTimerMakesOneRecord : Prop :=
  ∀ s : State,
    (evalDue s = false → exec .evalTimerExpiry s = .next s)
      ∧ (s.port.closed = true → s.port.restarting = false → (∃ x, s.decision.timer = some x ∧ x ≤ s.now) →
          ∃ t, exec .evalTimerExpiry s = .next t
            ∧ t.decision = { s.decision with
                timer := some (s.now + s.cfg.decision.tEVAL * 1000), counter := s.decision.counter + 1
                last := evalRecord s.cfg (s.decision.counter + 1) (readInputs (estimate s)) }
            ∧ t.decision.last.number = s.decision.counter + 1
            ∧ t.peers = s.peers ∧ t.port.meas = s.port.meas ∧ t.band = (estimate s).band
            ∧ (let made := (estimate s).setDecision t.decision
               let toSequencer (x : State) := settleRamps (takeRecord x)
               let toLimits (x : State) := settleRamps (takeEstimate x)
               ∃ n, t = (toLimits (toSequencer made)).setChoices n ∨ t = (toSequencer (toLimits made)).setChoices n)
            ∧ (s.seq.forcedPending = none → ∃ m, t.decision.last.desired = some m ∧ t.seq.candidate = some m
                ∧ t.seq.count = if s.seq.candidate = some m then min 30 (s.seq.count + 1) else 1))

/-- The gate ends an evaluation with SAFE: INPUT_UNKNOWN while the band is UNKNOWN, RETURN_STALE while a return value that BASIS needs
is absent; a HELD band is used exactly as a VALID one. The inputs are read as their owners hold them: whether the station is in FREE
or in DEFROST from its mode and from the target of its transition or suspension record, and DEFROST permitted from the four conditions
of R21. -/
def Obligations.GateEndsAnEvaluationInSafe : Prop :=
  ∀ (c : Settings) (n : Word16) (i : EvalInputs),
    let e := evalRecord c n i
    let missing : Prop := i.tR = none ∨ (c.decision.basis ≠ .drybulb ∧ i.wR = none)
    (i.bandStatus = .unknown ∨ missing →
        e.desired = some .safe ∧ e.reason = some (if i.bandStatus = .unknown then .inputUnknown else .returnStale)
          ∧ e.hO = none ∧ e.hR = none ∧ e.tX = none ∧ e.needed = none ∧ e.speed = none ∧ e.mixing = none
          ∧ e.favour = false ∧ e.recoveryUseful = false ∧ e.frostRisk = false
          ∧ e.demand = some ⟨c.outputs.oaMin, 0, c.decision.whlSafe⟩)
      ∧ (i.bandStatus ≠ .unknown → ¬missing → (i.tO ≠ none ∧ i.wO ≠ none) → e.reason ≠ some .inputUnknown ∧ e.reason ≠ some .returnStale)
      ∧ evalRecord c n { i with bandStatus := .held } = { evalRecord c n { i with bandStatus := .valid } with bandStatus := .held }
      ∧ ∀ s : State,
        ((readInputs s).tR = none ↔
            ∀ v a, s.port.meas.returnT.value = some v → s.port.meas.returnT.arrival = some a → a + s.cfg.band.tMEASAGE * 1000 ≤ s.now)
          ∧ ((readInputs s).wR = none ↔
            ∀ v a, s.port.meas.returnW.value = some v → s.port.meas.returnW.arrival = some a → a + s.cfg.band.tMEASAGE * 1000 ≤ s.now)
          ∧ (s.decision.last.tX = none → takeEstimate s = s)
          ∧ (let toward (m : Mode) : Prop := s.seq.mode = some m ∨ (∃ x, s.seq.transition = some x ∧ x.target = m)
                ∨ (s.seq.transition = none ∧ ∃ x, s.seq.record = some x ∧ x.target = m)
             let cut : Prop := s.link.state = .offline ∨ s.link.state = .clashed
             ((readInputs s).inFree = true ↔ toward .free) ∧ ((readInputs s).inDefrost = true ↔ toward .defrost)
               ∧ ((readInputs s).isolated = true ↔ cut)
               ∧ ((readInputs s).defrostAllowed = true ↔
                   (s.seq.mode = some .recover ∧ s.seq.phase = some .settled)
                     ∧ (∀ x, s.seq.defrostEnd = some x → x + s.cfg.decision.tDEFINT * 1000 ≤ s.now)
                     ∧ (procOf s .defrost).state ≠ .starved ∧ ¬cut))
          ∧ (readInputs s).bandStatus = s.band.status
          ∧ ((readInputs s).tO, (readInputs s).wO) =
              (if s.band.status = .unknown then (none, none) else (s.band.value.map (·.t), s.band.value.map (·.w)))

/-- Enthalpy is the exact numerator divided by 100000 and rounded to nearest, a half away from zero, and lies in -5030..13874. -/
def Obligations.EnthalpyRoundsToNearest : Prop :=
  ∀ t w : Int, -500 ≤ t → t ≤ 600 → 0 ≤ w → w ≤ 300 →
    let n := 1006000 * t + 2501000 * w + 186 * w * t
    let h := enthalpy t w
    (0 ≤ n → 100000 * h ≤ n + 50000 ∧ n + 50000 < 100000 * h + 100000)
      ∧ (n < 0 → 100000 * -h ≤ -n + 50000 ∧ -n + 50000 < 100000 * -h + 100000)
      ∧ -503000000 ≤ n ∧ n ≤ 1387380000 ∧ -5030 ≤ h ∧ h ≤ 13874

/-- The wheel speed is the needed share divided by the effectiveness, rounded up and clamped to WHEEL_MIN..1000; the mixing position is
what R20's three steps give, and only an evaluation that desires FREE has one. -/
def Obligations.WheelSpeedAndMixingPosition : Prop :=
  (∀ (d : DecisionItems) (needed : Nat), 1 ≤ needed → needed ≤ 1000 → 300 ≤ d.eff → d.eff ≤ 950 → d.wheelMin ≤ 1000 →
      ∃ q, needed * 1000 ≤ d.eff * q ∧ d.eff * (q - 1) < needed * 1000 ∧ 2 ≤ q ∧ q ≤ 3334
        ∧ wheelSpeed d needed = (if q < d.wheelMin then d.wheelMin else if 1000 < q then 1000 else q))
    ∧ (∀ (oaMin : Nat) (tSp tO tR : Int), oaMin ≤ 1000 →
        let p := mixingPosition oaMin tSp tO tR
        (tR - tO ≤ 0 → p = 1000)
          ∧ (0 < tR - tO → tR ≤ tSp → p = oaMin)
          ∧ (0 < tR - tO → tSp < tR → ∃ q : Nat, q * (tR - tO) ≤ 1000 * (tR - tSp) ∧ 1000 * (tR - tSp) < (q + 1) * (tR - tO)
              ∧ p = (if q < oaMin then oaMin else if 1000 < q then 1000 else q))
          ∧ oaMin ≤ p ∧ p ≤ 1000)
    ∧ ∀ (c : Settings) (n : Word16) (i : EvalInputs),
      let e := evalRecord c n i
      (e.desired ≠ some .free → e.mixing = none)
        ∧ (∀ tO tR, i.tO = some tO → i.tR = some tR → e.desired = some .free →
            e.mixing = some (mixingPosition c.outputs.oaMin i.tSp tO tR)
              ∧ e.demand = some ⟨mixingPosition c.outputs.oaMin i.tSp tO tR, 1000, 0⟩)
        ∧ (∀ v, e.speed = some v → e.desired = some .recover → e.demand = some ⟨c.outputs.oaMin, 0, v⟩)

/-- An evaluation that passes the gate ends with the desired mode and reason of the first line of R22's table that applies, the
comparison and the limits being those of R11 and R12. It records the enthalpy of each side whose values are both present, and the estimate
of the exhaust air where the outdoor air is the colder. -/
def Obligations.EvaluationEndsByItsOutcomeTable : Prop :=
  ∀ (c : Settings) (n : Word16) (i : EvalInputs) (tO tR : Int), gate c.decision i = none → i.tO = some tO → i.tR = some tR →
    let d := c.decision
    let e := evalRecord c n i
    let hO := e.hO.getD 0
    let hR := e.hR.getD 0
    let wide : Int := if i.inFree then d.limBand else 0
    let favourable : Prop :=
      (d.basis = .enthalpy ∨ (if i.inFree then tO < tR - d.dtOff else tO ≤ tR - d.dtOn))
        ∧ (d.basis = .drybulb ∨ (if i.inFree then hO < hR - d.dhOff else hO ≤ hR - d.dhOn))
    let within : Prop :=
      d.tFreeLow - wide ≤ tO ∧ tO ≤ d.tFreeHigh + wide ∧ (d.basis = .drybulb ∨ i.wO.getD 0 ≤ d.wFreeHigh + wide)
    let useful : Prop := d.dtRec ≤ ((tR - tO).natAbs : Int) ∧ (d.basis = .drybulb ∨ d.dhRec ≤ ((hR - hO).natAbs : Int))
    let share := Int.tdiv (1000 * (i.tSp - tO)) (tR - tO)
    let cold : Prop := tO < tR ∧ Int.fdiv (1000 * tR - d.eff * (tR - tO)) 1000 < d.tFrost
    (∀ w, i.wO = some w → e.hO = some (enthalpy tO w)) ∧ (i.wO = none → e.hO = none)
      ∧ (∀ w, i.wR = some w → e.hR = some (enthalpy tR w)) ∧ (i.wR = none → e.hR = none)
      ∧ e.tX = (if tO < tR then some (Int.fdiv (1000 * tR - d.eff * (tR - tO)) 1000) else none)
      ∧ (e.frostRisk = true ↔ cold)
      ∧ (favourable → within → i.isolated = false →
          e.desired = some .free ∧ e.reason = some .freeFavoured ∧ e.favour = true ∧ e.recoveryUseful = false)
      ∧ (¬(favourable ∧ within ∧ i.isolated = false) → e.favour = false ∧ (e.recoveryUseful = true ↔ useful)
          ∧ (useful → 0 < share →
              e.speed = some (let v := wheelSpeed d (min share 1000).toNat
                              if e.frostRisk = true ∧ i.inDefrost = false then min v d.frostCap else v)
                ∧ e.needed = some (min share 1000)
                ∧ (cold → i.defrostAllowed = true → e.desired = some .defrost ∧ e.reason = some .frost
                    ∧ e.demand = some ⟨c.outputs.oaMin, 1000, 1000⟩)
                ∧ (¬(cold ∧ i.defrostAllowed = true) → e.desired = some .recover))
          ∧ (¬(useful ∧ 0 < share) → e.speed = none ∧ e.desired = some .neutral ∧ e.demand = some ⟨c.outputs.oaMin, 1000, 0⟩)
          ∧ (¬(useful ∧ 0 < share ∧ cold ∧ i.defrostAllowed = true) →
              (favourable → ¬within → e.reason = some .outdoorLimit)
                ∧ (favourable → within → e.reason = some .isolated)
                ∧ (¬favourable → ¬useful → e.reason = some .recoveryNotUseful)
                ∧ (¬favourable → useful → share ≤ 0 → e.reason = some .setpointOtherSide ∧ e.needed = some share)
                ∧ (¬favourable → useful → 0 < share → e.reason = some .recoveryUseful)))

/-! ## Confirmation and the band -/

/-- An evaluation record counts toward its desired mode or makes it the new candidate; while SETTLED in RECOVER or FREE it updates the
running demand, whatever it desires, and a confirmed desire that no block stops then starts its transition; a confirmed SAFE aborts a
transition; any other confirmed desire cancels one before its ramp, with its claim request and the holds the present mode does not need,
and then starts its own transition, unless it is for the present mode or blocked; while RAMPING or SUSPENDED any desire but SAFE only
counts. -/
def Obligations.RecordsConfirmUpdateAbortAndCancel : Prop :=
  ∀ (s : State) (m : Mode), s.port.closed = true → s.port.restarting = false → s.decision.last.desired = some m →
    let n := if s.seq.candidate = some m then min 30 (s.seq.count + 1) else 1
    let counted := s.setSeq { s.seq with candidate := some m, count := n }
    let confirmed : Prop := m = .safe ∨ m = .defrost ∨ s.cfg.decision.confirm ≤ n
    let starts : Prop := s.seq.mode ≠ some m ∧ blocked s m = false
    let t := takeRecord s
    (s.seq.phase = some .suspended → t = counted)
      ∧ (s.seq.phase = some .ramping → m ≠ .safe → t = counted)
      ∧ (s.seq.phase = some .settled → ¬(confirmed ∧ starts) →
          ((s.seq.mode = some .recover → s.decision.last.speed = none) → (s.seq.mode = some .free → s.decision.last.mixing = none) →
              t = counted)
            ∧ (∀ d v, s.seq.demands = some d → s.seq.mode = some .recover → s.decision.last.speed = some v →
              t.seq = { counted.seq with demands := some { d with whl := v } } ∧ t.out.seqSet = some { d with whl := v }
                ∧ t.out.posting = nextPosting s.out.posting ∧ t.claims = s.claims ∧ t.link = s.link)
            ∧ (∀ d v, s.seq.demands = some d → s.seq.mode = some .free → s.decision.last.mixing = some v →
              t.seq = { counted.seq with demands := some { d with oda := v } } ∧ t.out.seqSet = some { d with oda := v }
                ∧ t.out.posting = nextPosting s.out.posting ∧ t.claims = s.claims ∧ t.link = s.link))
      ∧ (s.seq.phase = some .settled → confirmed → starts →
          t.seq.transition = some ⟨m, false⟩ ∧ t.seq.phase ≠ some .settled ∧ t.seq.mode = s.seq.mode)
      ∧ (∀ x p, s.seq.transition = some x → s.seq.phase = some p → p = .claiming ∨ p = .followWait ∨ p = .ramping →
          m = .safe → 1 ≤ n → x.target ≠ .safe →
          t.seq.phase = some .ramping ∧ t.seq.transition = some ⟨.safe, false⟩ ∧ t.seq.mode = s.seq.mode
            ∧ t.seq.demands = some ⟨s.cfg.outputs.oaMin, 0, s.cfg.decision.whlSafe⟩ ∧ t.out.seqSet = t.seq.demands
            ∧ t.seq.waitSet = [] ∧ t.seq.followTimer = none ∧ t.seq.forcedPending = none
            ∧ ∀ r, (procOf s r).state = .pending ∨ (procOf s r).state = .holdoff ∨ (procOf s r).state = .committing
                ∨ (procOf s r).state = .backoff → (procOf t r).state = .idle)
      ∧ (∀ x p, s.seq.transition = some x → s.seq.phase = some p → p = .claiming ∨ p = .followWait →
          (¬confirmed ∨ m = x.target → t = counted)
            ∧ (m ≠ .safe → confirmed → x.target ≠ m → NoExitWaits s →
              let settled := settledSeq counted.seq
              let wait := chooseWaitSet s
              (¬starts → t.seq = settled ∧ t.out = s.out)
                ∧ (∀ r, starts → claimFor m = some r → (procOf s r).state = .idle →
                  t.seq = { settled with phase := some .claiming, transition := some ⟨m, false⟩ } ∧ t.out = s.out
                    ∧ ((procOf s r).request = false → heldBack s = false → (procOf t r).state = .pending ∧ (procOf t r).attempt = 1))
                ∧ (starts → claimFor m = none → rampingMembers s wait ≠ [] →
                  t.seq = { settled with
                      phase := some .followWait, transition := some ⟨m, false⟩, waitSet := wait
                      followTimer := some (s.now + s.cfg.follow.tFOLLOW * 1000) }
                    ∧ t.out = s.out)
                ∧ (starts → claimFor m = none → rampingMembers s wait = [] →
                  RampingTo m false settled (nextPosting s.out.posting) s t)
                ∧ ∀ r, claimFor x.target = some r →
                  let p := procOf s r
                  (p.state = .pending ∨ p.state = .holdoff ∨ p.state = .committing ∨ p.state = .backoff →
                      (procOf t r).state = .idle ∧ (procOf t r).attempt = 0 ∧ (procOf t r).request = false)
                    ∧ (p.state = .holdoff ∨ p.state = .committing → s.link.state ≠ .clashed →
                      claimIn t r = some (.withdraw r .cancelled))
                    ∧ (p.state = .idle ∨ p.state = .releasing → procOf t r = { p with request := false })
                    ∧ (p.state = .held → s.seq.mode ≠ some x.target → (procOf t r).state = .releasing
                      ∧ (s.link.state ≠ .clashed → claimIn t r = some (.release r .done)))))

/-- The median of samples is the middle value of each component, or the mean of the two middle ones rounded down, and lies between the
least and the greatest. -/
def Obligations.MedianIsTheMiddleValue : Prop :=
  (∀ l : List Int, l ≠ [] → ∃ v : List Int, v.Perm l ∧ v.Pairwise (· ≤ ·)
      ∧ (l.length % 2 = 1 → v[l.length / 2]? = some (median l))
      ∧ (l.length % 2 = 0 → ∃ a b, v[l.length / 2 - 1]? = some a ∧ v[l.length / 2]? = some b
          ∧ 2 * median l ≤ a + b ∧ a + b ≤ 2 * median l + 1)
      ∧ (∃ a ∈ l, a ≤ median l) ∧ ∃ b ∈ l, median l ≤ b)
    ∧ (∀ x : Int, median [x] = x)
    ∧ ∀ l : List Sample, medianOf l = (median (l.map (·.1)), median (l.map (·.2)))

/-- The peer samples are the FRESH records of VALID quality within BAND_HALF of the own level and of a shaft that BAND_SHAFT takes. The
source BAND gives the median over them with the own probe when it is VALID, OWN_FIRST the own reading when it is VALID and else the peers'
median, OWN_ONLY the own reading when it is VALID. With enough peer samples and a probe that is not ABSENT, an estimate checks the probe
against the peers' median: an answer against the verdict counts, DIS_COUNT of them turn the verdict with a notice, and an answer with the
verdict clears the count. The quality follows at once and is the one the estimate's value and the next BEACON use. The estimate then
leaves the band as a value found or none found leaves it: VALID with the value, HELD with the hold timer running, UNKNOWN with the value
lost, or as it stood. -/
def Obligations.DisagreementIsCountedAndTurnsTheVerdict : Prop :=
  (∀ (s : State) (counts : PeerRecord → Bool),
      (∀ p ∈ s.peers.records, counts p = true ↔ p.fresh = true ∧ p.quality = .valid
        ∧ (p.level ≤ ownLevel s + s.cfg.band.bandHalf ∧ ownLevel s ≤ p.level + s.cfg.band.bandHalf)
        ∧ (s.cfg.band.bandShaft = .any ∨ p.shaft = ownShaft s)) →
        peerSamples s = (s.peers.records.filter counts).map fun p => (p.obsT.getD 0, p.obsW.getD 0))
    ∧ (∀ (q : Quality) (own : Sample) (peers : List Sample) (now : Time),
      let mid (l : List Sample) : BandValue :=
        { t := median (l.map (·.1)), w := median (l.map (·.2)), origin := .median, count := l.length, foundAt := now }
      let reading : BandValue := { t := own.1, w := own.2, origin := .own, count := 1, foundAt := now }
      (q = .valid → sourceValue .band q own peers now = some (mid (peers ++ [own]))
          ∧ sourceValue .ownFirst q own peers now = some reading ∧ sourceValue .ownOnly q own peers now = some reading)
        ∧ (q ≠ .valid → sourceValue .ownOnly q own peers now = none
          ∧ (∀ x, x = .band ∨ x = .ownFirst → (peers ≠ [] → sourceValue x q own peers now = some (mid peers))
            ∧ (peers = [] → sourceValue x q own peers now = none))))
    ∧ ∀ s : State,
    let peers := peerSamples s
    let own := ownReading s
    let mid := medianOf peers
    let apart : Prop := s.cfg.band.disTolT < (own.1 - mid.1).natAbs ∨ s.cfg.band.disTolW < (own.2 - mid.2).natAbs
    let t := disagreementCheck peers s
    (peers.length < s.cfg.band.disMinPeers ∨ ownQuality s = .absent → t = s)
      ∧ (s.cfg.band.disMinPeers ≤ peers.length → ownQuality s ≠ .absent →
          ((s.band.disagree = true ↔ apart) → t = s.setBand { s.band with counter := 0 })
            ∧ (¬(s.band.disagree = true ↔ apart) → s.band.counter + 1 < s.cfg.band.disCount →
                t = s.setBand { s.band with counter := s.band.counter + 1 })
            ∧ (¬(s.band.disagree = true ↔ apart) → s.cfg.band.disCount ≤ s.band.counter + 1 →
                t = post (if s.band.disagree then .ownProbeRestored own.1 own.2 mid.1 mid.2
                          else .ownProbeDisagree own.1 own.2 mid.1 mid.2)
                  (s.setBand { s.band with disagree := !s.band.disagree, counter := 0 }))
            ∧ ownQuality t = (if t.band.disagree then .disagree else .valid))
      ∧ (beaconNow t).quality = ownQuality t
      ∧ (estimate s).band = (match sourceValue t.band.source (ownQuality t) own peers s.now with
          | some v => { t.band with value := some v, status := .valid, lost := false, holdTimer := none }
          | none =>
            if t.band.status ≠ .valid then t.band
            else if s.cfg.band.tBANDHOLD = 0 then { t.band with value := none, status := .unknown, lost := true, holdTimer := none }
            else { t.band with status := .held, holdTimer := some (s.now + s.cfg.band.tBANDHOLD * 1000) })

/-- A value found makes the band VALID and stops the hold timer, with BAND_RESTORED where a value had been held or lost; none
found while VALID starts the hold, or loses the value where tBANDHOLD is 0; the hold timer's expiry loses it. That the event
does nothing while it is not due is the model's choice (log entry 7). -/
def Obligations.BandStatusMovesByEstimateAndHold : Prop :=
  ∀ s : State,
    (∀ v, (foundValue v s).band = { s.band with value := some v, status := .valid, lost := false, holdTimer := none }
        ∧ (s.band.status = .held ∨ (s.band.status = .unknown ∧ s.band.lost = true) → HasRoom s →
            Posted (.bandRestored v.t v.w v.origin) s (foundValue v s))
        ∧ (s.band.status = .valid ∨ (s.band.status = .unknown ∧ s.band.lost = false) →
            (foundValue v s).port = s.port))
      ∧ (s.band.status ≠ .valid → foundNone s = s)
      ∧ (∀ v, s.band.status = .valid → s.band.value = some v → s.cfg.band.tBANDHOLD ≠ 0 →
          (foundNone s).band = { s.band with status := .held, holdTimer := some (s.now + s.cfg.band.tBANDHOLD * 1000) }
            ∧ (HasRoom s → Posted (.bandHeld v.t v.w) s (foundNone s)))
      ∧ (s.band.status = .valid → s.cfg.band.tBANDHOLD = 0 →
          (foundNone s).band = { s.band with value := none, status := .unknown, lost := true, holdTimer := none }
            ∧ (HasRoom s → Posted .bandUnknown s (foundNone s)))
      ∧ (bandHoldDue s = false → exec .bandHoldExpiry s = .next s)
      ∧ (s.port.closed = true → s.port.restarting = false → s.band.status = .held →
          (∃ x, s.band.holdTimer = some x ∧ x ≤ s.now) → ∃ t, exec .bandHoldExpiry s = .next t
            ∧ t = (s.setBand { s.band with value := none, status := .unknown, lost := true, holdTimer := none }).setPort t.port
            ∧ (HasRoom s → Posted .bandUnknown s t))

/-! ## Outputs -/

/-- A channel is won by the source with a demand on it at the highest level, ties in the order FIRE, GUARD, MANUAL, SEQUENCER; when
demands change, a channel won by FIRE or an IMMEDIATE guard takes its demand at once and every other stays where it stands. -/
def Obligations.HighestLevelWinsAndFireAndImmediateGuardsJump : Prop :=
  let rank (src : DemandSource) : Nat := match src with | .fire => 0 | .guard => 1 | .manual => 2 | .sequencer => 3
  (∀ (c : Settings) (o : OutputUnit) (ch : Channel),
      levelOf c .fire = 4
        ∧ (winner c o ch = none ↔ ∀ x, demandOf o ch x = none)
        ∧ ∀ src, winner c o ch = some src ↔ demandOf o ch src ≠ none
            ∧ ∀ x, demandOf o ch x ≠ none → levelOf c x < levelOf c src ∨ (levelOf c x = levelOf c src ∧ rank src ≤ rank x))
    ∧ ∀ (f : OutputUnit → OutputUnit) (s : State) (ch : Channel),
      (f s.out).present = s.out.present →
        let t := changeDemands f s
        let w := winner s.cfg (f s.out) ch
        let sudden : Prop := w = some .fire ∨ (w = some .guard ∧ ((chGet (f s.out).guard ch).map (·.immediate)) = some true)
        (∀ src v, w = some src → sudden → demandOf (f s.out) ch src = some v →
            chGet t.out.present ch = v ∧ chGet t.out.acc ch = 0)
          ∧ (¬sudden → chGet t.out.present ch = chGet s.out.present ch)

/-- A slew step that is due moves one channel one per-mille toward its winner's demand, lowers its accumulator by 1000, or
clears it on arrival, and the wheel-run output follows with what it starts and stops; nothing else changes while the step
completes no ramp. That the event does nothing while it is not due is the model's choice (log entry 7). -/
def Obligations.SlewStepMovesOnePerMille : Prop :=
  ∀ (s : State) (ch : Channel),
    (slewDue s ch = false → exec (.slewStep ch) s = .next s)
      ∧ ∀ v, aim s.cfg s.out ch = some (v, false) → chGet s.out.present ch ≠ v → 1000 ≤ chGet s.out.acc ch →
        let p := chGet s.out.present ch
        let q := if p < v then p + 1 else p - 1
        let present := chSet s.out.present ch q
        let on := decide (0 < present.whl)
        let u := { s.out with
          present := present, acc := chSet s.out.acc ch (if q = v then 0 else chGet s.out.acc ch - 1000), wheelRun := on }
        completionDue (s.setOut u) = false →
          exec (.slewStep ch) s = .next ((s.setOut u).setLimits (
            if on = s.out.wheelRun then s.limits
            else if on then { s.limits with
              stallTimer := if s.limits.stall = .clear then some (s.now + s.cfg.limits.tSTALL * 1000) else s.limits.stallTimer
              lastWrap := none }
            else { s.limits with stallTimer := none }))

/-! ## Transitions -/

/-- The step that completes a ramp changes the mode to the ramp's target, starts the dwell, releases every hold the new mode does not
need, starts or ends the DEFROST cycle, and settles the phase; a ramp back to the present mode leaves the mode, the dwell and the notices
as they are. A desire confirmed for the mode entered starts nothing more. A pending forced leave is acted on then, which clears the
candidate (log entry 12): out of the mode it names the forced ramp starts, and in any other mode nothing starts. No output moves with
any of this, where the channels that jump stand at their demands. -/
def Obligations.RampCompletionEntersTheTarget : Prop :=
  ∀ (s : State) (ch : Channel) (target : Mode) (forced : Bool),
    slewDue s ch = true → completionDue (slewOnce ch s) = true → s.port.closed = true → s.port.restarting = false →
    s.seq.phase = some .ramping → s.seq.transition = some ⟨target, forced⟩ → s.seq.rampPosting = some s.out.posting →
    (s.seq.mode = some target → NoExitWaits s) →
      let back : Prop := s.seq.mode = some target
      let settled := { s.seq with phase := some .settled, transition := none, rampPosting := none }
      let entered := if back then settled else { settled with
        mode := some target
        dwellStart := some s.now, dwellTimer := some (s.now + s.cfg.decision.tDWELL * 1000)
        defrostTimer := if target = .defrost then some (s.now + s.cfg.decision.tDEFROST * 1000)
                        else if s.seq.mode = some .defrost then none else s.seq.defrostTimer
        defrostExpired := if target = .defrost ∨ s.seq.mode = some .defrost then false else s.seq.defrostExpired
        defrostEnd := if target ≠ .defrost ∧ s.seq.mode = some .defrost then some s.now else s.seq.defrostEnd }
      let cleared := { entered with candidate := none, count := 0, forcedPending := none }
      let stepped := slewOnce ch s
      ∃ t, exec (.slewStep ch) s = .next t
        ∧ (let stays (q : Sequencer) : Prop := t.seq = q ∧ t.out.seqSet = s.out.seqSet ∧ t.out.completionPending = false
           let leaves (m d : Mode) : Prop := s.decision.last.desired = some d ∧ d ≠ .defrost
             ∧ RampsAway stepped (rampSet s.cfg s.decision.last (leaveTarget m d))
           let done : Prop := t.out.present = stepped.out.present
             ∧ (∀ r, claimFor target = some r → procOf t r = procOf s r)
             ∧ (∀ r, claimFor target ≠ some r →
                 ((procOf s r).state = .held → (procOf t r).state = .releasing
                   ∧ (s.link.state ≠ .clashed → claimIn t r = some (.release r .done)))
                   ∧ ((procOf s r).state = .yielding → (procOf s r).cause ≠ some .clash → (procOf t r).state = .releasing
                       ∧ (s.link.state ≠ .clashed → claimIn t r = some (.release r .yield)))
                   ∧ (holds (procOf s r) = false → procOf t r = procOf s r))
             ∧ (¬back → HasRoom s → Posted (.modeChanged target) s t) ∧ (back → t.port = s.port)
             ∧ (s.link.state = .online → (∀ a, s.link.attempt = some a → a.slot ≠ .beacon) → t.link.beaconSlot = some s.now)
           (s.seq.forcedPending = none → OnlyDesires target s → stays entered ∧ done)
             ∧ (∀ m, s.seq.forcedPending = some m → m ≠ target → stays cleared ∧ done)
             ∧ (∀ d, JumpsMade s → s.seq.forcedPending = some target → leaves target d →
               RampingTo (leaveTarget target d) true cleared (nextPosting s.out.posting) s t ∧ done))

/-- The dwell's expiry makes the start test: a confirmed desire that no block of R32 stops starts its transition in the first
phase that applies, CLAIMING with a request, FOLLOW_WAIT with its wait set and timer, or RAMPING with the target's demand set
posted; without one only the expiry is taken. When a desire is confirmed, what blocks it, the demand set of each target, the wait set of
each FOLLOW mode and which members still ramp are R30's, R32's, R39's, R36's and R37's. That the event does nothing while it is not due
is the model's choice (log entry 7). -/
def Obligations.DwellExpiryMakesTheStartTest : Prop :=
  (∀ (s : State) (m : Mode), blocked s m = true ↔ m ≠ .safe
      ∧ (s.limits.hold = true
        ∨ ((∃ x, s.seq.dwellStart = some x ∧ s.now < x + s.cfg.decision.tDWELL * 1000)
            ∧ (m ≠ .defrost ∨ s.seq.mode = some .defrost))
        ∨ (s.seq.mode = some .defrost ∧ s.seq.defrostExpired = false)
        ∨ (m = .free ∧ (procOf s .relief).state = .starved) ∨ (m = .defrost ∧ (procOf s .defrost).state = .starved)
        ∨ ((m = .free ∨ m = .defrost) ∧ (s.link.state = .offline ∨ s.link.state = .clashed))))
    ∧ (∀ (s : State) (m : Mode), confirmed s = some m ↔ s.seq.candidate = some m
        ∧ (if m = .safe ∨ m = .defrost then 1 else s.cfg.decision.confirm) ≤ s.seq.count)
    ∧ (∀ (c : Settings) (e : EvalRecord),
        let oa := c.outputs.oaMin
        let cap := c.decision.frostCap
        rampSet c e .safe = ⟨oa, 0, c.decision.whlSafe⟩ ∧ rampSet c e .neutral = ⟨oa, 1000, 0⟩
          ∧ rampSet c e .defrost = ⟨oa, 1000, 1000⟩
          ∧ (∀ v, e.speed = some v → rampSet c e .recover = ⟨oa, 0, if e.frostRisk = true ∧ cap < v then cap else v⟩)
          ∧ (e.speed = none → rampSet c e .recover = ⟨oa, 0, c.decision.wheelMin⟩)
          ∧ (∀ p, e.mixing = some p → rampSet c e .free = ⟨p, 1000, 0⟩)
          ∧ (e.mixing = none → rampSet c e .free = ⟨oa, 1000, 0⟩))
    ∧ (∀ s : State,
        let follow := s.cfg.follow
        (follow.follow = .none → chooseWaitSet s = [])
          ∧ (follow.follow = .below → ∃ order : List PeerRecord,
              order.Perm (s.peers.records.filter fun p => p.fresh && p.shaft = ownShaft s && p.level < ownLevel s)
                ∧ order.Pairwise (fun p q => q.level < p.level ∨ (q.level = p.level ∧ p.addr ≤ q.addr))
                ∧ chooseWaitSet s = (order.take follow.followN).map (·.addr))
          ∧ (follow.follow = .list → ∀ a, a ∈ chooseWaitSet s ↔
              a ∈ follow.followList ∧ ∃ p ∈ s.peers.records, p.addr = a ∧ p.fresh = true))
    ∧ (∀ (s : State) (set : List Nat) (a : Nat), a ∈ rampingMembers s set ↔
        a ∈ set ∧ ∃ p ∈ s.peers.records, p.addr = a ∧ p.phase = .ramping)
    ∧ ∀ s : State,
      (dwellDue s = false → exec .dwellExpiry s = .next s)
        ∧ (dwellDue s = true → completionDue s = false →
          ∃ t, exec .dwellExpiry s = .next t ∧ StartTested (s.setSeq { s.seq with dwellTimer := none }) t)

/-- The DEFROST cycle's expiry starts the exit from DEFROST when SETTLED and is kept for later in any other phase; the follow
timer's expiry gives up the wait with a notice naming the lowest member still ramping, and ramps. That the event does nothing
while it is not due is the model's choice (log entry 7). -/
def Obligations.DefrostAndFollowTimersAct : Prop :=
  ∀ s : State, completionDue s = false →
    let expired := { s.seq with defrostTimer := none, defrostExpired := true }
    (defrostDue s = false → exec .defrostCycleExpiry s = .next s)
      ∧ (defrostDue s = true → s.seq.phase ≠ some .settled ∨ s.seq.mode ≠ some .defrost →
          exec .defrostCycleExpiry s = .next (s.setSeq expired))
      ∧ (∀ m, defrostDue s = true → s.seq.phase = some .settled → s.seq.mode = some .defrost → exitTarget s = m →
          m = .recover ∨ m = .neutral → rampingMembers s (chooseWaitSet s) = [] → RampsAway s (rampSet s.cfg s.decision.last m) →
          ∃ t, exec .defrostCycleExpiry s = .next t
            ∧ t.seq = { expired with
                phase := some .ramping, transition := some ⟨m, false⟩, waitSet := [], followTimer := none
                demands := some (rampSet s.cfg s.decision.last m), rampPosting := some (nextPosting s.out.posting) }
            ∧ t.out.seqSet = t.seq.demands ∧ t.claims = s.claims ∧ t.port = s.port)
      ∧ (exitTarget s = (match s.decision.last.desired with
          | some .safe => Mode.safe
          | some .neutral => .neutral
          | some .free =>
            if (procOf s .relief).state = .starved ∨ s.link.state = .offline ∨ s.link.state = .clashed then .recover else .free
          | _ => .recover))
      ∧ (followDue s = false → exec .followTimeout s = .next s)
      ∧ (∀ x, s.port.closed = true → s.port.restarting = false → s.seq.phase = some .followWait →
          (∃ y, s.seq.followTimer = some y ∧ y ≤ s.now) → s.seq.transition = some x →
          RampsAway s (rampSet s.cfg s.decision.last x.target) →
          ∃ t a, exec .followTimeout s = .next t
            ∧ t.seq = { s.seq with
                phase := some .ramping, waitSet := [], followTimer := none
                demands := some (rampSet s.cfg s.decision.last x.target), rampPosting := some (nextPosting s.out.posting) }
            ∧ t.out.seqSet = t.seq.demands ∧ t.claims = s.claims
            ∧ (HasRoom s → Posted (.followTimeout a) s t)
            ∧ (PeersSound s.peers → (a = none ↔ rampingMembers s s.seq.waitSet = [])
                ∧ ∀ b, a = some b → b ∈ rampingMembers s s.seq.waitSet ∧ ∀ d ∈ rampingMembers s s.seq.waitSet, b ≤ d))

/-- The FIRE filter follows a pin that stays changed for FIRE_FILTER; before close its change is handed to no block; after close
an assertion puts every channel with a fire position there, suspends the Sequencer with a record of what it interrupts, and
queues an ALERT; a release takes the fire demands off, leaves SUSPENDED and brings an evaluation. Before that evaluation a confirmed
SAFE discards the suspension record and ramps to SAFE; a record that may resume is restored in its interrupted phase; any other is
discarded, with a ramp back to the present mode, over which a pending forced leave stays pending; and with no record the phase is
SETTLED, where a pending forced leave is acted on at once, clearing the candidate (log entry 12). That the event does nothing
while it is not due is the model's choice (log entry 7). The order in which one FIRE event reaches the blocks is deduced (log
entry 5). -/
def Obligations.FireIsFilteredAndTakesTheOutputs : Prop :=
  ∀ s : State,
    (∀ level, exec (.firePinChange level) s = .next ((s.setFirePin level).setOut { s.out with
        fireSince := if level = s.firePin then s.out.fireSince else if level = s.out.fireFiltered then none else some s.now }))
      ∧ (fireFilterDue s = true ↔ ∃ x, s.out.fireSince = some x ∧ x + s.cfg.outputs.fireFilter ≤ s.now)
      ∧ (fireFilterDue s = false → exec .fireFilterExpiry s = .next s)
      ∧ (fireFilterDue s = true → s.port.closed = false →
          exec .fireFilterExpiry s = .next (s.setOut { s.out with fireFiltered := s.firePin, fireSince := none }))
      ∧ (fireFilterDue s = true → s.port.closed = true → s.firePin = true →
          s.cfg.outputs.lvlSeq ≤ 3 → s.cfg.outputs.lvlGuard ≤ 3 → s.cfg.outputs.lvlManual ≤ 3 →
          ∃ t, exec .fireFilterExpiry s = .next t ∧ t.out.fireFiltered = true ∧ t.out.fireSince = none
            ∧ t.out.fire = s.cfg.outputs.fire ∧ (∀ ch p, chGet s.cfg.outputs.fire ch = some p → chGet t.out.present ch = p)
            ∧ t.out.guard = s.out.guard ∧ t.out.manual = s.out.manual ∧ t.out.seqSet = s.out.seqSet
            ∧ (HasRoom s → Posted (.fireAsserted s.cfg.outputs.fire) s t)
            ∧ (s.port.restarting = true → t.seq = s.seq ∧ t.claims = s.claims ∧ t.link = s.link)
            ∧ (s.port.restarting = false → s.link.state ≠ .clashed → (∀ y, s.link.attempt = some y → y.slot ≠ .alert) →
                t.link.alertSlot = some (s.link.alertSlot.getD s.now))
            ∧ (∀ y, s.port.restarting = false → s.link.state = .online → s.link.attempt = some y → y.slot = .alert →
                t.link.alertMark = true)
            ∧ (∀ p, s.port.restarting = false → s.seq.phase = some p → p ≠ .suspended →
                t.seq.phase = some .suspended ∧ t.seq.mode = s.seq.mode ∧ t.seq.transition = none ∧ t.seq.waitSet = []
                  ∧ t.seq.demands = s.seq.demands
                  ∧ (p = .settled → t.seq.record = none)
                  ∧ ∀ x, p ≠ .settled → s.seq.transition = some x → t.seq.record = some {
                      target := x.target, interrupted := p, forced := x.forced, start := s.now
                      relief := (procOf s .relief).state, defrost := (procOf s .defrost).state })
            ∧ (s.port.restarting = false → ∀ r,
                ((procOf s r).state = .held ∨ (procOf s r).state = .yielding ∨ (procOf s r).state = .starved →
                    procOf t r = procOf s r)
                  ∧ ((procOf s r).state = .pending ∨ (procOf s r).state = .holdoff ∨ (procOf s r).state = .committing
                      ∨ (procOf s r).state = .backoff → (procOf t r).state = .idle ∧ (procOf t r).request = false)))
      ∧ (fireFilterDue s = true → s.port.closed = true → s.firePin = false →
          ∃ t, exec .fireFilterExpiry s = .next t ∧ t.out.fireFiltered = false ∧ t.out.fireSince = none
            ∧ t.out.fire = ⟨none, none, none⟩ ∧ t.out.manual = s.out.manual
            ∧ (s.port.restarting = false → t.decision.counter = s.decision.counter + 1
                ∧ (s.seq.mode ≠ none → s.seq.phase = some .suspended → t.seq.phase ≠ some .suspended))
            ∧ (∀ mode, s.port.restarting = false → s.seq.phase = some .suspended → s.seq.transition = none →
                s.seq.mode = some mode →
                let calm := s.setOut { s.out with fire := ⟨none, none, none⟩ }
                let moves (m : Mode) : Prop := RampsAway calm (rampSet s.cfg s.decision.last m)
                let emptied := { s.seq with record := none }
                let next := nextPosting s.out.posting
                ∃ u, t = evaluate u ∧ u.decision = s.decision ∧ u.out.fire = ⟨none, none, none⟩
                  ∧ (let posted (l : List NoticeBody) : Prop := s.port.notices.length ≤ 14 →
                      u.port.notices = s.port.notices ++ (NoticeBody.fireReleased :: l).map fun b => noticeNow b s
                    let resumes (x : Suspension) : Prop := s.now ≤ x.start + s.cfg.outputs.tRESUME * 1000
                      ∧ (confirmed s = some x.target ∨ x.forced = true)
                      ∧ (∀ r, claimFor x.target = some r → (procOf s r).state ≠ .yielding
                          ∧ ((match r with | .relief => x.relief | .defrost => x.defrost) = .held → (procOf s r).state = .held)
                          ∧ s.link.state ≠ .offline ∧ s.link.state ≠ .clashed)
                    let safe : Prop := confirmed s = some .safe
                    (safe → moves .safe → RampingTo .safe false { emptied with forcedPending := none } next s u
                        ∧ posted (s.seq.record.toList.map fun x => .discarded x.target))
                      ∧ (∀ x, s.seq.record = some x → ¬safe → s.seq.forcedPending ≠ none ∨ ¬resumes x → moves mode →
                          RampingTo mode false emptied next s u ∧ posted [.discarded x.target])
                      ∧ (∀ x, s.seq.record = some x → ¬safe → s.seq.forcedPending = none → resumes x →
                          let wait := chooseWaitSet s
                          let stays : Prop := x.forced = false ∧ x.target ≠ .safe ∧ rampingMembers s wait ≠ []
                          let past : Prop := x.interrupted = .followWait
                            ∨ (x.interrupted = .claiming ∧ ∀ r, claimFor x.target = some r → (procOf s r).state = .held)
                          (x.interrupted = .ramping ∨ (past ∧ ¬stays) → moves x.target →
                              RampingTo x.target x.forced emptied next s u ∧ posted [.resumed x.target])
                            ∧ (past → stays → u.seq = { emptied with
                                  phase := some .followWait, transition := some ⟨x.target, x.forced⟩, waitSet := wait
                                  followTimer := some (s.now + s.cfg.follow.tFOLLOW * 1000) }
                                ∧ posted [.resumed x.target])
                            ∧ (∀ r, x.interrupted = .claiming → claimFor x.target = some r → (procOf s r).state = .idle →
                                s.claims.freeze = false →
                                u.seq = { emptied with phase := some .claiming, transition := some ⟨x.target, x.forced⟩ }
                                  ∧ (procOf u r).state = .pending ∧ (procOf u r).attempt = 1 ∧ posted [.resumed x.target]))
                      ∧ (s.seq.record = none → ¬safe → (mode = .defrost → s.seq.defrostExpired = false) →
                          (s.seq.forcedPending = none → OnlyDesires mode s →
                              u.seq = { s.seq with phase := some .settled } ∧ posted []
                                ∧ (s.seq.demands ≠ none → u.out.seqSet = s.seq.demands ∧ u.out.posting = next))
                            ∧ (s.seq.forcedPending = some mode → ∀ d, s.decision.last.desired = some d → d ≠ .defrost →
                              let target := leaveTarget mode d
                              s.seq.demands ≠ none → moves target →
                                RampingTo target true { s.seq with candidate := none, count := 0, forcedPending := none }
                                    (nextPosting next) s u
                                  ∧ posted [])))))

/-! ## Claims -/

/-- The hold-off's expiry decides the attempt: it fails DISTURBED if the flag is set, commits if the held claims, the intents
ahead and the own amount fit the effective capacity, and fails FULL otherwise; a failed attempt backs off, or starves after the
last, which abandons a transition that waited for it. That CLAIM_STARVED stands before TRANSITION_ABANDONED is deduced (log entry
13). That the event does nothing while it is not due is the model's choice (log entry 7). -/
def Obligations.HoldoffExpiryDecidesTheAttempt : Prop :=
  ∀ (s : State) (r : Resource),
    (procDue s r .holdoff = false → exec (.claimHoldoffExpiry r) s = .next s)
      ∧ ∀ own, procDue s r .holdoff = true → completionDue s = false → s.link.state ≠ .clashed →
        findRecord s (ownAddr s) r = some own →
        let p := procOf s r
        let counts (c : ClaimRecord) : Bool := c.res = r && c.addr != ownAddr s && (c.held || ahead c own)
        let fits : Prop := ((s.claims.list.filter counts).map (·.amount)).sum + ownAmount s.cfg r ≤ effective s r
        let why : WithdrawReason := if p.disturbed = true then .disturbed else .full
        let back := s.cfg.claims.tBACK * 1000 * p.attempt + ownAddr s % 8 * 250
        (p.disturbed = false → fits → exec (.claimHoldoffExpiry r) s = .next (
            placeClaim (.held r (ownAmount s.cfg r) (effective s r)) (setProc r { p with state := .committing, timer := none } s)))
          ∧ (p.disturbed = true ∨ ¬fits → p.attempt < s.cfg.claims.maxTries → exec (.claimHoldoffExpiry r) s = .next (
              placeClaim (.withdraw r why) (setProc r { p with state := .backoff, timer := some (s.now + back) } s)))
          ∧ (p.disturbed = true ∨ ¬fits → s.cfg.claims.maxTries ≤ p.attempt →
              ∃ t, exec (.claimHoldoffExpiry r) s = .next t
                ∧ procOf t r = { p with
                    state := .starved, timer := some (s.now + s.cfg.claims.tLOCK * 1000), request := false }
                ∧ claimIn t r = some (.withdraw r why)
                ∧ (HasRoom s → s.seq.phase ≠ some .claiming → Posted (.claimStarved r) s t ∧ t.seq = s.seq ∧ t.out = s.out)
                ∧ (∀ x, s.port.restarting = false → s.seq.phase = some .claiming → s.seq.transition = some x →
                    claimFor x.target = some r → OnlyDesires x.target s → NoExitWaits s →
                      t.seq = settledSeq s.seq ∧ t.out = s.out
                        ∧ (s.port.notices.length ≤ 14 → t.port.notices
                            = s.port.notices ++ [noticeNow (.claimStarved r) s, noticeNow (.transitionAbandoned x.target) s])))

/-- What a backoff's, a lockout's and a record's expiry do, a lockout's end being followed by the Sequencer's start test, and how a request
that waited and an INTENT that waited for its slot are taken; an address of the fire set leaves it by age, and the freeze ends with the
last. That the event does nothing while it is not due is the model's choice (log entry 7). That the taking of a waiting request and of a
waiting INTENT are events of their own is read from the table (log entry 8), and that a backoff which ends under the own FIRE leaves the
process IDLE with a waiting request is the model's choice (log entry 17). -/
def Obligations.ClaimTimersAndAgesAct : Prop :=
  ∀ (s : State) (r : Resource) (a : Nat),
    let intent (n : Nat) : ClaimMsg := .intent r (ownAmount s.cfg r) s.cfg.ident.cls n (effective s r)
    let p := procOf s r
    let waits : Prop := s.claims.freeze = true ∨ s.out.fireFiltered = true
    let pending (n : Nat) (t : State) : Prop := (procOf t r).state = .pending ∧ (procOf t r).attempt = n ∧ t.seq = s.seq
      ∧ t.out = s.out ∧ (s.link.state ≠ .clashed → claimIn s r = none → claimIn t r = some (intent n))
      ∧ (∀ m, claimIn s r = some m → t.link = s.link)
    (procDue s r .backoff = false → exec (.backoffExpiry r) s = .next s)
      ∧ (procDue s r .backoff = true → ¬waits → ∃ t, exec (.backoffExpiry r) s = .next t ∧ pending (p.attempt + 1) t)
      ∧ (procDue s r .backoff = true → waits → exec (.backoffExpiry r) s = .next (
          setProc r { p with state := .idle, attempt := 0, request := true, timer := none, cause := none } s))
      ∧ (procDue s r .starved = false → exec (.lockoutExpiry r) s = .next s)
      ∧ (procDue s r .starved = true → completionDue s = false → ∃ t, exec (.lockoutExpiry r) s = .next t ∧ StartTested (
          setProc r { p with state := .idle, attempt := 0, request := false, timer := none, cause := none } s) t)
      ∧ (waitingDue s r = false → exec (.waitingRequestTaken r) s = .next s)
      ∧ (s.port.closed = true → s.port.restarting = false → p.state = .idle → p.request = true → ¬waits →
          ∃ t, exec (.waitingRequestTaken r) s = .next t ∧ pending 1 t ∧ (procOf t r).request = false)
      ∧ (intentDue s r = false → exec (.deferredIntentQueue r) s = .next s)
      ∧ (s.port.closed = true → s.port.restarting = false → p.state = .pending → claimIn s r = none → s.link.state ≠ .clashed →
          exec (.deferredIntentQueue r) s = .next (placeClaim (intent p.attempt) s))
      ∧ (recordAged s a r = false → exec (.claimRecordExpiry a r) s = .next s)
      ∧ (∀ x, s.port.closed = true → s.port.restarting = false → findRecord s a r = some x →
          x.refreshed + (if x.held then s.cfg.line.tEXPIRE * 1000 else 4 * s.cfg.claims.tHOLD) ≤ s.now →
          ∃ t, exec (.claimRecordExpiry a r) s = .next t ∧ t = s.setClaims t.claims
            ∧ t.claims.list = s.claims.list.filter (fun c => decide (¬(c.addr = a ∧ c.res = r)))
            ∧ t.claims.proc = s.claims.proc ∧ t.claims.capacity = s.claims.capacity)
      ∧ (fireAged s a = false → exec (.fireSetExpiry a) s = .next s)
      ∧ (fireAged s a = true → ∃ t, exec (.fireSetExpiry a) s = .next t
          ∧ t.claims.fireSet = s.claims.fireSet.filter (fun e => e.1 != a) ∧ t.claims.list = s.claims.list
          ∧ (t.claims.fireSet ≠ [] → t = s.setClaims { s.claims with fireSet := t.claims.fireSet })
          ∧ (t.claims.fireSet = [] → t.claims.freeze = false ∧ (HasRoom s → Posted .shaftFreezeOff s t)
              ∧ (p.state = .idle → p.request = true → s.out.fireFiltered = false →
                  (procOf t r).state = .pending ∧ (procOf t r).attempt = 1)))

/-- Precedence is by class, then by the earlier sequence read modulo 2^32. Among held records whose sequences differ and lie in one
window of 2^31, the own claim stands within the overcommit run exactly when the amounts of the held records ahead of it and its own fit
the effective capacity together; a claim with no held record counts last. A HELD process outside the run yields, and nothing else makes
the check do anything. -/
def Obligations.PrecedenceRanksClaims : Prop :=
  (∀ a b : ClaimRecord, ahead a b = true ↔ b.cls < a.cls ∨ (a.cls = b.cls ∧ 2 ^ 31 ≤ (a.seq - b.seq).toNat))
    ∧ ∀ (s : State) (r : Resource),
      let held := s.claims.list.filter fun c => c.held && c.res = r
      (∀ (own : ClaimRecord) (base : Word32), ClaimsSound s.claims → own ∈ held → own.addr = ownAddr s →
          (∀ c ∈ held, (c.seq - base).toNat < 2 ^ 31) → held.Pairwise (fun c d => c.seq ≠ d.seq) →
          (withinRun s r = true ↔ ((held.filter fun c => ahead c own).map (·.amount)).sum + own.amount ≤ effective s r))
      ∧ ((∀ c ∈ held, c.addr ≠ ownAddr s) →
          (withinRun s r = true ↔ (held.map (·.amount)).sum + ownAmount s.cfg r ≤ effective s r))
      ∧ ((procOf s r).state = .held → withinRun s r = false →
          ∃ t, overcommitCheck r s = (t, [.yielding r .overcommit])
            ∧ procOf t r = { procOf s r with state := .yielding, cause := some .overcommit }
            ∧ (HasRoom s → Posted (.overcommitYield r) s t))
      ∧ ((procOf s r).state ≠ .held ∨ withinRun s r = true → overcommitCheck r s = (s, []))

/-! ## Frames received -/

/-- A claim frame of the own shaft takes the next sequence number and acts on the record of its sender and resource: INTENT makes it, HELD
makes or turns it keeping its sequence, WITHDRAW and RELEASE remove it; a lower capacity becomes the effective one, and one below the
configured capacity is noticed once. Records of other stations stand, but for the INTENT of the earliest sequence that a full list gives
up; where it has none the new record is not created, and both own processes are disturbed. A HELD record entered or refreshed brings the
overcommit check, as a fall of the effective capacity does: an own claim outside the run yields, and a station settled in the mode that
uses it is forced out, unless a forced leave is pending already. That the notice of a mismatch stands first, and that the check after a
fall of the capacity comes before the frame's effect on the list, is the model's choice (log entry 31). -/
def Obligations.ClaimFramesChangeTheClaimList : Prop :=
  ∀ (s : State) (f : LineFrame) (x : RiserFrame) (m : ClaimMsg),
    readRiser f = some x → readBody x = some (.claim m) → s.port.closed = true → s.port.restarting = false →
    s.link.state ≠ .offline → x.addr ≠ ownAddr s →
    (x.shaft ≠ ownShaft s → exec (.frameReceived f) s = .next (s.setLink { s.link with sequence := s.link.sequence + 1 }))
      ∧ (x.shaft = ownShaft s → ∃ t, exec (.frameReceived f) s = .next t ∧ t.link.sequence = s.link.sequence + 1
          ∧ t.peers = s.peers ∧ t.decision = s.decision ∧ t.band = s.band
          ∧ (∀ a r, a ≠ ownAddr s → ¬(a = x.addr ∧ r = claimResource m) →
              s.claims.list.length < 32 ∨ findRecord s x.addr (claimResource m) ≠ none → findRecord t a r = findRecord s a r)
          ∧ (∀ r amount cls n cap, m = .intent r amount cls n cap →
              s.claims.list.length < 32 ∨ findRecord s x.addr r ≠ none → findRecord t x.addr r = some {
                addr := x.addr, res := r, amount := amount, held := false, cls := cls, seq := s.link.sequence + 1
                capacity := some cap, refreshed := s.now })
          ∧ (∀ r amount cap, m = .held r amount cap →
              (∀ c, findRecord s x.addr r = some c → findRecord t x.addr r = some { c with
                held := true, amount := amount, capacity := some cap, refreshed := s.now })
                ∧ (findRecord s x.addr r = none → s.claims.list.length < 32 → findRecord t x.addr r = some {
                    addr := x.addr, res := r, amount := amount, held := true, cls := 0, seq := s.link.sequence + 1
                    capacity := some cap, refreshed := s.now }))
          ∧ (∀ r why, m = .withdraw r why ∨ (∃ w, m = .release r w) → completionDue s = false → findRecord t x.addr r = none
              ∧ t.claims.proc = s.claims.proc ∧ t.seq = s.seq ∧ t.out = s.out ∧ t.port = s.port)
          ∧ (∀ r amount cap, (∃ cls n, m = .intent r amount cls n cap) ∨ m = .held r amount cap →
              let valid : Prop := 1 ≤ cap ∧ cap ≤ (if r = .relief then 4095 else 4)
              effective t r = (if valid ∧ cap < effective s r then cap else effective s r)
              ∧ (let seen := resGet s.claims.mismatch r
                 let wrong : Prop := valid ∧ cap < ownCapacity s.cfg r ∧ cap ∉ seen ∧ seen.length < 8
                 let notice := noticeNow (.capacityMismatch r x.addr) s
                 (wrong → t.claims.mismatch = resSet s.claims.mismatch r (seen ++ [cap])
                     ∧ (HasRoom s → ∃ rest, t.port.notices = s.port.notices ++ notice :: rest))
                   ∧ (¬wrong → t.claims.mismatch = s.claims.mismatch
                     ∧ ∀ n ∈ t.port.notices, n ∈ s.port.notices ∨ n.body ≠ notice.body))
              ∧ (ClaimsSound s.claims → s.claims.list.length = 32 → findRecord s x.addr r = none →
                  (∀ v ∈ s.claims.list, v.held = false → v.addr ≠ ownAddr s →
                      (∀ w ∈ s.claims.list, w.held = false → w.addr ≠ ownAddr s → w = v ∨ 2 ^ 31 < (v.seq - w.seq).toNat) →
                      findRecord t v.addr v.res = none
                        ∧ (∃ c, findRecord t x.addr r = some c ∧ c.amount = amount ∧ c.seq = s.link.sequence + 1)
                        ∧ ∀ b q, b ≠ ownAddr s → ¬(b = v.addr ∧ q = v.res) → ¬(b = x.addr ∧ q = r) →
                          findRecord t b q = findRecord s b q)
                    ∧ ((∀ w ∈ s.claims.list, w.held = true ∨ w.addr = ownAddr s) →
                      findRecord t x.addr r = none ∧ (∀ b q, b ≠ ownAddr s → findRecord t b q = findRecord s b q)
                        ∧ (∀ q, (procOf t q).disturbed = true)
                        ∧ ((valid → effective s r ≤ cap ∧ ownCapacity s.cfg r ≤ cap) → completionDue s = false →
                            t.claims.fullMark = true ∧ t.claims.list = s.claims.list ∧ t.seq = s.seq ∧ t.out = s.out
                              ∧ (s.claims.fullMark = true → t.port = s.port)
                              ∧ (s.claims.fullMark = false → HasRoom s → Posted (.claimListFull x.addr) s t)))))
          ∧ (∀ r amount cap, completionDue s = false → (procOf s r).state = .held →
              let valid : Prop := 1 ≤ cap ∧ cap ≤ (if r = .relief then 4095 else 4)
              let fallen := s.setClaims { s.claims with capacity := resSet s.claims.capacity r (some cap) }
              let now := listHeld x.addr (s.link.sequence + 1) r amount cap s
              let stays : Prop := t.claims.proc = s.claims.proc ∧ t.seq = s.seq ∧ t.out = s.out
              let yields : Prop := s.port.notices.length ≤ 14 → noticeNow (.overcommitYield r) s ∈ t.port.notices
              let forcedOut : Prop := ∀ mode d, claimFor mode = some r → s.seq.phase = some .settled → s.seq.mode = some mode →
                s.seq.forcedPending = none → s.decision.last.desired = some d → d ≠ .defrost →
                let target := leaveTarget mode d
                RampsAway s (rampSet s.cfg s.decision.last target) → ForcedOut target s t
                  ∧ (procOf t r).state = .yielding ∧ (procOf t r).cause = some .overcommit
              (∀ cls n, m = .intent r amount cls n cap → s.claims.list.length < 32 ∨ findRecord s x.addr r ≠ none →
                  (valid ∧ cap < effective s r ∧ withinRun fallen r = false → yields ∧ forcedOut)
                    ∧ (¬(valid ∧ cap < effective s r ∧ withinRun fallen r = false) → stays))
                ∧ (m = .held r amount cap → (valid → effective s r ≤ cap) →
                  s.claims.list.length < 32 ∨ findRecord s x.addr r ≠ none →
                  (withinRun now r = false → yields ∧ forcedOut) ∧ (withinRun now r = true → stays))))

/-- An accepted BEACON makes or replaces its sender's peer record, and an accepted ALERT sets its fire flag and last-heard time alone; a
frame the filters reject, or an ALERT of an unknown peer, leaves the table; records of other addresses stand while there is room. At a
full table a newcomer displaces the STALE record heard longest ago, or, where all are FRESH, the one farthest in level if it is nearer
itself; a newcomer that displaces nobody is noticed once in tSTALE. A BEACON of the own shaft also reconciles its sender's claim records
with what it reports held, and carries its fire flag to the fire set, as an ALERT does. The first address of the fire set sets the shaft
freeze, which sends the own attempts back to IDLE with their requests waiting; the last to leave it ends the freeze. An accepted BEACON of
a member of the wait set, and the loss of a displaced member, bring the test that ends a FOLLOW_WAIT, as long as the reconciliation makes
no own claim yield. -/
def Obligations.BeaconsAndAlertsChangeThePeerTable : Prop :=
  (∀ (s : State) (level : Nat) (v : PeerRecord), PeersSound s.peers →
      let away (l : Nat) := (l - ownLevel s) + (ownLevel s - l)
      (peerVictim s level = some v ↔ v ∈ s.peers.records
        ∧ ((v.fresh = false ∧ ∀ w ∈ s.peers.records, w.fresh = false →
              v.lastHeard < w.lastHeard ∨ (v.lastHeard = w.lastHeard ∧ w.addr ≤ v.addr))
          ∨ ((∀ w ∈ s.peers.records, w.fresh = true
                ∧ (away w.level < away v.level ∨ (away w.level = away v.level ∧ w.addr ≤ v.addr)))
              ∧ away level < away v.level))))
    ∧ ∀ (s : State) (f : LineFrame) (x : RiserFrame), readRiser f = some x → s.port.closed = true → s.port.restarting = false →
    s.link.state ≠ .offline → x.addr ≠ ownAddr s →
    (∀ b, readBody x = some (.beacon b) → ∃ t, exec (.frameReceived f) s = .next t
        ∧ t.link.sequence = s.link.sequence + 1
        ∧ (filtersAccept s.cfg true x.shaft b.level = false → t.peers = s.peers)
        ∧ (filtersAccept s.cfg true x.shaft b.level = true →
            let record (heard : Nat) : PeerRecord :=
              { addr := x.addr, shaft := x.shaft, level := b.level, cls := b.cls, follow := b.follow, mode := b.mode, phase := b.phase
                fire := b.fire, obsT := b.probeT, obsW := b.probeW, quality := b.quality, lastBeacon := s.now, lastHeard := s.now
                beaconsHeard := heard, fresh := true }
            let full : NoticeBody := .peerTableFull x.addr b.level
            let fullNoticed : Prop := ∃ y, s.peers.lastFull = some y ∧ s.now < y + s.cfg.line.tSTALE * 1000
            t.peers.lastFull = (if findPeer s x.addr = none ∧ 32 ≤ s.peers.records.length ∧ peerVictim s b.level = none ∧ ¬fullNoticed
                then some s.now else s.peers.lastFull)
              ∧ (∀ old, findPeer s x.addr = some old →
                  (PeersSound s.peers → findPeer t x.addr = some (record (min 255 (old.beaconsHeard + 1))))
                ∧ ∀ a, a ≠ x.addr → findPeer t a = findPeer s a)
              ∧ (findPeer s x.addr = none → s.peers.records.length < 32 → findPeer t x.addr = some (record 1)
                  ∧ ∀ a, a ≠ x.addr → findPeer t a = findPeer s a)
              ∧ (∀ v, findPeer s x.addr = none → 32 ≤ s.peers.records.length → peerVictim s b.level = some v →
                  findPeer t x.addr = some (record 1) ∧ findPeer t v.addr = none
                    ∧ ∀ a, a ≠ x.addr → a ≠ v.addr → findPeer t a = findPeer s a)
              ∧ (findPeer s x.addr = none → 32 ≤ s.peers.records.length → peerVictim s b.level = none →
                  t.peers.records = s.peers.records
                    ∧ (¬fullNoticed → completionDue s = false → (x.shaft ≠ ownShaft s → HasRoom s → Posted full s t)
                        ∧ (s.port.notices.length ≤ 8 → noticeNow full s ∈ t.port.notices))
                    ∧ (fullNoticed → ∀ n ∈ t.port.notices, n ∈ s.port.notices ∨ n.body ≠ full)))
        ∧ (let numbered := s.setLink { s.link with sequence := s.link.sequence + 1 }
           let stands : Prop := completionDue s = false ∧ (x.shaft ≠ ownShaft s ∨ (∀ r, (procOf s r).state ≠ .held)
             ∨ (takeBeaconClaims x.addr (s.link.sequence + 1) b numbered).2 = [])
           let victim : Option Nat := if (findPeer s x.addr).isNone && decide (32 ≤ s.peers.records.length)
             then (peerVictim s b.level).map (·.addr) else none
           let accepted : Prop := filtersAccept s.cfg true x.shaft b.level = true
             ∧ (findPeer s x.addr ≠ none ∨ s.peers.records.length < 32 ∨ victim ≠ none)
           let follows (a : Nat) : Prop := accepted ∧ s.seq.phase = some .followWait ∧ a ∈ s.seq.waitSet
           let gone (a : Nat) : Prop := victim = some a
           (stands → (follows x.addr ∨ ∃ a ∈ s.seq.waitSet, gone a ∧ follows a) →
              WaitTested (s.seq.waitSet.filter fun a => decide (¬gone a)) s t)
             ∧ (stands → ¬follows x.addr → (∀ a ∈ s.seq.waitSet, gone a → ¬follows a) → t.seq = s.seq ∧ t.out = s.out)
             ∧ (stands → x.shaft = ownShaft s → b.fire = true → s.seq.phase ≠ some .followWait →
                (s.claims.fireSet = [] → (∀ r, FreezeTaken r s t)
                    ∧ (s.port.notices.length ≤ 12 → noticeNow (.shaftFreezeOn x.addr) s ∈ t.port.notices))
                  ∧ (s.claims.fireSet ≠ [] → ∀ r, (procOf t r).state = (procOf s r).state ∧ claimIn t r = claimIn s r)))
        ∧ (x.shaft ≠ ownShaft s → t.claims.fireSet = s.claims.fireSet
            ∧ ∀ a r, a ≠ ownAddr s → findRecord t a r = findRecord s a r)
        ∧ (x.shaft = ownShaft s →
            (b.fire = true → (x.addr, s.now) ∈ t.claims.fireSet ∧ t.claims.freeze = true)
              ∧ (b.fire = false → x.addr ∉ t.claims.fireSet.map (·.1))
              ∧ ∀ r,
                let units := unitsHeld b r
                let room : Prop := s.claims.list.length < 32 ∨ ∀ q, findRecord s x.addr q = none → unitsHeld b q = 0
                (∀ c, room ∨ c.held = true → findRecord s x.addr r = some c →
                    (units = 0 → findRecord t x.addr r = if c.held = true then none else some { c with cls := b.cls })
                      ∧ (units ≠ 0 → findRecord t x.addr r = some { c with
                          cls := b.cls, held := true, refreshed := s.now
                          amount := match r with | .relief => units | .defrost => c.amount }))
                  ∧ (findRecord s x.addr r = none → units = 0 → findRecord t x.addr r = none)
                  ∧ (findRecord s x.addr r = none → units ≠ 0 → s.claims.list.length < 31 → findRecord t x.addr r = some {
                      addr := x.addr, res := r, amount := units, held := true, cls := b.cls, seq := s.link.sequence + 1
                      capacity := none, refreshed := s.now })
                  ∧ (s.claims.list.length < 31 → ∀ a, a ≠ ownAddr s → a ≠ x.addr → findRecord t a r = findRecord s a r)))
      ∧ (∀ y, readBody x = some (.alert y) → ∃ t, exec (.frameReceived f) s = .next t
          ∧ t.link.sequence = s.link.sequence + 1
          ∧ (filtersAccept s.cfg false x.shaft y.level = false ∨ findPeer s x.addr = none → t.peers = s.peers)
          ∧ (∀ old, filtersAccept s.cfg false x.shaft y.level = true → findPeer s x.addr = some old →
              findPeer t x.addr = some { old with fire := y.fireOn, lastHeard := s.now }
                ∧ ∀ a, a ≠ x.addr → findPeer t a = findPeer s a)
          ∧ (x.shaft ≠ ownShaft s → t = (s.setLink { s.link with sequence := s.link.sequence + 1 }).setPeers t.peers)
          ∧ (x.shaft = ownShaft s → t.seq = s.seq ∧ t.out = s.out ∧ t.claims.list = s.claims.list
              ∧ (y.fireOn = true → x.addr ∈ t.claims.fireSet.map (·.1) ∧ t.claims.freeze = true
                  ∧ (s.claims.fireSet = [] → (∀ r, FreezeTaken r s t) ∧ (HasRoom s → Posted (.shaftFreezeOn x.addr) s t))
                  ∧ (s.claims.fireSet ≠ [] → t.claims.proc = s.claims.proc ∧ t.port = s.port
                      ∧ t.link.claimSlot = s.link.claimSlot))
              ∧ (y.fireOn = false → x.addr ∉ t.claims.fireSet.map (·.1)
                  ∧ (s.claims.fireSet ≠ [] → t.claims.fireSet = [] → t.claims.freeze = false ∧ (∀ r, FreezeEnded r s t)
                      ∧ (HasRoom s → Posted .shaftFreezeOff s t))
                  ∧ (s.claims.fireSet = [] ∨ t.claims.fireSet ≠ [] → t.claims.proc = s.claims.proc ∧ t.port = s.port
                      ∧ t.link.claimSlot = s.link.claimSlot))))

/-- A frame that is no riser frame, or that comes before close or while OFFLINE, does nothing at all; one with the own address clashes,
with the notice ADDRESS_CLASH, which forces a station out of FREE and of DEFROST, unless a forced leave is pending already; a further one
while CLASHED is numbered and goes no further, and so does a frame of another address while a RESTART waits; a receive error disturbs both
own processes. That the target kept in a suspension record counts as that of the transition in progress is deduced (log entry 12). That the
present mode's leave is taken first where both modes are affected is the model's choice (log entry 26), and so is that the candidate stands
while RAMPING out of the affected mode (log entry 30). -/
def Obligations.ClashesAndIgnoredFrames : Prop :=
  ∀ (s : State) (f : LineFrame),
    let numbered := s.setLink { s.link with sequence := s.link.sequence + 1 }
    let heard : Prop := s.port.closed = true ∧ s.link.state ≠ .offline
    (readRiser f = none ∨ ¬heard → exec (.frameReceived f) s = .next s)
      ∧ (∀ x, readRiser f = some x → heard → x.addr ≠ ownAddr s → s.port.restarting = true →
          exec (.frameReceived f) s = .next numbered)
      ∧ (∀ x, readRiser f = some x → heard → x.addr ≠ ownAddr s → readBody x = none → exec (.frameReceived f) s = .next numbered)
      ∧ (∀ x, readRiser f = some x → heard → x.addr = ownAddr s → s.link.state = .clashed →
          exec (.frameReceived f) s = .next numbered)
      ∧ (∀ x, readRiser f = some x → heard → x.addr = ownAddr s → s.link.state ≠ .clashed →
          ∃ t, exec (.frameReceived f) s = .next t ∧ t.link.state = .clashed ∧ t.link.sequence = s.link.sequence + 1
            ∧ t.link.beaconSlot = none ∧ t.link.alertSlot = none ∧ t.link.claimSlot = ⟨none, none⟩ ∧ t.link.attempt = none
            ∧ t.link.joinTimer = none ∧ t.link.beaconTimer = none ∧ t.link.quietTimer = none ∧ t.link.failCount = 0
            ∧ t.peers = s.peers
            ∧ (∀ r, (procOf s r).state = .pending ∨ (procOf s r).state = .holdoff ∨ (procOf s r).state = .committing
                ∨ (procOf s r).state = .backoff ∨ (procOf s r).state = .releasing → (procOf t r).state = .idle)
            ∧ (s.port.restarting = true → HasRoom s → Posted (.addressClash (ownAddr s) x.kind x.shaft) s t
                ∧ ∀ r, (procOf s r).state = .held → (procOf t r).state = .yielding ∧ (procOf t r).cause = some .clash)
            ∧ (HasRoom s → noticeNow (.addressClash (ownAddr s) x.kind x.shaft) s ∈ t.port.notices)
            ∧ (s.port.restarting = false → completionDue s = false → LinkLossForces s t))
      ∧ (¬heard ∨ s.port.restarting = true → exec .receiveError s = .next s)
      ∧ (heard → s.port.restarting = false → exec .receiveError s = .next (s.setClaims { s.claims with
          proc := ⟨{ procOf s .relief with disturbed := true }, { procOf s .defrost with disturbed := true }⟩ }))

/-! ## Frames sent -/

/-- An attempt offers the frame of the lowest identifier, then the one queued earlier, then the RELIEF slot's; the frames on offer are
those of the four slots, each with its kind's urgency, an ALERT with the code and a BEACON with the fields of its owners' state now, an
absent probe being sent as temperature 8000 hex, quality ABSENT and humidity ratio 0; a lost arbitration ends it and nothing else; a
failure counts, and the sixteenth of the same frame takes the link to QUIET with the notice LINK_QUIET, where both own processes are
disturbed and INTENTs are given up: their processes back off, or starve after the last attempt, which abandons a transition that waited for
the claim. That an attempt's outcome does nothing while no attempt is in progress is the model's choice (log entry 7). -/
def Obligations.AttemptsOfferTheLowestFrameAndCountFailures : Prop :=
  ∀ s : State,
    let ended := { s.link with
      attempt := none
      beaconMark := s.link.beaconMark && (s.link.attempt.map (·.slot)) != some .beacon
      alertMark := s.link.alertMark && (s.link.attempt.map (·.slot)) != some .alert }
    let ready : Prop := s.port.closed = true ∧ s.link.state = .online ∧ s.link.attempt = none ∧ offers s ≠ []
    let ident (urgency kind : Nat) := urgency * 2 ^ 26 + kind * 2 ^ 22 + ownShaft s * 2 ^ 19 + ownAddr s * 2 ^ 13
    let claimIdent (m : ClaimMsg) :=
      match m with
      | .withdraw .. => ident 1 4
      | .release .. => ident 1 5
      | .held .. => ident 2 3
      | .intent .. => ident 3 2
    let b := beaconNow s
    let reports (r : Resource) : Prop :=
      (procOf s r).state = .held ∨ (procOf s r).state = .yielding ∨ (procOf s r).state = .releasing
    (∀ o, o ∈ offers s ↔
        (∃ q, s.link.alertSlot = some q ∧ o = ⟨ident 0 6, q, .alert, .alert ⟨s.out.fireFiltered, ownLevel s⟩⟩)
          ∨ (∃ q, s.link.claimSlot.relief = some q ∧ o = ⟨claimIdent q.msg, q.queuedAt, .relief, .claim q.msg⟩)
          ∨ (∃ q, s.link.claimSlot.defrost = some q ∧ o = ⟨claimIdent q.msg, q.queuedAt, .defrost, .claim q.msg⟩)
          ∨ (∃ q, s.link.beaconSlot = some q ∧ o = ⟨ident 5 1, q, .beacon, .beacon b⟩))
      ∧ (∀ o ∈ offers s, (lineFrame (ownShaft s) (ownAddr s) o.body).ident = BitVec.ofNat 29 o.ident)
      ∧ (∀ m, s.seq.mode = some m → b.mode = m) ∧ (∀ p, s.seq.phase = some p → b.phase = p) ∧ b.fire = s.out.fireFiltered
      ∧ b.level = ownLevel s ∧ b.cls = s.cfg.ident.cls ∧ b.follow = s.cfg.follow.follow
      ∧ (reports .relief → b.reliefUnits = s.cfg.claims.reliefUnits) ∧ (¬reports .relief → b.reliefUnits = 0)
      ∧ (b.defrostHeld = true ↔ reports .defrost) ∧ b.quality = ownQuality s
      ∧ (ownQuality s ≠ .absent → b.probeT = s.port.meas.probeT.value ∧ b.probeW = s.port.meas.probeW.value)
      ∧ (ownQuality s = .absent → b.probeT = none ∧ b.probeW = none ∧ ((beaconBytes b).drop 2).take 4 = [0x80, 0, 0x80, 0])
      ∧ (¬ready → exec .transmitAttemptStart s = .next s)
      ∧ (ready → ∃ o ∈ offers s,
          exec .transmitAttemptStart s = .next (s.setLink { s.link with attempt := some { slot := o.slot, body := o.body } })
            ∧ ∀ x ∈ offers s, o.ident < x.ident ∨ (o.ident = x.ident ∧ (o.queuedAt < x.queuedAt
                ∨ (o.queuedAt = x.queuedAt ∧ (o.slot = .relief ∨ x.slot ≠ .relief)))))
      ∧ exec .arbitrationLost s = .next (s.setLink (if s.link.attempt = none then s.link else ended))
      ∧ (s.link.attempt = none → exec .transmitFailure s = .next s)
      ∧ ∀ a, s.link.attempt = some a →
        let n := if s.link.failSlot = some a.slot then s.link.failCount + 1 else 1
        (n < 16 → exec .transmitFailure s = .next (s.setLink { ended with failCount := n, failSlot := some a.slot }))
          ∧ (16 ≤ n → ∃ t, exec .transmitFailure s = .next t ∧ t.link.state = .quiet ∧ t.link.attempt = none
              ∧ t.link.failCount = 0 ∧ t.link.quietTimer = some (s.now + s.cfg.line.tQUIET * 1000)
              ∧ t.link.beaconTimer = s.link.beaconTimer ∧ t.link.alertSlot = s.link.alertSlot ∧ t.peers = s.peers
              ∧ (HasRoom s → noticeNow (.linkQuiet (bodyKind a.body)) s ∈ t.port.notices)
              ∧ (completionDue s = false → s.seq.phase ≠ some .claiming →
                  (∀ r, isIntent (claimIn s r) = true → claimIn t r = none)
                    ∧ (∀ r, isIntent (claimIn s r) = false → claimIn t r = claimIn s r)
                    ∧ (∀ r, (procOf s r).state ≠ .pending → (procOf t r).state = (procOf s r).state)
                    ∧ (∀ r, (procOf s r).state = .pending → (procOf t r).state
                        = if (procOf s r).attempt < s.cfg.claims.maxTries then .backoff else .starved)
                    ∧ t.seq = s.seq ∧ t.out = s.out)
              ∧ (s.link.state = .online → ∀ r, (procOf t r).disturbed = true)
              ∧ (∀ r, (procOf s r).state = .pending →
                  let p := procOf s r
                  let last : Prop := s.cfg.claims.maxTries ≤ p.attempt
                  (isIntent (claimIn s r) = true → claimIn t r = none)
                    ∧ (¬last → (procOf t r).state = .backoff ∧ (procOf t r).timer
                        = some (s.now + (s.cfg.claims.tBACK * 1000 * p.attempt + ownAddr s % 8 * 250)))
                    ∧ (last → (procOf t r).state = .starved ∧ (procOf t r).timer = some (s.now + s.cfg.claims.tLOCK * 1000))
                    ∧ ∀ x, completionDue s = false → s.seq.phase = some .claiming → s.seq.transition = some x →
                      claimFor x.target = some r →
                      (¬last → t.seq = s.seq ∧ t.out = s.out)
                        ∧ (last → s.port.closed = true → s.port.restarting = false → OnlyDesires x.target s → NoExitWaits s →
                          t.seq = settledSeq s.seq ∧ t.out = s.out
                            ∧ (s.port.notices.length ≤ 12 → noticeNow (.transitionAbandoned x.target) s ∈ t.port.notices))))

/-- The success of an own frame takes the next sequence number, ends the attempt and clears the failure count; then an INTENT
starts the hold-off; a HELD within the overcommit run is granted, and a transition that waited for the claim goes on to FOLLOW_WAIT or
RAMPING, while one outside the run yields without a grant and the transition is cancelled, the own claim ranked last where a full list
kept it out; a RELEASE frees the process, its waiting request left with it; a BEACON reconciles the own claim records with what it
reports held, and an own claim that is outside the run then yields; and a BEACON or ALERT asked for meanwhile is queued anew. That an
attempt's outcome does nothing while no attempt is in progress is the model's choice (log entry 7), and so is the check at the appearance
of a HELD that a full list kept out (log entry 23). That the grant's or the
yield's notice stands first among the event's is deduced (log entry 13), and so is that the waiting request stays in IDLE with request when
the RELEASE appears (log entry 8). -/
def Obligations.OwnFramesAppearAndMoveTheirProcess : Prop :=
  ∀ s : State,
    (s.link.attempt = none → exec .transmitSuccess s = .next s)
      ∧ ∀ a, s.link.attempt = some a → ∃ t, exec .transmitSuccess s = .next t
        ∧ t.link.sequence = s.link.sequence + 1 ∧ t.link.attempt = none ∧ t.link.failCount = 0
        ∧ t.link.state = s.link.state ∧ t.peers = s.peers ∧ t.decision = s.decision
        ∧ (completionDue s = false →
            (∀ r amount cls n cap, a.body = .claim (.intent r amount cls n cap) → a.slot = slotOf r → s.port.restarting = false →
                (procOf s r).state = .pending → s.claims.list.length < 32 ∨ findRecord s (ownAddr s) r ≠ none →
                procOf t r = { procOf s r with
                    state := .holdoff, disturbed := false, timer := some (s.now + s.cfg.claims.tHOLD) }
                  ∧ claimIn t r = none
                  ∧ ((findRecord t (ownAddr s) r).map fun c => (c.held, c.seq)) = some (false, s.link.sequence + 1))
              ∧ (∀ r amount cap, a.body = .claim (.held r amount cap) → a.slot = slotOf r → s.port.closed = true →
                  s.port.restarting = false →
                  (procOf s r).state = .committing → (capacityOk r cap = true → effective s r ≤ cap) →
                  let now := listHeld (ownAddr s) (s.link.sequence + 1) r amount cap s
                  let listed : Prop := findRecord now (ownAddr s) r ≠ none
                  let posted (b : NoticeBody) : Prop := HasRoom s → (capacityOk r cap = true → ownCapacity s.cfg r ≤ cap) →
                    ∃ rest, t.port.notices = s.port.notices ++ noticeNow b s :: rest
                  let among (b : NoticeBody) : Prop := s.port.notices.length ≤ 12 → noticeNow b s ∈ t.port.notices
                  (withinRun now r = true → (listed → posted (.claimGranted r)) ∧ among (.claimGranted r)
                      ∧ (s.seq.phase ≠ some .claiming → (procOf t r).state = .held ∧ t.seq = s.seq ∧ t.out = s.out))
                    ∧ (withinRun now r = false → (procOf t r).state ≠ .held
                      ∧ (listed → posted (.overcommitYield r)) ∧ among (.overcommitYield r)
                      ∧ ∀ n ∈ t.port.notices, n ∈ s.port.notices ∨ n.body ≠ .claimGranted r)
                    ∧ ∀ x, s.seq.phase = some .claiming → s.seq.transition = some x → claimFor x.target = some r →
                      let wait := chooseWaitSet s
                      let waits : Prop := x.forced = false ∧ rampingMembers s wait ≠ []
                      (withinRun now r = true → waits →
                          t.seq = { s.seq with
                              phase := some .followWait, waitSet := wait
                              followTimer := some (s.now + s.cfg.follow.tFOLLOW * 1000) }
                            ∧ t.out = s.out ∧ (procOf t r).state = .held)
                        ∧ (withinRun now r = true → ¬waits → RampsAway s (rampSet s.cfg s.decision.last x.target) →
                          RampingTo x.target x.forced s.seq (nextPosting s.out.posting) s t ∧ (procOf t r).state = .held)
                        ∧ (withinRun now r = false → s.seq.mode ≠ some x.target → s.seq.forcedPending = none → NoExitWaits s →
                          t.seq = settledSeq { s.seq with candidate := none, count := 0 } ∧ t.out = s.out
                            ∧ (procOf t r).state = .releasing
                            ∧ (s.link.state ≠ .clashed → claimIn t r = some (.release r .yield)))
                        ∧ (withinRun now r = false → s.seq.forcedPending ≠ none →
                          t.seq = s.seq ∧ t.out = s.out ∧ (procOf t r).state = .yielding))
              ∧ (∀ r why, a.body = .claim (.release r why) → a.slot = slotOf r → (procOf s r).state = .releasing →
                  (procOf t r).state = .idle ∧ (procOf t r).attempt = 0 ∧ (procOf t r).request = (procOf s r).request
                    ∧ findRecord t (ownAddr s) r = none ∧ claimIn t r = none)
              ∧ (∀ r why, a.body = .claim (.withdraw r why) → a.slot = slotOf r → s.port.restarting = false →
                  findRecord t (ownAddr s) r = none ∧ claimIn t r = none ∧ t.claims.proc = s.claims.proc)
              ∧ (∀ b, a.body = .beacon b → a.slot = .beacon → t.link.beaconMark = false
                  ∧ (s.link.beaconMark = false → (∀ r, (procOf s r).state ≠ .held) → t.link.beaconSlot = none ∧ t.seq = s.seq)
                  ∧ (s.link.beaconMark = true → s.port.restarting = false → s.link.state = .online ∨ s.link.state = .quiet →
                      t.link.beaconSlot = some s.now)
                  ∧ (s.port.restarting = true → t.claims = s.claims)
                  ∧ (s.port.restarting = false →
                    let me := ownAddr s
                    let numbered := s.setLink { s.link with sequence := s.link.sequence + 1 }
                    let stands : Prop := (∀ r, (procOf s r).state ≠ .held)
                      ∨ (takeBeaconClaims me (s.link.sequence + 1) b numbered).2 = []
                    (stands → t.seq = s.seq ∧ t.out = s.out)
                      ∧ (stands → s.claims.list.length < 31 → t.claims.proc = s.claims.proc ∧ t.port = s.port
                          ∧ ∀ o r, o ≠ me → findRecord t o r = findRecord s o r)
                      ∧ ∀ r,
                        let units := unitsHeld b r
                        let renewed (c : ClaimRecord) : ClaimRecord := { c with
                          cls := b.cls, held := true, refreshed := s.now, amount := match r with | .relief => units | .defrost => c.amount }
                        let now := s.setClaims { s.claims with list := s.claims.list.map fun c =>
                          if c.addr ≠ me then c else if c.res = r then renewed c else { c with cls := b.cls } }
                        (stands → ∀ c, findRecord s me r = some c →
                            (units = 0 → findRecord t me r = if c.held = true then none else some { c with cls := b.cls })
                              ∧ (units ≠ 0 → findRecord t me r = some (renewed c)))
                          ∧ (stands → findRecord s me r = none → units = 0 → findRecord t me r = none)
                          ∧ (stands → findRecord s me r = none → units ≠ 0 → s.claims.list.length < 31 → findRecord t me r = some {
                              addr := me, res := r, amount := units, held := true, cls := b.cls, seq := s.link.sequence + 1
                              capacity := none, refreshed := s.now })
                          ∧ ((procOf s r).state = .held → findRecord s me r ≠ none → units ≠ 0 → withinRun now r = false →
                              (procOf t r).state ≠ .held
                                ∧ (s.port.notices.length ≤ 12 → noticeNow (.overcommitYield r) s ∈ t.port.notices))))
              ∧ (∀ y, a.body = .alert y → a.slot = .alert → t.seq = s.seq ∧ t.claims = s.claims
                  ∧ (s.link.alertMark = false → t.link.alertSlot = none)
                  ∧ (s.link.alertMark = true → s.port.restarting = false → s.link.state = .online → t.link.alertSlot = some s.now)))

/-- The quiet period ends in ONLINE with LINK_RESTORED; the joining period ends in ONLINE with a BEACON queued, the beacon timer
started and an evaluation; each beacon period queues a BEACON and starts again. That the event does nothing while it is not due
is the model's choice (log entry 7). -/
def Obligations.LinkTimersAct : Prop :=
  ∀ s : State,
    (quietDue s = false → exec .quietTimerExpiry s = .next s)
      ∧ (s.link.state = .quiet → (∃ x, s.link.quietTimer = some x ∧ x ≤ s.now) → ∃ t, exec .quietTimerExpiry s = .next t
          ∧ t = (s.setLink { s.link with state := .online, quietTimer := none, failCount := 0, failSlot := none }).setPort t.port
          ∧ (HasRoom s → Posted .linkRestored s t))
      ∧ (joiningDue s = false → exec .joiningTimerExpiry s = .next s)
      ∧ (s.link.state = .joining → (∃ x, s.link.joinTimer = some x ∧ x ≤ s.now) → ∃ t, exec .joiningTimerExpiry s = .next t
          ∧ t.link.state = .online ∧ t.link.joinTimer = none
          ∧ t.link.beaconTimer = some (s.now + s.cfg.line.tBCN * 1000)
          ∧ (s.link.attempt = none → s.port.restarting = false → t.link.beaconSlot = some s.now)
          ∧ (s.port.closed = true → s.port.restarting = false → t.decision.counter = s.decision.counter + 1
              ∧ t.decision.timer = s.decision.timer)
          ∧ (s.port.closed = false ∨ s.port.restarting = true → t.decision = s.decision))
      ∧ (beaconDue s = false → exec .beaconTimerExpiry s = .next s)
      ∧ ((∃ x, s.link.beaconTimer = some x ∧ x ≤ s.now) → ∃ t, exec .beaconTimerExpiry s = .next t
          ∧ t = s.setLink t.link ∧ t.link.beaconTimer = some (s.now + s.cfg.line.tBCN * 1000)
          ∧ (s.port.restarting = false → s.link.state = .online ∨ s.link.state = .quiet →
              (∀ a, s.link.attempt = some a → a.slot ≠ .beacon) → t.link.beaconSlot = some s.now
                ∧ t.link.attempt = s.link.attempt)
          ∧ (∀ a, s.port.restarting = false → s.link.state = .online → s.link.attempt = some a → a.slot = .beacon →
              t.link.beaconMark = true ∧ t.link.attempt = s.link.attempt ∧ t.link.beaconSlot = s.link.beaconSlot))

/-! ## Ages, stall and rotation -/

/-- A peer record goes STALE tSTALE after its last BEACON and is removed with PEER_LOST tEXPIRE after it was last heard; either drops the
peer from the wait set, and the FOLLOW_WAIT ends in RAMPING when no member left in the set reports RAMPING, and goes on otherwise. A
measurement that turns stale is noticed once, where BASIS needs it. That the event does nothing while it is not due is the
model's choice (log entry 7). -/
def Obligations.PeerRecordsAndMeasurementsAge : Prop :=
  ∀ s : State,
    let waits (a : Nat) : Prop := s.seq.phase = some .followWait ∧ a ∈ s.seq.waitSet
    (∀ a, (staleDue s a = false → exec (.peerStale a) s = .next s)
        ∧ (∀ p, s.port.closed = true → s.port.restarting = false → findPeer s a = some p → p.fresh = true →
            p.lastBeacon + s.cfg.line.tSTALE * 1000 ≤ s.now →
            ∃ t, exec (.peerStale a) s = .next t ∧ findPeer t a = some { p with fresh := false }
              ∧ (∀ b, b ≠ a → findPeer t b = findPeer s b)
              ∧ (s.seq.phase = some .followWait → a ∉ t.seq.waitSet)
              ∧ (completionDue s = false → waits a → WaitTested (s.seq.waitSet.filter (· != a)) s t)
              ∧ (completionDue s = false → ¬waits a → t.seq = s.seq ∧ t.out = s.out)
              ∧ (completionDue s = false → s.seq.phase ≠ some .followWait → t = s.setPeers t.peers))
        ∧ (lostDue s a = false → exec (.peerLost a) s = .next s)
        ∧ (∀ p, s.port.closed = true → s.port.restarting = false → findPeer s a = some p →
            p.lastHeard + s.cfg.line.tEXPIRE * 1000 ≤ s.now →
            ∃ t, exec (.peerLost a) s = .next t ∧ findPeer t a = none ∧ (∀ b, b ≠ a → findPeer t b = findPeer s b)
              ∧ (completionDue s = false → waits a → WaitTested (s.seq.waitSet.filter (· != a)) s t)
              ∧ (completionDue s = false → ¬waits a → t.seq = s.seq ∧ t.out = s.out)
              ∧ (completionDue s = false → s.seq.phase ≠ some .followWait →
                  t = (s.setPeers t.peers).setPort t.port ∧ (HasRoom s → Posted (.peerLost a .expired) s t))))
      ∧ ∀ ch,
        let m := measOf s.port.meas ch
        (lapseDue s ch = false → exec (.measurementStale ch) s = .next s)
          ∧ ∀ v x, m.value = some v → m.arrival = some x → m.lapsed = false → x + s.cfg.band.tMEASAGE * 1000 ≤ s.now →
            ∃ t, exec (.measurementStale ch) s = .next t ∧ t = s.setPort t.port
              ∧ t.port.meas = setMeas s.port.meas ch { m with lapsed := true } ∧ fresh t ch = false
              ∧ ((ch = .returnT ∨ (ch = .returnW ∧ s.cfg.decision.basis ≠ .drybulb)) → HasRoom s →
                  Posted (.measurementStale ch v) s t)
              ∧ (¬(ch = .returnT ∨ (ch = .returnW ∧ s.cfg.decision.basis ≠ .drybulb)) → t.port.notices = s.port.notices)

/-- The stall timer's expiry makes STALL ACTIVE with tSTALL as its value; a rotation pulse that outlasts ROT_FILTER starts a
running stall timer again and counts, and each PPR of them is one revolution whose period is latched from the second wrap on.
That the event does nothing while it is not due is the model's choice (log entry 7). -/
def Obligations.StallIsFoundAndRotationCounted : Prop :=
  ∀ s : State,
    let l := s.limits
    (stallDue s = false → exec .stallTimerExpiry s = .next s)
      ∧ ((∃ x, l.stallTimer = some x ∧ x ≤ s.now) → ∃ t, exec .stallTimerExpiry s = .next t
          ∧ t.limits.stall = .active s.cfg.limits.tSTALL .stallPeriod ∧ t.limits.stallTimer = none
          ∧ t.limits.supplyLow = l.supplyLow ∧ t.limits.frostTrip = l.frostTrip ∧ t.limits.ring = l.ring
          ∧ t.limits.revCount = l.revCount ∧ t.limits.posted = combinedGuards s.cfg t.limits ∧ t.limits.hold = holdNow s.cfg t.limits
          ∧ (s.out.completionPending = false → l.hold = false → HasRoom s →
              t.seq = s.seq ∧ t.claims = s.claims
                ∧ if s.cfg.limits.stallAct = .ignore then t.port.notices = s.port.notices
                  else Posted (.limitTripped .stall s.cfg.limits.tSTALL .stallPeriod s.cfg.limits.stallAct) s t))
      ∧ (∀ level, exec (.rotPinChange level) s = .next ((s.setRotPin level).setLimits { l with
          rotSince := if level = s.rotPin then l.rotSince else if level = l.rotFiltered then none else some s.now }))
      ∧ (rotFilterDue s = true ↔ ∃ x, l.rotSince = some x ∧ x + s.cfg.limits.rotFilter ≤ s.now)
      ∧ (rotFilterDue s = false → exec .rotFilterExpiry s = .next s)
      ∧ (rotFilterDue s = true → (s.rotPin = false ∨ l.rotFiltered = true) →
          exec .rotFilterExpiry s = .next (s.setLimits { l with rotFiltered := s.rotPin, rotSince := none }))
      ∧ (rotFilterDue s = true → s.rotPin = true → l.rotFiltered = false →
          let pulsed := { l with
            rotFiltered := true, rotSince := none
            stallTimer := l.stallTimer.map fun _ => s.now + s.cfg.limits.tSTALL * 1000 }
          (l.ring + 1 < s.cfg.limits.ppr → exec .rotFilterExpiry s = .next (s.setLimits { pulsed with ring := l.ring + 1 }))
            ∧ (s.cfg.limits.ppr ≤ l.ring + 1 → exec .rotFilterExpiry s = .next (s.setLimits { pulsed with
                ring := 0, revCount := l.revCount + 1, lastWrap := some s.now
                revPeriod := match l.lastWrap with | none => l.revPeriod | some x => some (min 65535 (s.now - x)) })))

/-! ## Filters and guards -/

/-- A slot gives its match or, inverted, the reverse, and nothing while disabled; a joined slot needs the slot before it, FILT0 the own
shaft; a frame is accepted when the final result of some chain end is true. -/
def Obligations.FilterSlotsChainAndAccept : Prop :=
  (∀ (shaft0 level0 : Nat) (f : FilterRecord) (beacon : Bool) (shaft level : Nat),
      let distance := (level - level0) + (level0 - level)
      let tests : Prop := (if beacon = true then f.beacons = true else f.alerts = true)
        ∧ (match f.selector with | .own => shaft = shaft0 | .any => True | .number k => shaft = k)
        ∧ (match f.window with | .relative span => distance ≤ span | .absolute lo hi => lo ≤ level ∧ level ≤ hi)
      let result := slotResult shaft0 level0 f beacon shaft level
      (f.enable = false → result = false)
        ∧ (f.enable = true → f.inverse = false → (result = true ↔ tests))
        ∧ (f.enable = true → f.inverse = true → (result = true ↔ ¬tests)))
    ∧ ∀ (c : Settings) (beacon : Bool) (shaft level : Nat) (final : Fin 4 → Bool),
      let shaft0 := c.ident.shaft.getD 0
      let result (n : Fin 4) := slotResult shaft0 (c.ident.level.getD 0) (getFilter c n) beacon shaft level
      let join (n : Fin 4) := (getFilter c n).join
      (final 0 = true ↔ result 0 = true ∧ (join 0 = true → shaft = shaft0)) →
      (∀ n : Fin 4, n ≠ 0 → (final n = true ↔ result n = true ∧ (join n = true → final (n - 1) = true))) →
        (filtersAccept c beacon shaft level = true ↔ ∃ n : Fin 4, (n = 3 ∨ join (n + 1) = false) ∧ final n = true)

/-- An ACTIVE limit under GUARD_STOP or GUARD_RAMP has its channel demands, IMMEDIATE or SLEWED; no other limit has any. A channel
takes the demand of the first of STALL, FROST_TRIP and SUPPLY_LOW that has one. -/
def Obligations.GuardDemandsOfActiveLimits : Prop :=
  ∀ (c : Settings) (l : Limits) (ch : Channel),
    let table (n : LimitName) : Option Nat := match n, ch with
      | .supplyLow, .oda => some c.outputs.oaMin
      | .supplyLow, .byp => some 0
      | .supplyLow, .whl => some 1000
      | .frostTrip, .oda => some c.outputs.oaMin
      | .frostTrip, .byp => some 1000
      | .frostTrip, .whl => some 1000
      | .stall, .oda => none
      | .stall, .byp => some 1000
      | .stall, .whl => some 0
    (∀ n, (limitOf l n = .clear ∨ actionOf c n = .ignore ∨ actionOf c n = .note ∨ actionOf c n = .hold → limitGuard c l n ch = none)
        ∧ (limitOf l n ≠ .clear → actionOf c n = .guardStop →
            limitGuard c l n ch = (table n).map fun v => { value := v, immediate := true })
        ∧ (limitOf l n ≠ .clear → actionOf c n = .guardRamp →
            limitGuard c l n ch = (table n).map fun v => { value := v, immediate := false }))
      ∧ (∀ g, limitGuard c l .stall ch = some g → combinedGuard c l ch = some g)
      ∧ (∀ g, limitGuard c l .stall ch = none → limitGuard c l .frostTrip ch = some g → combinedGuard c l ch = some g)
      ∧ (limitGuard c l .stall ch = none → limitGuard c l .frostTrip ch = none →
          combinedGuard c l ch = limitGuard c l .supplyLow ch)
end

