-- ==== Sys2Proof/Laws/Lists.lean ====
section
/-! SUPPORT. Lists kept in order: what inserting, removing and changing an entry do to the length, the members and the order. -/

namespace Sys2Proof.Machine

theorem insertBy_length (before : α → α → Bool) (x : α) (l : List α) : (insertBy before x l).length = l.length + 1 := by
  induction l with
  | nil => rfl
  | cons y rest ih => simp only [insertBy]; split <;> simp [ih]

theorem mem_insertBy (before : α → α → Bool) (x y : α) (l : List α) : y ∈ insertBy before x l ↔ y = x ∨ y ∈ l := by
  induction l with
  | nil => simp [insertBy]
  | cons z rest ih =>
    simp only [insertBy]; split
    · simp
    · simp only [List.mem_cons, ih]
      constructor
      · rintro (h | h | h) <;> simp [h]
      · rintro (h | h | h) <;> simp [h]

theorem insertBy_ne_nil (before : α → α → Bool) (x : α) (l : List α) : insertBy before x l ≠ [] := by
  cases l with
  | nil => simp [insertBy]
  | cons y rest => simp only [insertBy]; split <;> simp

/-- Inserting an entry that is comparable with every other keeps a strict order. -/
theorem insertBy_pairwise {before : α → α → Bool} (trans : ∀ a b c, before a b = true → before b c = true → before a c = true)
    {x : α} {l : List α} (hl : l.Pairwise fun a b => before a b = true)
    (hx : ∀ y ∈ l, before x y = true ∨ before y x = true) :
    (insertBy before x l).Pairwise fun a b => before a b = true := by
  induction l with
  | nil => simp [insertBy]
  | cons y rest ih =>
    simp only [insertBy]
    rw [List.pairwise_cons] at hl
    split
    next h =>
      refine List.pairwise_cons.2 ⟨fun z hz => ?_, List.pairwise_cons.2 hl⟩
      rcases List.mem_cons.1 hz with rfl | hz
      · exact h
      · exact trans _ _ _ h (hl.1 z hz)
    next h =>
      refine List.pairwise_cons.2 ⟨fun z hz => ?_, ih hl.2 fun w hw => hx w (List.mem_cons_of_mem _ hw)⟩
      rcases (mem_insertBy before x z rest).1 hz with rfl | hz
      · exact (hx y (List.mem_cons_self ..)).resolve_left h
      · exact hl.1 z hz

theorem firstBy_mem {before : α → α → Bool} {l : List α} {x : α} (h : firstBy before l = some x) : x ∈ l := by
  induction l generalizing x with
  | nil => simp [firstBy] at h
  | cons y rest ih =>
    simp only [firstBy] at h
    split at h
    · simp_all
    next z hz =>
      split at h
      · cases h; exact List.mem_cons_of_mem _ (ih hz)
      · cases h; exact List.mem_cons_self ..

/-- Removing a member that a test rejects shortens a list. -/
theorem filter_length_lt {p : α → Bool} {l : List α} {x : α} (hx : x ∈ l) (hp : p x = false) : (l.filter p).length < l.length := by
  induction l with
  | nil => cases hx
  | cons y rest ih =>
    rcases List.mem_cons.1 hx with rfl | h
    · simp only [List.filter_cons, hp, List.length_cons]
      exact Nat.lt_succ_of_le (List.length_filter_le ..)
    · have := ih h
      simp only [List.filter_cons]
      split
      · simp only [List.length_cons]; omega
      · simp only [List.length_cons]; omega

/-! ## The claim list's order (R207) -/

theorem recordBefore_trans (a b c : ClaimRecord) (h1 : recordBefore a b = true) (h2 : recordBefore b c = true) :
    recordBefore a c = true := by
  simp only [recordBefore, Bool.or_eq_true, Bool.and_eq_true, decide_eq_true_eq] at *
  rcases h1 with h1 | ⟨⟨h1, h1'⟩, h1''⟩ <;> rcases h2 with h2 | ⟨⟨h2, h2'⟩, h2''⟩
  · left; omega
  · left; omega
  · left; omega
  · simp_all

/-- Two records of different keys stand in order one way or the other. -/
theorem recordBefore_total (a b : ClaimRecord) (h : hasKey a.addr a.res b = false) :
    recordBefore a b = true ∨ recordBefore b a = true := by
  simp only [recordBefore, hasKey, Bool.or_eq_true, Bool.and_eq_true, decide_eq_true_eq, Bool.and_eq_false_iff,
    decide_eq_false_iff_not] at *
  by_cases e : a.addr = b.addr
  · have hr : b.res ≠ a.res := h.resolve_left (fun hn => hn e.symm)
    cases ha : a.res <;> cases hb : b.res <;> simp_all
  · omega

/-- A change that keeps every record's key keeps the order. -/
theorem map_pairwise_recordBefore {g : ClaimRecord → ClaimRecord} (hg : ∀ c, (g c).addr = c.addr ∧ (g c).res = c.res)
    {l : List ClaimRecord} (hl : l.Pairwise fun a b => recordBefore a b = true) :
    (l.map g).Pairwise fun a b => recordBefore a b = true := by
  rw [List.pairwise_map]
  refine hl.imp fun {a b} h => ?_
  simp only [recordBefore, (hg _).1, (hg _).2] at *
  exact h

end Sys2Proof.Machine
end

