-- ==== Sys2Proof/Laws/State.lean ====
section
/-! SUPPORT. One lemma per field per update of the state: what each replacement of one part leaves and sets. -/

namespace Sys2Proof.Machine

@[simp] theorem State.setPending_pending (s : State) (q : List Instr) : (s.setPending q).pending = q := rfl
@[simp] theorem State.setPending_now (s : State) (q : List Instr) : (s.setPending q).now = s.now := rfl
@[simp] theorem State.setPending_firePin (s : State) (q : List Instr) : (s.setPending q).firePin = s.firePin := rfl
@[simp] theorem State.setPending_rotPin (s : State) (q : List Instr) : (s.setPending q).rotPin = s.rotPin := rfl
@[simp] theorem State.setPending_port (s : State) (q : List Instr) : (s.setPending q).port = s.port := rfl
@[simp] theorem State.setPending_link (s : State) (q : List Instr) : (s.setPending q).link = s.link := rfl
@[simp] theorem State.setPending_peers (s : State) (q : List Instr) : (s.setPending q).peers = s.peers := rfl
@[simp] theorem State.setPending_band (s : State) (q : List Instr) : (s.setPending q).band = s.band := rfl
@[simp] theorem State.setPending_decision (s : State) (q : List Instr) : (s.setPending q).decision = s.decision := rfl
@[simp] theorem State.setPending_claims (s : State) (q : List Instr) : (s.setPending q).claims = s.claims := rfl
@[simp] theorem State.setPending_seq (s : State) (q : List Instr) : (s.setPending q).seq = s.seq := rfl
@[simp] theorem State.setPending_out (s : State) (q : List Instr) : (s.setPending q).out = s.out := rfl
@[simp] theorem State.setPending_limits (s : State) (q : List Instr) : (s.setPending q).limits = s.limits := rfl
@[simp] theorem State.setPending_choices (s : State) (q : List Instr) : (s.setPending q).choices = s.choices := rfl

@[simp] theorem State.setNow_pending (s : State) (t : Time) : (s.setNow t).pending = s.pending := rfl
@[simp] theorem State.setNow_now (s : State) (t : Time) : (s.setNow t).now = t := rfl
@[simp] theorem State.setNow_firePin (s : State) (t : Time) : (s.setNow t).firePin = s.firePin := rfl
@[simp] theorem State.setNow_rotPin (s : State) (t : Time) : (s.setNow t).rotPin = s.rotPin := rfl
@[simp] theorem State.setNow_port (s : State) (t : Time) : (s.setNow t).port = s.port := rfl
@[simp] theorem State.setNow_link (s : State) (t : Time) : (s.setNow t).link = s.link := rfl
@[simp] theorem State.setNow_peers (s : State) (t : Time) : (s.setNow t).peers = s.peers := rfl
@[simp] theorem State.setNow_band (s : State) (t : Time) : (s.setNow t).band = s.band := rfl
@[simp] theorem State.setNow_decision (s : State) (t : Time) : (s.setNow t).decision = s.decision := rfl
@[simp] theorem State.setNow_claims (s : State) (t : Time) : (s.setNow t).claims = s.claims := rfl
@[simp] theorem State.setNow_seq (s : State) (t : Time) : (s.setNow t).seq = s.seq := rfl
@[simp] theorem State.setNow_out (s : State) (t : Time) : (s.setNow t).out = s.out := rfl
@[simp] theorem State.setNow_limits (s : State) (t : Time) : (s.setNow t).limits = s.limits := rfl
@[simp] theorem State.setNow_choices (s : State) (t : Time) : (s.setNow t).choices = s.choices := rfl

@[simp] theorem State.setFirePin_pending (s : State) (b : Bool) : (s.setFirePin b).pending = s.pending := rfl
@[simp] theorem State.setFirePin_now (s : State) (b : Bool) : (s.setFirePin b).now = s.now := rfl
@[simp] theorem State.setFirePin_firePin (s : State) (b : Bool) : (s.setFirePin b).firePin = b := rfl
@[simp] theorem State.setFirePin_rotPin (s : State) (b : Bool) : (s.setFirePin b).rotPin = s.rotPin := rfl
@[simp] theorem State.setFirePin_port (s : State) (b : Bool) : (s.setFirePin b).port = s.port := rfl
@[simp] theorem State.setFirePin_link (s : State) (b : Bool) : (s.setFirePin b).link = s.link := rfl
@[simp] theorem State.setFirePin_peers (s : State) (b : Bool) : (s.setFirePin b).peers = s.peers := rfl
@[simp] theorem State.setFirePin_band (s : State) (b : Bool) : (s.setFirePin b).band = s.band := rfl
@[simp] theorem State.setFirePin_decision (s : State) (b : Bool) : (s.setFirePin b).decision = s.decision := rfl
@[simp] theorem State.setFirePin_claims (s : State) (b : Bool) : (s.setFirePin b).claims = s.claims := rfl
@[simp] theorem State.setFirePin_seq (s : State) (b : Bool) : (s.setFirePin b).seq = s.seq := rfl
@[simp] theorem State.setFirePin_out (s : State) (b : Bool) : (s.setFirePin b).out = s.out := rfl
@[simp] theorem State.setFirePin_limits (s : State) (b : Bool) : (s.setFirePin b).limits = s.limits := rfl
@[simp] theorem State.setFirePin_choices (s : State) (b : Bool) : (s.setFirePin b).choices = s.choices := rfl

@[simp] theorem State.setRotPin_pending (s : State) (b : Bool) : (s.setRotPin b).pending = s.pending := rfl
@[simp] theorem State.setRotPin_now (s : State) (b : Bool) : (s.setRotPin b).now = s.now := rfl
@[simp] theorem State.setRotPin_firePin (s : State) (b : Bool) : (s.setRotPin b).firePin = s.firePin := rfl
@[simp] theorem State.setRotPin_rotPin (s : State) (b : Bool) : (s.setRotPin b).rotPin = b := rfl
@[simp] theorem State.setRotPin_port (s : State) (b : Bool) : (s.setRotPin b).port = s.port := rfl
@[simp] theorem State.setRotPin_link (s : State) (b : Bool) : (s.setRotPin b).link = s.link := rfl
@[simp] theorem State.setRotPin_peers (s : State) (b : Bool) : (s.setRotPin b).peers = s.peers := rfl
@[simp] theorem State.setRotPin_band (s : State) (b : Bool) : (s.setRotPin b).band = s.band := rfl
@[simp] theorem State.setRotPin_decision (s : State) (b : Bool) : (s.setRotPin b).decision = s.decision := rfl
@[simp] theorem State.setRotPin_claims (s : State) (b : Bool) : (s.setRotPin b).claims = s.claims := rfl
@[simp] theorem State.setRotPin_seq (s : State) (b : Bool) : (s.setRotPin b).seq = s.seq := rfl
@[simp] theorem State.setRotPin_out (s : State) (b : Bool) : (s.setRotPin b).out = s.out := rfl
@[simp] theorem State.setRotPin_limits (s : State) (b : Bool) : (s.setRotPin b).limits = s.limits := rfl
@[simp] theorem State.setRotPin_choices (s : State) (b : Bool) : (s.setRotPin b).choices = s.choices := rfl

@[simp] theorem State.setPort_pending (s : State) (p : Port) : (s.setPort p).pending = s.pending := rfl
@[simp] theorem State.setPort_now (s : State) (p : Port) : (s.setPort p).now = s.now := rfl
@[simp] theorem State.setPort_firePin (s : State) (p : Port) : (s.setPort p).firePin = s.firePin := rfl
@[simp] theorem State.setPort_rotPin (s : State) (p : Port) : (s.setPort p).rotPin = s.rotPin := rfl
@[simp] theorem State.setPort_port (s : State) (p : Port) : (s.setPort p).port = p := rfl
@[simp] theorem State.setPort_link (s : State) (p : Port) : (s.setPort p).link = s.link := rfl
@[simp] theorem State.setPort_peers (s : State) (p : Port) : (s.setPort p).peers = s.peers := rfl
@[simp] theorem State.setPort_band (s : State) (p : Port) : (s.setPort p).band = s.band := rfl
@[simp] theorem State.setPort_decision (s : State) (p : Port) : (s.setPort p).decision = s.decision := rfl
@[simp] theorem State.setPort_claims (s : State) (p : Port) : (s.setPort p).claims = s.claims := rfl
@[simp] theorem State.setPort_seq (s : State) (p : Port) : (s.setPort p).seq = s.seq := rfl
@[simp] theorem State.setPort_out (s : State) (p : Port) : (s.setPort p).out = s.out := rfl
@[simp] theorem State.setPort_limits (s : State) (p : Port) : (s.setPort p).limits = s.limits := rfl
@[simp] theorem State.setPort_choices (s : State) (p : Port) : (s.setPort p).choices = s.choices := rfl

@[simp] theorem State.setLink_pending (s : State) (l : Link) : (s.setLink l).pending = s.pending := rfl
@[simp] theorem State.setLink_now (s : State) (l : Link) : (s.setLink l).now = s.now := rfl
@[simp] theorem State.setLink_firePin (s : State) (l : Link) : (s.setLink l).firePin = s.firePin := rfl
@[simp] theorem State.setLink_rotPin (s : State) (l : Link) : (s.setLink l).rotPin = s.rotPin := rfl
@[simp] theorem State.setLink_port (s : State) (l : Link) : (s.setLink l).port = s.port := rfl
@[simp] theorem State.setLink_link (s : State) (l : Link) : (s.setLink l).link = l := rfl
@[simp] theorem State.setLink_peers (s : State) (l : Link) : (s.setLink l).peers = s.peers := rfl
@[simp] theorem State.setLink_band (s : State) (l : Link) : (s.setLink l).band = s.band := rfl
@[simp] theorem State.setLink_decision (s : State) (l : Link) : (s.setLink l).decision = s.decision := rfl
@[simp] theorem State.setLink_claims (s : State) (l : Link) : (s.setLink l).claims = s.claims := rfl
@[simp] theorem State.setLink_seq (s : State) (l : Link) : (s.setLink l).seq = s.seq := rfl
@[simp] theorem State.setLink_out (s : State) (l : Link) : (s.setLink l).out = s.out := rfl
@[simp] theorem State.setLink_limits (s : State) (l : Link) : (s.setLink l).limits = s.limits := rfl
@[simp] theorem State.setLink_choices (s : State) (l : Link) : (s.setLink l).choices = s.choices := rfl

@[simp] theorem State.setPeers_pending (s : State) (p : PeerTable) : (s.setPeers p).pending = s.pending := rfl
@[simp] theorem State.setPeers_now (s : State) (p : PeerTable) : (s.setPeers p).now = s.now := rfl
@[simp] theorem State.setPeers_firePin (s : State) (p : PeerTable) : (s.setPeers p).firePin = s.firePin := rfl
@[simp] theorem State.setPeers_rotPin (s : State) (p : PeerTable) : (s.setPeers p).rotPin = s.rotPin := rfl
@[simp] theorem State.setPeers_port (s : State) (p : PeerTable) : (s.setPeers p).port = s.port := rfl
@[simp] theorem State.setPeers_link (s : State) (p : PeerTable) : (s.setPeers p).link = s.link := rfl
@[simp] theorem State.setPeers_peers (s : State) (p : PeerTable) : (s.setPeers p).peers = p := rfl
@[simp] theorem State.setPeers_band (s : State) (p : PeerTable) : (s.setPeers p).band = s.band := rfl
@[simp] theorem State.setPeers_decision (s : State) (p : PeerTable) : (s.setPeers p).decision = s.decision := rfl
@[simp] theorem State.setPeers_claims (s : State) (p : PeerTable) : (s.setPeers p).claims = s.claims := rfl
@[simp] theorem State.setPeers_seq (s : State) (p : PeerTable) : (s.setPeers p).seq = s.seq := rfl
@[simp] theorem State.setPeers_out (s : State) (p : PeerTable) : (s.setPeers p).out = s.out := rfl
@[simp] theorem State.setPeers_limits (s : State) (p : PeerTable) : (s.setPeers p).limits = s.limits := rfl
@[simp] theorem State.setPeers_choices (s : State) (p : PeerTable) : (s.setPeers p).choices = s.choices := rfl

@[simp] theorem State.setBand_pending (s : State) (b : Band) : (s.setBand b).pending = s.pending := rfl
@[simp] theorem State.setBand_now (s : State) (b : Band) : (s.setBand b).now = s.now := rfl
@[simp] theorem State.setBand_firePin (s : State) (b : Band) : (s.setBand b).firePin = s.firePin := rfl
@[simp] theorem State.setBand_rotPin (s : State) (b : Band) : (s.setBand b).rotPin = s.rotPin := rfl
@[simp] theorem State.setBand_port (s : State) (b : Band) : (s.setBand b).port = s.port := rfl
@[simp] theorem State.setBand_link (s : State) (b : Band) : (s.setBand b).link = s.link := rfl
@[simp] theorem State.setBand_peers (s : State) (b : Band) : (s.setBand b).peers = s.peers := rfl
@[simp] theorem State.setBand_band (s : State) (b : Band) : (s.setBand b).band = b := rfl
@[simp] theorem State.setBand_decision (s : State) (b : Band) : (s.setBand b).decision = s.decision := rfl
@[simp] theorem State.setBand_claims (s : State) (b : Band) : (s.setBand b).claims = s.claims := rfl
@[simp] theorem State.setBand_seq (s : State) (b : Band) : (s.setBand b).seq = s.seq := rfl
@[simp] theorem State.setBand_out (s : State) (b : Band) : (s.setBand b).out = s.out := rfl
@[simp] theorem State.setBand_limits (s : State) (b : Band) : (s.setBand b).limits = s.limits := rfl
@[simp] theorem State.setBand_choices (s : State) (b : Band) : (s.setBand b).choices = s.choices := rfl

@[simp] theorem State.setDecision_pending (s : State) (d : Decision) : (s.setDecision d).pending = s.pending := rfl
@[simp] theorem State.setDecision_now (s : State) (d : Decision) : (s.setDecision d).now = s.now := rfl
@[simp] theorem State.setDecision_firePin (s : State) (d : Decision) : (s.setDecision d).firePin = s.firePin := rfl
@[simp] theorem State.setDecision_rotPin (s : State) (d : Decision) : (s.setDecision d).rotPin = s.rotPin := rfl
@[simp] theorem State.setDecision_port (s : State) (d : Decision) : (s.setDecision d).port = s.port := rfl
@[simp] theorem State.setDecision_link (s : State) (d : Decision) : (s.setDecision d).link = s.link := rfl
@[simp] theorem State.setDecision_peers (s : State) (d : Decision) : (s.setDecision d).peers = s.peers := rfl
@[simp] theorem State.setDecision_band (s : State) (d : Decision) : (s.setDecision d).band = s.band := rfl
@[simp] theorem State.setDecision_decision (s : State) (d : Decision) : (s.setDecision d).decision = d := rfl
@[simp] theorem State.setDecision_claims (s : State) (d : Decision) : (s.setDecision d).claims = s.claims := rfl
@[simp] theorem State.setDecision_seq (s : State) (d : Decision) : (s.setDecision d).seq = s.seq := rfl
@[simp] theorem State.setDecision_out (s : State) (d : Decision) : (s.setDecision d).out = s.out := rfl
@[simp] theorem State.setDecision_limits (s : State) (d : Decision) : (s.setDecision d).limits = s.limits := rfl
@[simp] theorem State.setDecision_choices (s : State) (d : Decision) : (s.setDecision d).choices = s.choices := rfl

@[simp] theorem State.setClaims_pending (s : State) (c : ClaimUnit) : (s.setClaims c).pending = s.pending := rfl
@[simp] theorem State.setClaims_now (s : State) (c : ClaimUnit) : (s.setClaims c).now = s.now := rfl
@[simp] theorem State.setClaims_firePin (s : State) (c : ClaimUnit) : (s.setClaims c).firePin = s.firePin := rfl
@[simp] theorem State.setClaims_rotPin (s : State) (c : ClaimUnit) : (s.setClaims c).rotPin = s.rotPin := rfl
@[simp] theorem State.setClaims_port (s : State) (c : ClaimUnit) : (s.setClaims c).port = s.port := rfl
@[simp] theorem State.setClaims_link (s : State) (c : ClaimUnit) : (s.setClaims c).link = s.link := rfl
@[simp] theorem State.setClaims_peers (s : State) (c : ClaimUnit) : (s.setClaims c).peers = s.peers := rfl
@[simp] theorem State.setClaims_band (s : State) (c : ClaimUnit) : (s.setClaims c).band = s.band := rfl
@[simp] theorem State.setClaims_decision (s : State) (c : ClaimUnit) : (s.setClaims c).decision = s.decision := rfl
@[simp] theorem State.setClaims_claims (s : State) (c : ClaimUnit) : (s.setClaims c).claims = c := rfl
@[simp] theorem State.setClaims_seq (s : State) (c : ClaimUnit) : (s.setClaims c).seq = s.seq := rfl
@[simp] theorem State.setClaims_out (s : State) (c : ClaimUnit) : (s.setClaims c).out = s.out := rfl
@[simp] theorem State.setClaims_limits (s : State) (c : ClaimUnit) : (s.setClaims c).limits = s.limits := rfl
@[simp] theorem State.setClaims_choices (s : State) (c : ClaimUnit) : (s.setClaims c).choices = s.choices := rfl

@[simp] theorem State.setSeq_pending (s : State) (q : Sequencer) : (s.setSeq q).pending = s.pending := rfl
@[simp] theorem State.setSeq_now (s : State) (q : Sequencer) : (s.setSeq q).now = s.now := rfl
@[simp] theorem State.setSeq_firePin (s : State) (q : Sequencer) : (s.setSeq q).firePin = s.firePin := rfl
@[simp] theorem State.setSeq_rotPin (s : State) (q : Sequencer) : (s.setSeq q).rotPin = s.rotPin := rfl
@[simp] theorem State.setSeq_port (s : State) (q : Sequencer) : (s.setSeq q).port = s.port := rfl
@[simp] theorem State.setSeq_link (s : State) (q : Sequencer) : (s.setSeq q).link = s.link := rfl
@[simp] theorem State.setSeq_peers (s : State) (q : Sequencer) : (s.setSeq q).peers = s.peers := rfl
@[simp] theorem State.setSeq_band (s : State) (q : Sequencer) : (s.setSeq q).band = s.band := rfl
@[simp] theorem State.setSeq_decision (s : State) (q : Sequencer) : (s.setSeq q).decision = s.decision := rfl
@[simp] theorem State.setSeq_claims (s : State) (q : Sequencer) : (s.setSeq q).claims = s.claims := rfl
@[simp] theorem State.setSeq_seq (s : State) (q : Sequencer) : (s.setSeq q).seq = q := rfl
@[simp] theorem State.setSeq_out (s : State) (q : Sequencer) : (s.setSeq q).out = s.out := rfl
@[simp] theorem State.setSeq_limits (s : State) (q : Sequencer) : (s.setSeq q).limits = s.limits := rfl
@[simp] theorem State.setSeq_choices (s : State) (q : Sequencer) : (s.setSeq q).choices = s.choices := rfl

@[simp] theorem State.setOut_pending (s : State) (o : OutputUnit) : (s.setOut o).pending = s.pending := rfl
@[simp] theorem State.setOut_now (s : State) (o : OutputUnit) : (s.setOut o).now = s.now := rfl
@[simp] theorem State.setOut_firePin (s : State) (o : OutputUnit) : (s.setOut o).firePin = s.firePin := rfl
@[simp] theorem State.setOut_rotPin (s : State) (o : OutputUnit) : (s.setOut o).rotPin = s.rotPin := rfl
@[simp] theorem State.setOut_port (s : State) (o : OutputUnit) : (s.setOut o).port = s.port := rfl
@[simp] theorem State.setOut_link (s : State) (o : OutputUnit) : (s.setOut o).link = s.link := rfl
@[simp] theorem State.setOut_peers (s : State) (o : OutputUnit) : (s.setOut o).peers = s.peers := rfl
@[simp] theorem State.setOut_band (s : State) (o : OutputUnit) : (s.setOut o).band = s.band := rfl
@[simp] theorem State.setOut_decision (s : State) (o : OutputUnit) : (s.setOut o).decision = s.decision := rfl
@[simp] theorem State.setOut_claims (s : State) (o : OutputUnit) : (s.setOut o).claims = s.claims := rfl
@[simp] theorem State.setOut_seq (s : State) (o : OutputUnit) : (s.setOut o).seq = s.seq := rfl
@[simp] theorem State.setOut_out (s : State) (o : OutputUnit) : (s.setOut o).out = o := rfl
@[simp] theorem State.setOut_limits (s : State) (o : OutputUnit) : (s.setOut o).limits = s.limits := rfl
@[simp] theorem State.setOut_choices (s : State) (o : OutputUnit) : (s.setOut o).choices = s.choices := rfl

@[simp] theorem State.setLimits_pending (s : State) (l : Limits) : (s.setLimits l).pending = s.pending := rfl
@[simp] theorem State.setLimits_now (s : State) (l : Limits) : (s.setLimits l).now = s.now := rfl
@[simp] theorem State.setLimits_firePin (s : State) (l : Limits) : (s.setLimits l).firePin = s.firePin := rfl
@[simp] theorem State.setLimits_rotPin (s : State) (l : Limits) : (s.setLimits l).rotPin = s.rotPin := rfl
@[simp] theorem State.setLimits_port (s : State) (l : Limits) : (s.setLimits l).port = s.port := rfl
@[simp] theorem State.setLimits_link (s : State) (l : Limits) : (s.setLimits l).link = s.link := rfl
@[simp] theorem State.setLimits_peers (s : State) (l : Limits) : (s.setLimits l).peers = s.peers := rfl
@[simp] theorem State.setLimits_band (s : State) (l : Limits) : (s.setLimits l).band = s.band := rfl
@[simp] theorem State.setLimits_decision (s : State) (l : Limits) : (s.setLimits l).decision = s.decision := rfl
@[simp] theorem State.setLimits_claims (s : State) (l : Limits) : (s.setLimits l).claims = s.claims := rfl
@[simp] theorem State.setLimits_seq (s : State) (l : Limits) : (s.setLimits l).seq = s.seq := rfl
@[simp] theorem State.setLimits_out (s : State) (l : Limits) : (s.setLimits l).out = s.out := rfl
@[simp] theorem State.setLimits_limits (s : State) (l : Limits) : (s.setLimits l).limits = l := rfl
@[simp] theorem State.setLimits_choices (s : State) (l : Limits) : (s.setLimits l).choices = s.choices := rfl

@[simp] theorem State.setChoices_pending (s : State) (n : Nat) : (s.setChoices n).pending = s.pending := rfl
@[simp] theorem State.setChoices_now (s : State) (n : Nat) : (s.setChoices n).now = s.now := rfl
@[simp] theorem State.setChoices_firePin (s : State) (n : Nat) : (s.setChoices n).firePin = s.firePin := rfl
@[simp] theorem State.setChoices_rotPin (s : State) (n : Nat) : (s.setChoices n).rotPin = s.rotPin := rfl
@[simp] theorem State.setChoices_port (s : State) (n : Nat) : (s.setChoices n).port = s.port := rfl
@[simp] theorem State.setChoices_link (s : State) (n : Nat) : (s.setChoices n).link = s.link := rfl
@[simp] theorem State.setChoices_peers (s : State) (n : Nat) : (s.setChoices n).peers = s.peers := rfl
@[simp] theorem State.setChoices_band (s : State) (n : Nat) : (s.setChoices n).band = s.band := rfl
@[simp] theorem State.setChoices_decision (s : State) (n : Nat) : (s.setChoices n).decision = s.decision := rfl
@[simp] theorem State.setChoices_claims (s : State) (n : Nat) : (s.setChoices n).claims = s.claims := rfl
@[simp] theorem State.setChoices_seq (s : State) (n : Nat) : (s.setChoices n).seq = s.seq := rfl
@[simp] theorem State.setChoices_out (s : State) (n : Nat) : (s.setChoices n).out = s.out := rfl
@[simp] theorem State.setChoices_limits (s : State) (n : Nat) : (s.setChoices n).limits = s.limits := rfl
@[simp] theorem State.setChoices_choices (s : State) (n : Nat) : (s.setChoices n).choices = n := rfl

end Sys2Proof.Machine
end

