-- ==== Sys2Proof/Laws/Acts.lean ====
section
/-! SUPPORT. What the operations of the blocks can do, said once: `Acts P r s` says that s is reached from r by replacements of the
parts P names, by notices posted and by outputs moved, with the Peer Table and the claim list kept sound. -/

namespace Sys2Proof.Machine

/-- The parts of the state that an operation may change; `wheel` is what the wheel-run output starts and stops in the Limit Supervisor:
its stall timer and last wrap time (R184, R192). -/
inductive Part where
  | link | number | peers | band | decision | claims | seq | out | guards | manuals | fire | wheel | limits | notices | reply | meas | choices | restarting | pins
  deriving DecidableEq, Repr

/-- Two states of the Output Unit with the same fire demands and FIRE filter. -/
abbrev SameFire (a b : OutputUnit) : Prop := a.fire = b.fire ∧ a.fireFiltered = b.fireFiltered ∧ a.fireSince = b.fireSince

theorem sameFire_rfl (a : OutputUnit) : SameFire a a := ⟨rfl, rfl, rfl⟩

/-- State s is reached from state r by acts on the parts P names. -/
inductive Acts (P : Part → Bool) (r : State) : State → Prop where
  | refl : Acts P r r
  | link {s : State} (l : Link) : Acts P r s → P .link = true → l.sequence = s.link.sequence → Acts P r (s.setLink l)
  | number {s : State} (l : Link) : Acts P r s → P .number = true → Acts P r (s.setLink l)
  | peers {s : State} (p : PeerTable) : Acts P r s → P .peers = true → (PeersSound s.peers → PeersSound p) → Acts P r (s.setPeers p)
  | band {s : State} (b : Band) : Acts P r s → P .band = true → Acts P r (s.setBand b)
  | decision {s : State} (d : Decision) : Acts P r s → P .decision = true → Acts P r (s.setDecision d)
  | claims {s : State} (c : ClaimUnit) : Acts P r s → P .claims = true → (ClaimsSound s.claims → ClaimsSound c) →
      Acts P r (s.setClaims c)
  | seq {s : State} (q : Sequencer) : Acts P r s → P .seq = true → Acts P r (s.setSeq q)
  | demands {s : State} (o : OutputUnit) : Acts P r s → P .out = true → o.present = s.out.present → o.wheelRun = s.out.wheelRun →
      (P .guards = true ∨ o.guard = s.out.guard) → (P .manuals = true ∨ o.manual = s.out.manual) →
      (P .fire = true ∨ SameFire o s.out) → Acts P r (s.setOut o)
  | moved {s : State} (ch : Channel) (v acc : Nat) : Acts P r s → P .out = true → P .wheel = true →
      Acts P r (setPresent ch v acc s)
  | limits {s : State} (l : Limits) : Acts P r s → P .limits = true → Acts P r (s.setLimits l)
  | post {s : State} (b : NoticeBody) : Acts P r s → P .notices = true → Acts P r (post b s)
  | emptied {s : State} : Acts P r s → P .notices = true → Acts P r (s.setPort (setNotices s.port [] false))
  | popped {s : State} (q : List Notice) : Acts P r s → P .notices = true → q.length ≤ s.port.notices.length →
      Acts P r (s.setPort (setNotices s.port q s.port.overflow))
  | reply {s : State} (x : Option Reply) : Acts P r s → P .reply = true → Acts P r (s.setPort { s.port with reply := x })
  | meas {s : State} (m : MeasStore) : Acts P r s → P .meas = true → Acts P r (s.setPort { s.port with meas := m })
  | choices {s : State} (n : Nat) : Acts P r s → P .choices = true → Acts P r (s.setChoices n)
  | firePin {s : State} (b : Bool) : Acts P r s → P .pins = true → Acts P r (s.setFirePin b)
  | rotPin {s : State} (b : Bool) : Acts P r s → P .pins = true → Acts P r (s.setRotPin b)
  | restarting {s : State} (b : Bool) : Acts P r s → P .restarting = true → Acts P r (s.setPort { s.port with restarting := b })

section
variable {P : Part → Bool} {r s : State}

/-- A choice between two reached states is reached. -/
theorem ite_acts {c : Prop} [Decidable c] {a b : State} (ha : Acts P r a) (hb : Acts P r b) : Acts P r (if c then a else b) := by
  split <;> assumption

/-! ## Transmit queue (R99 to R104) -/

@[simp] theorem dropFrame_sequence (sl : Slot) (l : Link) : (dropFrame sl l).sequence = l.sequence := by
  unfold dropFrame; dsimp only; (repeat' split) <;> rfl

@[simp] theorem abortAttempt_sequence (l : Link) : (abortAttempt l).sequence = l.sequence := by
  unfold abortAttempt; split <;> rfl

@[simp] theorem clearClaimSlot_sequence (x : Resource) (l : Link) : (clearClaimSlot x l).sequence = l.sequence := by
  simp [clearClaimSlot]

@[simp] theorem clearBeacon_sequence (l : Link) : (clearBeacon l).sequence = l.sequence := by simp [clearBeacon]

@[simp] theorem clearAlert_sequence (l : Link) : (clearAlert l).sequence = l.sequence := by simp [clearAlert]

@[simp] theorem clearQueue_sequence (l : Link) : (clearQueue l).sequence = l.sequence := by simp [clearQueue]

theorem queueBeacon_acts (h : Acts P r s) (hl : P .link = true) : Acts P r (queueBeacon s) := by
  unfold queueBeacon; dsimp only; (repeat' split) <;> first | exact h | exact h.link _ hl (by simp)

theorem queueAlert_acts (h : Acts P r s) (hl : P .link = true) : Acts P r (queueAlert s) := by
  unfold queueAlert; dsimp only; (repeat' split) <;> first | exact h | exact h.link _ hl (by simp)

theorem placeClaim_acts (m : ClaimMsg) (h : Acts P r s) (hl : P .link = true) : Acts P r (placeClaim m s) := by
  unfold placeClaim; dsimp only; split
  · exact h
  · exact h.link _ hl (by simp)

theorem removeIntent_acts (x : Resource) (h : Acts P r s) (hl : P .link = true) : Acts P r (removeIntent x s) := by
  unfold removeIntent; split
  · exact h.link _ hl (by simp)
  · exact h

/-! ## Claim list and fire set (R60 to R68, R82) -/

/-- A list in order and within the bound keeps the Claim Unit sound (R60, R65). -/
theorem claimsSound_setList {l : List ClaimRecord} (hlen : l.length ≤ claimCapacity)
    (hord : l.Pairwise fun a b => recordBefore a b = true) (h : ClaimsSound s.claims) : ClaimsSound (setClaimList l s).claims := by
  refine ⟨hlen, hord, fun hm => ?_, h.2.2.2⟩
  simp only [setClaimList, State.setClaims_claims, Bool.and_eq_true, decide_eq_true_eq] at hm
  exact hm.2

theorem setClaimList_acts {l : List ClaimRecord} (h : Acts P r s) (hc : P .claims = true)
    (hl : ClaimsSound s.claims → l.length ≤ claimCapacity ∧ l.Pairwise fun a b => recordBefore a b = true) :
    Acts P r (setClaimList l s) :=
  h.claims _ hc fun hs => claimsSound_setList (hl hs).1 (hl hs).2 hs

theorem setProc_acts (x : Resource) (p : Process) (h : Acts P r s) (hc : P .claims = true) : Acts P r (setProc x p s) :=
  h.claims _ hc fun hs => hs

theorem disturb_acts (h : Acts P r s) (hc : P .claims = true) : Acts P r (disturb s) :=
  h.claims _ hc fun hs => hs

theorem removeRecord_acts (a : Nat) (x : Resource) (h : Acts P r s) (hc : P .claims = true) : Acts P r (removeRecord a x s) :=
  setClaimList_acts h hc fun hs => ⟨Nat.le_trans (List.length_filter_le ..) hs.1, hs.2.1.filter _⟩

theorem changeRecord_acts (a : Nat) (x : Resource) (f : ClaimRecord → ClaimRecord) (h : Acts P r s) (hc : P .claims = true)
    (hf : ∀ c, hasKey a x c = true → (f c).addr = c.addr ∧ (f c).res = c.res) : Acts P r (changeRecord a x f s) :=
  setClaimList_acts h hc fun hs => ⟨by simpa using hs.1, map_pairwise_recordBefore
    (fun c => by
      by_cases hk : hasKey a x c = true
      · simp [hk, hf c hk]
      · simp [hk]) hs.2.1⟩

theorem hasKey_self (c : ClaimRecord) : hasKey c.addr c.res c = true := by simp [hasKey]

/-- A key that has no record is the key of no member of the list. -/
theorem hasKey_false_of_findRecord {a : Nat} {x : Resource} (h : findRecord s a x = none) {c : ClaimRecord} (hc : c ∈ s.claims.list) :
    hasKey a x c = false := by
  simpa using (List.find?_eq_none.1 h) c hc

theorem createRecord_acts (e : ClaimRecord) (sender : Nat) (h : Acts P r s) (hc : P .claims = true) (hn : P .notices = true)
    (hnew : findRecord s e.addr e.res = none) : Acts P r (createRecord e sender s) := by
  unfold createRecord
  split
  next hlt =>
    exact setClaimList_acts h hc fun hs => ⟨by rw [insertBy_length]; exact hlt,
      insertBy_pairwise recordBefore_trans hs.2.1 fun y hy => recordBefore_total e y (hasKey_false_of_findRecord hnew hy)⟩
  next hge =>
    dsimp only
    split
    next v hv =>
      refine setClaimList_acts h hc fun hs => ⟨?_, ?_⟩
      · have hm : v ∈ s.claims.list := (List.mem_filter.1 (firstBy_mem hv)).1
        have := filter_length_lt (p := fun c => !hasKey v.addr v.res c) hm (by simp [hasKey_self])
        rw [insertBy_length]
        exact Nat.le_trans this hs.1
      · exact insertBy_pairwise recordBefore_trans (hs.2.1.filter _) fun y hy =>
          recordBefore_total e y (hasKey_false_of_findRecord hnew (List.mem_filter.1 hy).1)
    next =>
      split
      · exact disturb_acts h hc
      · refine ((disturb_acts h hc).claims _ hc fun hs => ?_).post _ hn
        exact ⟨hs.1, hs.2.1, fun _ => Nat.le_of_not_lt hge, hs.2.2.2⟩

/-- The fire set gains an address and the freeze stands (R82, R83). -/
theorem fireJoin_acts (a : Nat) (h : Acts P r s) (hc : P .claims = true) :
    Acts P r (s.setClaims { s.claims with fireSet := fireJoin a s.now s.claims.fireSet, freeze := true }) := by
  refine h.claims _ hc fun hs => ⟨hs.1, hs.2.1, hs.2.2.1, ?_⟩
  have := insertBy_ne_nil (fun (a b : Nat × Time) => decide (a.1 < b.1)) (a, s.now) (s.claims.fireSet.filter fun e => e.1 != a)
  simp only [fireJoin]
  cases h' : insertBy (fun (a b : Nat × Time) => decide (a.1 < b.1)) (a, s.now) (s.claims.fireSet.filter fun e => e.1 != a) with
  | nil => exact absurd h' this
  | cons => rfl

/-! ## Claim processes (R70 to R87) -/

/-- A reporting operation reaches its state by acts. -/
def ReportedActs (P : Part → Bool) (r : State) (x : Reported) : Prop := Acts P r x.1

theorem quietly_acts (h : Acts P r s) : ReportedActs P r (quietly s) := h

theorem thenReport_acts {x : Reported} {f : State → Reported} (hx : ReportedActs P r x)
    (hf : ∀ s, Acts P r s → ReportedActs P r (f s)) : ReportedActs P r (thenReport x f) := hf _ hx

theorem toIdle_acts (x : Resource) (b : Bool) (h : Acts P r s) (hc : P .claims = true) : Acts P r (toIdle x b s) :=
  setProc_acts _ _ h hc

theorem yieldProc_acts (x : Resource) (h : Acts P r s) (hc : P .claims = true) (hn : P .notices = true) :
    ReportedActs P r (yieldProc x s) := (setProc_acts _ _ h hc).post _ hn

theorem overcommitCheck_acts (x : Resource) (h : Acts P r s) (hc : P .claims = true) (hn : P .notices = true) :
    ReportedActs P r (overcommitCheck x s) := by
  unfold overcommitCheck; split
  · exact yieldProc_acts x h hc hn
  · exact h

theorem checkEntered_acts (a : Nat) (x : Resource) (h : Acts P r s) (hc : P .claims = true) (hn : P .notices = true) :
    ReportedActs P r (checkEntered a x s) := by
  unfold checkEntered; split
  · exact overcommitCheck_acts x h hc hn
  · exact h

theorem noteMismatch_acts (x : Resource) (cap a : Nat) (h : Acts P r s) (hc : P .claims = true) (hn : P .notices = true) :
    Acts P r (noteMismatch x cap a s) := by
  unfold noteMismatch; dsimp only; split
  · exact Acts.post _ (Acts.claims _ h hc fun hs => hs) hn
  · exact h

theorem takeCapacity_acts (x : Resource) (cap a : Nat) (h : Acts P r s) (hc : P .claims = true) (hn : P .notices = true) :
    ReportedActs P r (takeCapacity x cap a s) := by
  unfold takeCapacity; dsimp only; (repeat' split)
  · exact h
  · exact overcommitCheck_acts x ((noteMismatch_acts x cap a h hc hn).claims _ hc fun hs => hs) hc hn
  · exact noteMismatch_acts x cap a h hc hn

theorem listIntent_acts (a : Nat) (n : Word32) (x : Resource) (amount cls cap : Nat) (h : Acts P r s) (hc : P .claims = true)
    (hn : P .notices = true) : Acts P r (listIntent a n x amount cls cap s) := by
  unfold listIntent; dsimp only; split
  · refine changeRecord_acts a x _ h hc fun c hk => ?_
    simp only [hasKey, Bool.and_eq_true, decide_eq_true_eq] at hk
    exact ⟨hk.1.symm, hk.2.symm⟩
  next hf => exact createRecord_acts _ _ h hc hn (by simpa using hf)

theorem listHeld_acts (a : Nat) (n : Word32) (x : Resource) (amount cap : Nat) (h : Acts P r s) (hc : P .claims = true)
    (hn : P .notices = true) : Acts P r (listHeld a n x amount cap s) := by
  unfold listHeld; split
  · exact changeRecord_acts a x _ h hc fun c _ => ⟨rfl, rfl⟩
  next hf => exact createRecord_acts _ _ h hc hn (by simpa using hf)

theorem takeClaimFrame_acts (a : Nat) (n : Word32) (m : ClaimMsg) (h : Acts P r s) (hc : P .claims = true)
    (hn : P .notices = true) : ReportedActs P r (takeClaimFrame a n m s) := by
  cases m with
  | intent x amount cls att cap =>
    exact thenReport_acts (takeCapacity_acts x cap a h hc hn) fun s' h' => listIntent_acts a n x amount cls cap h' hc hn
  | held x amount cap =>
    exact thenReport_acts (takeCapacity_acts x cap a h hc hn) fun s' h' =>
      checkEntered_acts a x (listHeld_acts a n x amount cap h' hc hn) hc hn
  | withdraw x why => exact removeRecord_acts a x h hc
  | release x why => exact removeRecord_acts a x h hc

theorem reconcile_acts (a : Nat) (n : Word32) (cls units : Nat) (x : Resource) (h : Acts P r s) (hc : P .claims = true)
    (hn : P .notices = true) : ReportedActs P r (reconcile a n cls units x s) := by
  unfold reconcile
  split
  · split
    · exact ite_acts (removeRecord_acts a x h hc) h
    · exact checkEntered_acts a x (changeRecord_acts a x _ h hc fun c _ => ⟨rfl, rfl⟩) hc hn
  next hf =>
    split
    · exact h
    · exact checkEntered_acts a x (createRecord_acts _ _ h hc hn hf) hc hn

theorem takeBeaconClaims_acts (a : Nat) (n : Word32) (b : BeaconBody) (h : Acts P r s) (hc : P .claims = true)
    (hn : P .notices = true) : ReportedActs P r (takeBeaconClaims a n b s) := by
  refine thenReport_acts (reconcile_acts _ _ _ _ _ ?_ hc hn) fun s' h' => reconcile_acts _ _ _ _ _ h' hc hn
  exact setClaimList_acts h hc fun hs => ⟨by simpa using hs.1,
    map_pairwise_recordBefore (fun c => by split <;> exact ⟨rfl, rfl⟩) hs.2.1⟩

theorem queueIntent_acts (x : Resource) (h : Acts P r s) (hl : P .link = true) : Acts P r (queueIntent x s) :=
  ite_acts h (placeClaim_acts _ h hl)

theorem beginAttempt_acts (x : Resource) (n : Nat) (h : Acts P r s) (hc : P .claims = true) (hl : P .link = true) :
    Acts P r (beginAttempt x n s) := queueIntent_acts x (setProc_acts _ _ h hc) hl

theorem requestClaim_acts (x : Resource) (h : Acts P r s) (hc : P .claims = true) (hl : P .link = true) :
    ReportedActs P r (requestClaim x s) := by
  unfold requestClaim; dsimp only
  (repeat' split) <;> first
    | exact h
    | exact setProc_acts _ _ h hc
    | exact beginAttempt_acts _ _ h hc hl

theorem enterStarved_acts (x : Resource) (h : Acts P r s) (hc : P .claims = true) (hn : P .notices = true) :
    ReportedActs P r (enterStarved x s) := (setProc_acts _ _ h hc).post _ hn

theorem afterFailure_acts (x : Resource) (h : Acts P r s) (hc : P .claims = true) (hn : P .notices = true) :
    ReportedActs P r (afterFailure x s) := by
  unfold afterFailure; dsimp only; split
  · exact setProc_acts _ _ h hc
  · exact enterStarved_acts x h hc hn

theorem failAttempt_acts (x : Resource) (why : WithdrawReason) (h : Acts P r s) (hc : P .claims = true) (hl : P .link = true)
    (hn : P .notices = true) : ReportedActs P r (failAttempt x why s) := afterFailure_acts x (placeClaim_acts _ h hl) hc hn

theorem decideAttempt_acts (x : Resource) (h : Acts P r s) (hc : P .claims = true) (hl : P .link = true) (hn : P .notices = true) :
    ReportedActs P r (decideAttempt x s) := by
  unfold decideAttempt; (repeat' split)
  · exact failAttempt_acts x _ h hc hl hn
  · exact placeClaim_acts _ (setProc_acts _ _ h hc) hl
  · exact failAttempt_acts x _ h hc hl hn

theorem cancelClaim_acts (x : Resource) (h : Acts P r s) (hc : P .claims = true) (hl : P .link = true) :
    Acts P r (cancelClaim x s) := by
  unfold cancelClaim; dsimp only
  split <;> first
    | exact h
    | exact setProc_acts _ _ h hc
    | exact toIdle_acts _ _ h hc
    | exact toIdle_acts _ _ (removeIntent_acts _ h hl) hc
    | exact placeClaim_acts _ (toIdle_acts _ _ h hc) hl

theorem releaseClaim_acts (x : Resource) (h : Acts P r s) (hc : P .claims = true) (hl : P .link = true) :
    Acts P r (releaseClaim x s) := by
  unfold releaseClaim; dsimp only; (repeat' split) <;> first
    | exact h
    | exact placeClaim_acts _ (setProc_acts _ _ h hc) hl
    | exact removeRecord_acts _ _ (toIdle_acts _ _ h hc) hc

theorem ownIntentAppears_acts (x : Resource) (h : Acts P r s) (hc : P .claims = true) : Acts P r (ownIntentAppears x s) :=
  ite_acts (setProc_acts _ _ h hc) h

theorem grantClaim_acts (x : Resource) (h : Acts P r s) (hn : P .notices = true) : ReportedActs P r (grantClaim x s) := h.post _ hn

theorem ownHeldAppears_acts (x : Resource) (h : Acts P r s) (hc : P .claims = true) (hn : P .notices = true) :
    ReportedActs P r (ownHeldAppears x s) := by
  have held := setProc_acts x { procOf s x with state := .held, timer := none } h hc
  unfold ownHeldAppears; dsimp only; (repeat' split)
  · exact h
  · exact grantClaim_acts x held hn
  · exact yieldProc_acts x held hc hn

theorem ownReleaseAppears_acts (x : Resource) (h : Acts P r s) (hc : P .claims = true) : Acts P r (ownReleaseAppears x s) :=
  ite_acts (toIdle_acts _ _ h hc) h

theorem takeOwnFrame_acts (n : Word32) (b : FrameBody) (h : Acts P r s) (hc : P .claims = true) (hn : P .notices = true) :
    ReportedActs P r (takeOwnFrame n b s) := by
  unfold takeOwnFrame; dsimp only; (repeat' split) <;> first
    | exact h
    | exact takeClaimFrame_acts _ _ _ h hc hn
    | exact ownReleaseAppears_acts _ (takeClaimFrame_acts _ _ _ h hc hn) hc
    | exact takeClaimFrame_acts _ _ _ (ownIntentAppears_acts _ h hc) hc hn
    | exact thenReport_acts (takeClaimFrame_acts _ _ _ h hc hn) fun s' h' => ownHeldAppears_acts _ h' hc hn
    | exact takeBeaconClaims_acts _ _ _ h hc hn

theorem forBoth_acts {f : Resource → State → State} (hf : ∀ x s, Acts P r s → Acts P r (f x s)) (h : Acts P r s) :
    Acts P r (forBoth f s) := hf _ _ (hf _ _ h)

theorem freezeProc_acts (x : Resource) (h : Acts P r s) (hc : P .claims = true) (hl : P .link = true) :
    Acts P r (freezeProc x s) := by
  unfold freezeProc; split <;> first
    | exact h
    | exact toIdle_acts _ _ (removeIntent_acts _ h hl) hc
    | exact placeClaim_acts _ (toIdle_acts _ _ h hc) hl

theorem takeWaiting_acts (x : Resource) (h : Acts P r s) (hc : P .claims = true) (hl : P .link = true) :
    Acts P r (takeWaiting x s) := ite_acts (beginAttempt_acts _ _ h hc hl) h

theorem fireReported_acts (a : Nat) (h : Acts P r s) (hc : P .claims = true) (hl : P .link = true) (hn : P .notices = true) :
    Acts P r (fireReported a s) := by
  unfold fireReported; dsimp only; split
  · exact forBoth_acts (fun x s hs => freezeProc_acts x hs hc hl) (disturb_acts ((fireJoin_acts a h hc).post _ hn) hc)
  · exact fireJoin_acts a h hc

theorem fireGone_acts (a : Nat) (h : Acts P r s) (hc : P .claims = true) (hl : P .link = true) (hn : P .notices = true) :
    Acts P r (fireGone a s) := by
  unfold fireGone; dsimp only; split
  next hb =>
    refine h.claims _ hc fun hs => ⟨hs.1, hs.2.1, hs.2.2.1, ?_⟩
    rw [hs.2.2.2]
    rw [Bool.or_eq_true] at hb
    rcases hb with h0 | h0
    · rw [List.isEmpty_iff.1 h0]; rfl
    · have : s.claims.fireSet.isEmpty = false := by
        cases hf : s.claims.fireSet with
        | nil => rw [hf] at h0; simp at h0
        | cons => rfl
      rw [this]
      simpa using h0
  next =>
    exact forBoth_acts (fun x s hs => takeWaiting_acts x hs hc hl)
      (Acts.post _ (Acts.claims _ h hc fun hs => ⟨hs.1, hs.2.1, hs.2.2.1, rfl⟩) hn)

theorem takeFire_acts (a : Nat) (b : Bool) (h : Acts P r s) (hc : P .claims = true) (hl : P .link = true) (hn : P .notices = true) :
    Acts P r (takeFire a b s) := ite_acts (fireReported_acts a h hc hl hn) (fireGone_acts a h hc hl hn)

theorem fireProc_acts (x : Resource) (h : Acts P r s) (hc : P .claims = true) (hl : P .link = true) : Acts P r (fireProc x s) := by
  unfold fireProc; dsimp only; split <;> first
    | exact h
    | exact setProc_acts _ _ h hc
    | exact toIdle_acts _ _ h hc
    | exact toIdle_acts _ _ (removeIntent_acts _ h hl) hc
    | exact placeClaim_acts _ (toIdle_acts _ _ h hc) hl

theorem quietProc_acts (x : Resource) (h : Acts P r s) (hc : P .claims = true) (hl : P .link = true) (hn : P .notices = true) :
    ReportedActs P r (quietProc x s) := by
  unfold quietProc; dsimp only; split
  · exact afterFailure_acts x (removeIntent_acts x h hl) hc hn
  · exact removeIntent_acts x h hl

theorem clashProc_acts (x : Resource) (h : Acts P r s) (hc : P .claims = true) : ReportedActs P r (clashProc x s) := by
  unfold clashProc; dsimp only; split <;> first
    | exact setProc_acts _ _ h hc
    | exact toIdle_acts _ _ h hc
    | exact removeRecord_acts _ _ (toIdle_acts _ _ h hc) hc

theorem restartProc_acts (x : Resource) (h : Acts P r s) (hc : P .claims = true) (hl : P .link = true) :
    Acts P r (restartProc x s) := by
  unfold restartProc; dsimp only; (repeat' split) <;> first
    | exact setProc_acts _ _ h hc
    | exact toIdle_acts _ _ h hc
    | exact placeClaim_acts _ (setProc_acts _ _ h hc) hl

theorem claimsSound_start (c : Settings) : ClaimsSound (claimsStart c) :=
  ⟨Nat.zero_le _, List.Pairwise.nil, fun h => Bool.noConfusion h, rfl⟩

end

end Sys2Proof.Machine
end

