-- ==== Sys2Proof/Laws/SequencingActs.lean ====
section
/-! SUPPORT. What the operations of the Output Unit, the Peer Table, the Band Estimator, the Mode Sequencer and the Limit Supervisor
can do, as acts on the parts each may change. -/

namespace Sys2Proof.Machine

variable {P : Part → Bool} {r s : State}

/-! ## Notices and replies (R196, R208) -/

theorem postAll_acts (l : List NoticeBody) (h : Acts P r s) (hn : P .notices = true) : Acts P r (postAll l s) := by
  induction l generalizing s with
  | nil => exact h
  | cons b rest ih => exact ih (h.post b hn)

theorem reply_acts (st : ReplyStatus) (d : ReplyData) (h : Acts P r s) (hr : P .reply = true) : Acts P r (reply st d s) :=
  h.reply _ hr

theorem refuse_acts (why : Reason) (h : Acts P r s) (hr : P .reply = true) : Acts P r (refuse why s) := h.reply _ hr

theorem replyOk_acts (h : Acts P r s) (hr : P .reply = true) : Acts P r (replyOk s) := h.reply _ hr

theorem admit_acts {f : State → State} (h : Acts P r s) (hr : P .reply = true) (hf : Acts P r (f s)) : Acts P r (admitOperating f s) :=
  ite_acts (refuse_acts _ h hr) (ite_acts (refuse_acts _ h hr) hf)

theorem admitClosed_acts {f : State → State} (h : Acts P r s) (hr : P .reply = true) (hf : Acts P r (f s)) :
    Acts P r (admitClosed f s) := ite_acts (refuse_acts _ h hr) hf

/-! ## Outputs (R163 to R170) -/

theorem settleChannel_acts (old : OutputUnit) (ch : Channel) (h : Acts P r s) (ho : P .out = true) (hm : P .wheel = true) :
    Acts P r (settleChannel old ch s) := by
  unfold settleChannel; dsimp only; (repeat' split) <;> first
    | exact h
    | exact h.moved _ _ _ ho hm
    | exact h.demands _ ho rfl rfl (.inr rfl) (.inr rfl) (.inr (sameFire_rfl _))

theorem changeDemands_acts (f : OutputUnit → OutputUnit) (h : Acts P r s) (ho : P .out = true) (hm : P .wheel = true)
    (hp : (f s.out).present = s.out.present) (hw : (f s.out).wheelRun = s.out.wheelRun)
    (hg : P .guards = true ∨ (f s.out).guard = s.out.guard) (hu : P .manuals = true ∨ (f s.out).manual = s.out.manual)
    (hf : P .fire = true ∨ SameFire (f s.out) s.out) : Acts P r (changeDemands f s) :=
  settleChannel_acts _ _ (settleChannel_acts _ _ (settleChannel_acts _ _ (h.demands _ ho hp hw hg hu hf) ho hm) ho hm) ho hm

theorem slewOnce_acts (ch : Channel) (h : Acts P r s) (ho : P .out = true) (hm : P .wheel = true) : Acts P r (slewOnce ch s) := by
  unfold slewOnce; dsimp only; split
  · exact h.moved _ _ _ ho hm
  · exact h

theorem postSet_acts (d : DemandSet) (h : Acts P r s) (hs : P .seq = true) (ho : P .out = true) (hm : P .wheel = true) :
    Acts P r (postSet d s) := changeDemands_acts _ (h.seq _ hs) ho hm rfl rfl (.inr rfl) (.inr rfl) (.inr (sameFire_rfl _))

theorem setGuards_acts (g : PerChannel (Option Guard)) (h : Acts P r s) (ho : P .out = true) (hm : P .wheel = true)
    (hg : P .guards = true) : Acts P r (setGuards g s) :=
  changeDemands_acts _ h ho hm rfl rfl (.inl hg) (.inr rfl) (.inr (sameFire_rfl _))

theorem setManual_acts (ch : Channel) (m : Option Manual) (h : Acts P r s) (ho : P .out = true) (hm : P .wheel = true)
    (hu : P .manuals = true) : Acts P r (setManual ch m s) :=
  changeDemands_acts _ h ho hm rfl rfl (.inr rfl) (.inl hu) (.inr (sameFire_rfl _))

theorem outputsFireAsserted_acts (h : Acts P r s) (ho : P .out = true) (hm : P .wheel = true) (hn : P .notices = true)
    (hf : P .fire = true) : Acts P r (outputsFireAsserted s) :=
  (changeDemands_acts _ h ho hm rfl rfl (.inr rfl) (.inr rfl) (.inl hf)).post _ hn

theorem outputsFireReleased_acts (h : Acts P r s) (ho : P .out = true) (hm : P .wheel = true) (hn : P .notices = true)
    (hf : P .fire = true) : Acts P r (outputsFireReleased s) :=
  (changeDemands_acts _ h ho hm rfl rfl (.inr rfl) (.inr rfl) (.inl hf)).post _ hn

/-! ## Peer Table (R129 to R138) -/

theorem peersSound_nil {t : PeerTable} (h : t.records = []) : PeersSound t := by simp [PeersSound, h]

theorem peersSound_filter {p : PeerRecord → Bool} {t : PeerTable} (h : PeersSound t) :
    PeersSound { t with records := t.records.filter p } :=
  ⟨Nat.le_trans (List.length_filter_le ..) h.1, h.2.1.filter _, fun q hq => h.2.2 q (List.mem_filter.1 hq).1⟩

/-- A change that keeps every record's address and leaves it a sound count keeps the table sound. -/
theorem peersSound_map {g : PeerRecord → PeerRecord} (hg : ∀ p, (g p).addr = p.addr) (hc : ∀ p, CountSound p → CountSound (g p))
    {t : PeerTable} (h : PeersSound t) : PeersSound { t with records := t.records.map g } := by
  refine ⟨by simpa using h.1, ?_, List.forall_mem_map.2 fun p hp => hc p (h.2.2 p hp)⟩
  show (t.records.map g).Pairwise _
  rw [List.pairwise_map]
  exact h.2.1.imp fun {a b} hab => by rw [hg, hg]; exact hab

/-- A newcomer's record has counted one BEACON (R135). -/
theorem countSound_first (a shaft : Nat) (b : BeaconBody) (now : Time) : CountSound (peerFrom a shaft 1 b now) :=
  ⟨Nat.le_refl 1, show 1 ≤ 255 by decide⟩

/-- A new address put in its place keeps the table sound while it has room (R141). -/
theorem peersSound_insert {p : PeerRecord} {t : PeerTable} (hroom : t.records.length < peerCapacity)
    (hnew : ∀ q ∈ t.records, q.addr ≠ p.addr) (hc : CountSound p) (h : PeersSound t) :
    PeersSound { t with records := insertPeer p t.records } := by
  refine ⟨by show (insertPeer p t.records).length ≤ _; rw [insertPeer, insertBy_length]; exact hroom, ?_,
    fun q hq => ((mem_insertBy ..).1 hq).elim (fun e => e ▸ hc) (h.2.2 q)⟩
  have := insertBy_pairwise (before := fun a b : PeerRecord => decide (a.addr < b.addr))
    (fun a b c hab hbc => by simp only [decide_eq_true_eq] at *; omega) (x := p) (l := t.records)
    (h.2.1.imp fun {a b} hab => by simpa using hab)
    (fun q hq => by have := hnew q hq; simp only [decide_eq_true_eq]; omega)
  exact this.imp fun {a b} hab => by simpa using hab

theorem noteTableFull_acts (a level : Nat) (h : Acts P r s) (hp : P .peers = true) (hn : P .notices = true) :
    Acts P r (noteTableFull a level s) := by
  unfold noteTableFull; dsimp only; split
  · split
    · exact h
    · exact Acts.post _ (Acts.peers _ h hp fun hs => hs) hn
  · split
    · exact h
    · exact Acts.post _ (Acts.peers _ h hp fun hs => hs) hn

theorem losePeer_acts (a : Nat) (cause : LostCause) (h : Acts P r s) (hp : P .peers = true) (hn : P .notices = true) :
    Acts P r (losePeer a cause s) := Acts.post _ (Acts.peers _ h hp peersSound_filter) hn

theorem peerVictim_mem {lvl : Nat} {v : PeerRecord} (h : peerVictim s lvl = some v) : v ∈ s.peers.records := by
  unfold peerVictim at h; dsimp only at h
  split at h
  next p hp => cases h; exact (List.mem_filter.1 (firstBy_mem hp)).1
  next =>
    split at h
    · cases h
    next p hp =>
      split at h
      · cases h; exact firstBy_mem hp
      · cases h

/-- An address with no record is the address of no record. -/
theorem addr_ne_of_findPeer {a : Nat} (h : findPeer s a = none) {q : PeerRecord} (hq : q ∈ s.peers.records) : q.addr ≠ a := by
  simpa using (List.find?_eq_none.1 h) q hq

/-- An eviction and the newcomer's creation (R136, R137). -/
theorem evict_acts {p v : PeerRecord} {lvl : Nat} (h : Acts P r s) (hp : P .peers = true) (hn : P .notices = true)
    (hv : peerVictim s lvl = some v) (hnew : ∀ q ∈ s.peers.records, q.addr ≠ p.addr) (hc : CountSound p) :
    Acts P r ((losePeer v.addr .evicted s).setPeers
      { (losePeer v.addr .evicted s).peers with records := insertPeer p (losePeer v.addr .evicted s).peers.records }) := by
  have hone : (losePeer v.addr .evicted s).setPeers
      { (losePeer v.addr .evicted s).peers with records := insertPeer p (losePeer v.addr .evicted s).peers.records }
      = post (.peerLost v.addr .evicted)
          (s.setPeers { s.peers with records := insertPeer p (withoutPeer v.addr s.peers.records) }) := rfl
  rw [hone]
  refine Acts.post _ (Acts.peers _ h hp fun hs => ?_) hn
  refine peersSound_insert (t := { s.peers with records := withoutPeer v.addr s.peers.records }) ?_ ?_ hc (peersSound_filter hs)
  · have := filter_length_lt (p := fun q : PeerRecord => q.addr != v.addr) (peerVictim_mem hv) (by simp)
    exact Nat.lt_of_lt_of_le this hs.1
  · exact fun q hq => hnew q (List.mem_filter.1 hq).1

theorem peerBeacon_acts (a shaft : Nat) (b : BeaconBody) (h : Acts P r s) (hp : P .peers = true) (hn : P .notices = true) :
    Acts P r (peerBeacon a shaft b s).1 := by
  unfold peerBeacon; dsimp only
  split
  next old hf =>
    refine h.peers _ hp fun hs => peersSound_map (fun q => by split <;> simp_all [peerFrom]) (fun q hq => ?_) hs
    have := hs.2.2 old (List.mem_of_find?_eq_some hf)
    split
    · simp only [CountSound, peerFrom] at *; split <;> omega
    · exact hq
  next hf =>
    split
    next hroom => exact h.peers _ hp fun hs => peersSound_insert hroom (fun q hq => addr_ne_of_findPeer hf hq) (countSound_first ..) hs
    next =>
      split
      next v hv =>
        exact evict_acts h hp hn hv (fun q hq => addr_ne_of_findPeer hf hq) (countSound_first ..)
      next => exact noteTableFull_acts a b.level h hp hn

theorem peerAlert_acts (a : Nat) (fire : Bool) (h : Acts P r s) (hp : P .peers = true) : Acts P r (peerAlert a fire s) :=
  h.peers _ hp fun hs => peersSound_map (fun q => by split <;> rfl) (fun q hq => by split <;> exact hq) hs

theorem peerGoesStale_acts (a : Nat) (h : Acts P r s) (hp : P .peers = true) : Acts P r (peerGoesStale a s) :=
  h.peers _ hp fun hs => peersSound_map (fun q => by split <;> rfl) (fun q hq => by split <;> exact hq) hs

/-! ## Band Estimator (R146 to R159) -/

theorem disagreementCheck_acts (l : List Sample) (h : Acts P r s) (hb : P .band = true) (hn : P .notices = true) :
    Acts P r (disagreementCheck l s) := by
  unfold disagreementCheck; dsimp only; (repeat' split) <;> first
    | exact h
    | exact h.band _ hb
    | exact (h.band _ hb).post _ hn

theorem foundValue_acts (v : BandValue) (h : Acts P r s) (hb : P .band = true) (hn : P .notices = true) :
    Acts P r (foundValue v s) := ite_acts ((h.band _ hb).post _ hn) (h.band _ hb)

theorem loseBand_acts (h : Acts P r s) (hb : P .band = true) (hn : P .notices = true) : Acts P r (loseBand s) :=
  (h.band _ hb).post _ hn

theorem foundNone_acts (h : Acts P r s) (hb : P .band = true) (hn : P .notices = true) : Acts P r (foundNone s) := by
  unfold foundNone; dsimp only; (repeat' split) <;> first
    | exact h
    | exact loseBand_acts h hb hn
    | exact (h.band _ hb).post _ hn
    | exact h.band _ hb

theorem estimate_acts (h : Acts P r s) (hb : P .band = true) (hn : P .notices = true) : Acts P r (estimate s) := by
  unfold estimate; dsimp only; split
  · exact foundValue_acts _ (disagreementCheck_acts _ h hb hn) hb hn
  · exact foundNone_acts (disagreementCheck_acts _ h hb hn) hb hn

theorem makeRecord_acts (h : Acts P r s) (hb : P .band = true) (hn : P .notices = true) (hd : P .decision = true) :
    Acts P r (makeRecord s) := (estimate_acts h hb hn).decision _ hd

/-! ## Mode Sequencer (R26 to R55) -/

/-- The parts an operation of the Mode Sequencer may change. -/
structure Sequences (P : Part → Bool) : Prop where
  link : P .link = true
  claims : P .claims = true
  seq : P .seq = true
  out : P .out = true
  wheel : P .wheel = true
  notices : P .notices = true

theorem setMode_acts (m : Mode) (h : Acts P r s) (hp : Sequences P) : Acts P r (setMode m s) :=
  ite_acts h (queueBeacon_acts (h.seq _ hp.seq) hp.link)

theorem setPhase_acts (p : Phase) (h : Acts P r s) (hp : Sequences P) : Acts P r (setPhase p s) :=
  ite_acts h (queueBeacon_acts (h.seq _ hp.seq) hp.link)

theorem endWait_acts (h : Acts P r s) (hp : Sequences P) : Acts P r (endWait s) := h.seq _ hp.seq

theorem clearCandidate_acts (h : Acts P r s) (hp : Sequences P) : Acts P r (clearCandidate s) := h.seq _ hp.seq

theorem updateCandidate_acts (m : Mode) (h : Acts P r s) (hp : Sequences P) : Acts P r (updateCandidate m s) :=
  ite_acts (h.seq _ hp.seq) (h.seq _ hp.seq)

theorem postSet_seq_acts (d : DemandSet) (h : Acts P r s) (hp : Sequences P) : Acts P r (postSet d s) :=
  postSet_acts d h hp.seq hp.out hp.wheel

theorem enterRamping_acts (m : Mode) (h : Acts P r s) (hp : Sequences P) : Acts P r (enterRamping m s) :=
  (postSet_seq_acts _ (setPhase_acts _ (endWait_acts h hp) hp) hp).seq _ hp.seq

theorem enterWaitOrRamp_acts (m : Mode) (f : Bool) (h : Acts P r s) (hp : Sequences P) : Acts P r (enterWaitOrRamp m f s) :=
  ite_acts (enterRamping_acts m h hp) (setPhase_acts _ (h.seq _ hp.seq) hp)

theorem enterFirstPhase_acts (m : Mode) (f : Bool) (h : Acts P r s) (hp : Sequences P) : Acts P r (enterFirstPhase m f s) := by
  unfold enterFirstPhase; (repeat' split)
  · exact enterWaitOrRamp_acts m f h hp
  · exact requestClaim_acts _ (setPhase_acts _ h hp) hp.claims hp.link
  · exact enterWaitOrRamp_acts m f h hp

theorem beginTransition_acts (m : Mode) (f : Bool) (h : Acts P r s) (hp : Sequences P) : Acts P r (beginTransition m f s) :=
  enterFirstPhase_acts m f (h.seq _ hp.seq) hp

theorem startTest_acts (h : Acts P r s) (hp : Sequences P) : Acts P r (startTest s) := by
  unfold startTest; (repeat' split) <;> first
    | exact h
    | exact beginTransition_acts _ _ h hp

theorem exitTest_acts (h : Acts P r s) (hp : Sequences P) : Acts P r (exitTest s) :=
  ite_acts (beginTransition_acts _ _ h hp) h

theorem afterSettled_acts (h : Acts P r s) (hp : Sequences P) : Acts P r (afterSettled s) := exitTest_acts (startTest_acts h hp) hp

theorem releaseUnless_acts (m : Option Mode) (x : Resource) (h : Acts P r s) (hp : Sequences P) : Acts P r (releaseUnless m x s) :=
  ite_acts (releaseClaim_acts x h hp.claims hp.link) h

theorem releaseUnneeded_acts (m : Option Mode) (h : Acts P r s) (hp : Sequences P) : Acts P r (releaseUnneeded m s) :=
  forBoth_acts (fun x _ hs => releaseUnless_acts m x hs hp) h

theorem cancelRequest_acts (h : Acts P r s) (hp : Sequences P) : Acts P r (cancelRequest s) := by
  unfold cancelRequest; (repeat' split) <;> first
    | exact h
    | exact cancelClaim_acts _ h hp.claims hp.link

theorem toSettled_acts (h : Acts P r s) (hp : Sequences P) : Acts P r (toSettled s) := setPhase_acts _ (h.seq _ hp.seq) hp

theorem cancelTransition_acts (h : Acts P r s) (hp : Sequences P) : Acts P r (cancelTransition s) :=
  toSettled_acts (endWait_acts (releaseUnneeded_acts _ (cancelRequest_acts h hp) hp) hp) hp

theorem abandon_acts (m : Mode) (h : Acts P r s) (hp : Sequences P) : Acts P r (abandon m s) :=
  afterSettled_acts ((toSettled_acts (endWait_acts h hp) hp).post _ hp.notices) hp

theorem abortToSafe_acts (h : Acts P r s) (hp : Sequences P) : Acts P r (abortToSafe s) :=
  enterRamping_acts _ ((endWait_acts (forBoth_acts (fun x _ hs => cancelClaim_acts x hs hp.claims hp.link) h) hp).seq _ hp.seq) hp

theorem runningUpdate_acts (h : Acts P r s) (hp : Sequences P) : Acts P r (runningUpdate s) := by
  unfold runningUpdate; (repeat' split) <;> first
    | exact h
    | exact postSet_seq_acts _ h hp

theorem desireAgainst_acts (t : Transition) (h : Acts P r s) (hp : Sequences P) : Acts P r (desireAgainst t s) := by
  unfold desireAgainst; (repeat' split) <;> first
    | exact h
    | exact abortToSafe_acts h hp
    | exact afterSettled_acts (cancelTransition_acts h hp) hp

theorem takeRecord_acts (h : Acts P r s) (hp : Sequences P) : Acts P r (takeRecord s) := by
  unfold takeRecord; dsimp only; (repeat' split) <;> first
    | exact h
    | exact startTest_acts (runningUpdate_acts (updateCandidate_acts _ h hp) hp) hp
    | exact desireAgainst_acts _ (updateCandidate_acts _ h hp) hp
    | exact updateCandidate_acts _ h hp

theorem leaveNow_acts (m : Mode) (h : Acts P r s) (hp : Sequences P) : Acts P r (leaveNow m s) :=
  ite_acts (beginTransition_acts _ _ (clearCandidate_acts (h.seq _ hp.seq) hp) hp)
    (afterSettled_acts (clearCandidate_acts (h.seq _ hp.seq) hp) hp)

theorem leaveLater_acts (m : Mode) (h : Acts P r s) (hp : Sequences P) : Acts P r (leaveLater m s) :=
  clearCandidate_acts (h.seq _ hp.seq) hp

theorem forceLeave_acts (m : Mode) (h : Acts P r s) (hp : Sequences P) : Acts P r (forceLeave m s) := by
  unfold forceLeave; dsimp only; (repeat' split) <;> first
    | exact h
    | exact leaveNow_acts _ h hp
    | exact leaveNow_acts _ (endWait_acts (cancelRequest_acts h hp) hp) hp
    | exact afterSettled_acts (clearCandidate_acts (cancelTransition_acts h hp) hp) hp
    | exact leaveLater_acts _ h hp

theorem linkLost_acts (h : Acts P r s) (hp : Sequences P) : Acts P r (linkLost s) :=
  ite_acts (forceLeave_acts _ (forceLeave_acts _ h hp) hp) (forceLeave_acts _ (forceLeave_acts _ h hp) hp)

theorem defrostTimers_acts (old : Option Mode) (m : Mode) (h : Acts P r s) (hp : Sequences P) : Acts P r (defrostTimers old m s) :=
  ite_acts (h.seq _ hp.seq) (ite_acts (h.seq _ hp.seq) h)

theorem enterMode_acts (m : Mode) (h : Acts P r s) (hp : Sequences P) : Acts P r (enterMode m s) :=
  (setMode_acts m (h.seq _ hp.seq) hp).post _ hp.notices

theorem rampCompleted_acts (m : Mode) (h : Acts P r s) (hp : Sequences P) : Acts P r (rampCompleted m s) := by
  unfold rampCompleted; dsimp only
  have h1 : Acts P r (if s.seq.mode = some m then s else enterMode m s) := ite_acts h (enterMode_acts m h hp)
  have h2 := releaseUnneeded_acts (some m) h1 hp
  have h3 : Acts P r (if s.seq.mode = some m then releaseUnneeded (some m) (if s.seq.mode = some m then s else enterMode m s)
      else defrostTimers s.seq.mode m (releaseUnneeded (some m) (if s.seq.mode = some m then s else enterMode m s))) :=
    ite_acts h2 (defrostTimers_acts _ m h2 hp)
  have h4 := toSettled_acts h3 hp
  split
  · exact leaveNow_acts _ h4 hp
  · exact afterSettled_acts h4 hp

theorem takeCompletion_acts (n : Nat) (h : Acts P r s) (hp : Sequences P) : Acts P r (takeCompletion n s) := by
  unfold takeCompletion; (repeat' split) <;> first
    | exact h
    | exact rampCompleted_acts _ h hp

theorem reportOnce_acts (h : Acts P r s) (hp : Sequences P) : Acts P r (reportOnce s) :=
  ite_acts (takeCompletion_acts _ (h.demands _ hp.out rfl rfl (.inr rfl) (.inr rfl) (.inr (sameFire_rfl _))) hp) h

theorem reportAll_acts (n : Nat) (h : Acts P r s) (hp : Sequences P) : Acts P r (reportAll n s) := by
  induction n generalizing s with
  | zero => exact h
  | succ n ih => exact ite_acts (ih (reportOnce_acts h hp)) h

theorem settleRamps_acts (h : Acts P r s) (hp : Sequences P) : Acts P r (settleRamps s) := reportAll_acts 8 h hp

theorem takeClaimReport_acts (x : ClaimReport) (h : Acts P r s) (hp : Sequences P) : Acts P r (takeClaimReport x s) := by
  unfold takeClaimReport; dsimp only; (repeat' split) <;> first
    | exact h
    | exact enterWaitOrRamp_acts _ _ h hp
    | exact abandon_acts _ h hp
    | exact forceLeave_acts _ h hp
    | exact startTest_acts h hp

theorem takeClaimReports_acts (l : List ClaimReport) (h : Acts P r s) (hp : Sequences P) : Acts P r (takeClaimReports l s) := by
  induction l generalizing s with
  | nil => exact h
  | cons x rest ih => exact ih (takeClaimReport_acts x h hp)

theorem reported_acts {x : Reported} (h : ReportedActs P r x) (hp : Sequences P) : Acts P r (reported x) :=
  takeClaimReports_acts _ h hp

theorem waitTest_acts (h : Acts P r s) (hp : Sequences P) : Acts P r (waitTest s) := by
  unfold waitTest; (repeat' split) <;> first
    | exact h
    | exact enterRamping_acts _ h hp

theorem takePeerReport_acts (x : PeerReport) (h : Acts P r s) (hp : Sequences P) : Acts P r (takePeerReport x s) := by
  unfold takePeerReport; (repeat' split) <;> first
    | exact h
    | exact waitTest_acts h hp
    | exact waitTest_acts (h.seq _ hp.seq) hp

theorem takePeerReports_acts (l : List PeerReport) (h : Acts P r s) (hp : Sequences P) : Acts P r (takePeerReports l s) := by
  induction l generalizing s with
  | nil => exact h
  | cons x rest ih => exact ih (takePeerReport_acts x h hp)

theorem suspend_acts (h : Acts P r s) (hp : Sequences P) : Acts P r (suspend s) := by
  unfold suspend; dsimp only; split
  · exact h
  · split <;> exact setPhase_acts _ ((endWait_acts h hp).seq _ hp.seq) hp

theorem dropRecord_acts (x : Suspension) (h : Acts P r s) (hp : Sequences P) : Acts P r (dropRecord x s) :=
  (h.seq _ hp.seq).post _ hp.notices

theorem resume_acts (x : Suspension) (h : Acts P r s) (hp : Sequences P) : Acts P r (resume x s) := by
  have h1 := (h.seq { s.seq with record := none, transition := some { target := x.target, forced := x.forced } } hp.seq).post
    (.resumed x.target) hp.notices
  unfold resume; dsimp only; split
  · exact ite_acts (abandon_acts _ (enterFirstPhase_acts _ _ h1 hp) hp) (enterFirstPhase_acts _ _ h1 hp)
  · exact enterWaitOrRamp_acts _ _ h1 hp
  · exact enterRamping_acts _ h1 hp

theorem rampBack_acts (h : Acts P r s) (hp : Sequences P) : Acts P r (rampBack s) := by
  unfold rampBack; split
  · exact h
  · exact enterRamping_acts _ (h.seq _ hp.seq) hp

theorem releaseSettled_acts (h : Acts P r s) (hp : Sequences P) : Acts P r (releaseSettled s) := by
  have h1 := setPhase_acts .settled h hp
  unfold releaseSettled; dsimp only; (repeat' split) <;> first
    | exact exitTest_acts h1 hp
    | exact leaveNow_acts _ h1 hp
    | exact startTest_acts h1 hp
    | exact exitTest_acts (postSet_seq_acts _ h1 hp) hp
    | exact leaveNow_acts _ (postSet_seq_acts _ h1 hp) hp
    | exact startTest_acts (postSet_seq_acts _ h1 hp) hp

theorem resumeOrSettle_acts (h : Acts P r s) (hp : Sequences P) : Acts P r (resumeOrSettle s) := by
  unfold resumeOrSettle; dsimp only; (repeat' split) <;> first
    | exact h
    | exact beginTransition_acts _ _ h hp
    | exact beginTransition_acts _ _ (dropRecord_acts _ h hp) hp
    | exact releaseSettled_acts h hp
    | exact rampBack_acts (dropRecord_acts _ h hp) hp
    | exact resume_acts _ h hp

theorem sequencerStart_acts (h : Acts P r s) (hp : Sequences P) : Acts P r (sequencerStart s) :=
  postSet_seq_acts _ (h.seq _ hp.seq) hp

theorem sequencerRestart_acts (h : Acts P r s) (hp : Sequences P) : Acts P r (sequencerRestart s) :=
  postSet_seq_acts _ ((endWait_acts h hp).seq _ hp.seq) hp

/-! ## Limit Supervisor (R179 to R195) -/

/-- The parts an operation of the Limit Supervisor may change. -/
structure Supervises (P : Part → Bool) : Prop extends Sequences P where
  limits : P .limits = true
  guards : P .guards = true

theorem postGuards_acts (h : Acts P r s) (hp : Supervises P) : Acts P r (postGuards s) :=
  ite_acts h (setGuards_acts _ (h.limits _ hp.limits) hp.out hp.wheel hp.guards)

theorem followHold_acts (h : Acts P r s) (hp : Supervises P) : Acts P r (followHold s) :=
  ite_acts (startTest_acts (h.limits _ hp.limits) hp.toSequences) (h.limits _ hp.limits)

theorem moveLimit_acts (n : LimitName) (v : LimitState) (b : NoticeBody) (h : Acts P r s) (hp : Supervises P) :
    Acts P r (moveLimit n v b s) :=
  followHold_acts (postGuards_acts (ite_acts (h.limits _ hp.limits) ((h.limits _ hp.limits).post _ hp.notices)) hp) hp

theorem judge_acts (n : LimitName) (trip v : Int) (src : TripSource) (h : Acts P r s) (hp : Supervises P) :
    Acts P r (judge n trip v src s) := by
  unfold judge; (repeat' split) <;> first
    | exact h
    | exact moveLimit_acts _ _ _ h hp

theorem takeEstimate_acts (h : Acts P r s) (hp : Supervises P) : Acts P r (takeEstimate s) := by
  unfold takeEstimate; (repeat' split) <;> first
    | exact h
    | exact judge_acts _ _ _ _ h hp

theorem stallFound_acts (h : Acts P r s) (hp : Supervises P) : Acts P r (stallFound s) :=
  moveLimit_acts _ _ _ (h.limits _ hp.limits) hp

theorem clearStall_acts (h : Acts P r s) (hp : Supervises P) : Acts P r (clearStall s) :=
  ite_acts ((moveLimit_acts _ _ _ h hp).limits _ hp.limits) (moveLimit_acts _ _ _ h hp)

theorem rotationPulse_acts (h : Acts P r s) (hm : P .limits = true) : Acts P r (rotationPulse s) :=
  ite_acts (h.limits _ hm) (h.limits _ hm)

theorem limitsRestart_acts (h : Acts P r s) (hp : Supervises P) : Acts P r (limitsRestart s) :=
  (setGuards_acts _ (h.limits _ hp.limits) hp.out hp.wheel hp.guards).limits _ hp.limits

end Sys2Proof.Machine
end

