-- ==== Sys2Proof/Laws/StationActs.lean ====
section
/-! SUPPORT. What the operations that reach several blocks can do, as acts on the parts each may change: evaluations, the link's states,
frames, the FIRE input, the start of the blocks and RESTART. -/

namespace Sys2Proof.Machine

variable {P : Part → Bool} {r s : State}

/-! ## Evaluations (R5 to R25) -/

theorem unordered_acts {f g : State → State} (hf : ∀ s, Acts P r s → Acts P r (f s)) (hg : ∀ s, Acts P r s → Acts P r (g s))
    (h : Acts P r s) (hc : P .choices = true) : Acts P r (unordered f g s) :=
  ite_acts (hg _ (hf _ h)) (ite_acts ((hg _ (hf _ h)).choices _ hc) ((hf _ (hg _ h)).choices _ hc))

/-- The parts an evaluation may change. -/
structure Evaluates (P : Part → Bool) : Prop extends Supervises P where
  band : P .band = true
  decision : P .decision = true
  choices : P .choices = true

theorem handToSequencer_acts (h : Acts P r s) (hp : Sequences P) : Acts P r (handToSequencer s) :=
  settleRamps_acts (takeRecord_acts h hp) hp

theorem handToLimits_acts (h : Acts P r s) (hp : Supervises P) : Acts P r (handToLimits s) :=
  settleRamps_acts (takeEstimate_acts h hp) hp.toSequences

theorem evaluate_acts (h : Acts P r s) (hp : Evaluates P) : Acts P r (evaluate s) :=
  unordered_acts (fun _ h => handToSequencer_acts h hp.toSequences) (fun _ h => handToLimits_acts h hp.toSupervises)
    (makeRecord_acts h hp.band hp.notices hp.decision) hp.choices

theorem requestEvaluation_acts (h : Acts P r s) (hp : Evaluates P) : Acts P r (requestEvaluation s) :=
  ite_acts (evaluate_acts h hp) h

/-! ## Link (R93 to R111) -/

@[simp] theorem stopTimers_sequence (l : Link) : (stopTimers l).sequence = l.sequence := rfl

@[simp] theorem emptySlot_sequence (sl : Slot) (l : Link) : (emptySlot sl l).sequence = l.sequence := by cases sl <;> rfl

@[simp] theorem keepRelease_sequence (x : Resource) (l : Link) : (keepRelease x l).sequence = l.sequence := by
  unfold keepRelease; split <;> simp

@[simp] theorem linkRestart_sequence (l : Link) : (linkRestart l).sequence = l.sequence := by simp [linkRestart]

theorem disturbFrom_acts (was : LinkState) (h : Acts P r s) (hc : P .claims = true) : Acts P r (disturbFrom was s) :=
  ite_acts (disturb_acts h hc) h

theorem enterJoining_acts (h : Acts P r s) (hl : P .link = true) : Acts P r (enterJoining s) := h.link _ hl rfl

theorem enterOffline_acts (h : Acts P r s) (hp : Sequences P) : Acts P r (enterOffline s) :=
  settleRamps_acts (linkLost_acts (disturbFrom_acts _ (h.link _ hp.link (by simp)) hp.claims) hp) hp

theorem enterQuiet_acts (k : FrameKind) (h : Acts P r s) (hp : Sequences P) : Acts P r (enterQuiet k s) :=
  settleRamps_acts (reported_acts (thenReport_acts (quietProc_acts _
    (disturbFrom_acts _ ((h.link _ hp.link (by simp)).post _ hp.notices) hp.claims) hp.claims hp.link hp.notices)
    fun _ h' => quietProc_acts _ h' hp.claims hp.link hp.notices) hp) hp

theorem enterClashed_acts (k : FrameKind) (shaft : Nat) (h : Acts P r s) (hp : Sequences P) : Acts P r (enterClashed k shaft s) :=
  settleRamps_acts (linkLost_acts (reported_acts (thenReport_acts (clashProc_acts _
    (disturbFrom_acts _ ((h.link _ hp.link (by simp)).post _ hp.notices) hp.claims) hp.claims)
    fun _ h' => clashProc_acts _ h' hp.claims) hp) hp) hp

theorem leaveQuiet_acts (h : Acts P r s) (hl : P .link = true) (hn : P .notices = true) : Acts P r (leaveQuiet s) :=
  Acts.post _ (Acts.link _ h hl rfl) hn

theorem leaveJoining_acts (h : Acts P r s) (hp : Evaluates P) : Acts P r (leaveJoining s) :=
  requestEvaluation_acts (queueBeacon_acts (h.link _ hp.link rfl) hp.link) hp

theorem beaconPeriod_acts (h : Acts P r s) (hl : P .link = true) : Acts P r (beaconPeriod s) :=
  (queueBeacon_acts h hl).link _ hl rfl

theorem numberFrame_acts (h : Acts P r s) (hl : P .number = true) : Acts P r (numberFrame s) := h.number _ hl

theorem handToClaims_acts (a : Nat) (b : FrameBody) (h : Acts P r s) (hp : Sequences P) : Acts P r (handToClaims a b s) := by
  unfold handToClaims; dsimp only; split
  · exact settleRamps_acts (reported_acts (takeClaimFrame_acts _ _ _ h hp.claims hp.notices) hp) hp
  · exact settleRamps_acts (reported_acts (thenReport_acts (takeBeaconClaims_acts _ _ _ h hp.claims hp.notices)
      fun _ h' => takeFire_acts _ _ h' hp.claims hp.link hp.notices) hp) hp
  · exact takeFire_acts _ _ h hp.claims hp.link hp.notices

theorem handToFilters_acts (a shaft : Nat) (b : FrameBody) (h : Acts P r s) (hp : Sequences P) (ht : P .peers = true) :
    Acts P r (handToFilters a shaft b s) := by
  unfold handToFilters; dsimp only; split
  · exact h
  · exact ite_acts (settleRamps_acts (takePeerReports_acts _ (peerBeacon_acts a shaft _ h ht hp.notices) hp) hp) h
  · exact ite_acts (peerAlert_acts _ _ h ht) h

theorem handOn_acts (f : RiserFrame) (h : Acts P r s) (hp : Sequences P) (ht : P .peers = true) : Acts P r (handOn f s) := by
  unfold handOn; (repeat' split)
  · exact h
  · exact handToFilters_acts _ _ _ (handToClaims_acts _ _ h hp) hp ht
  · exact handToFilters_acts _ _ _ h hp ht

theorem processFrame_acts (f : RiserFrame) (h : Acts P r s) (hp : Sequences P) (hq : P .number = true) (ht : P .peers = true) :
    Acts P r (processFrame f s) := by
  have h1 := numberFrame_acts h hq
  exact ite_acts (ite_acts h1 (enterClashed_acts _ _ h1 hp)) (ite_acts h1 (handOn_acts f h1 hp ht))

theorem receiveFrame_acts (f : LineFrame) (h : Acts P r s) (hp : Sequences P) (hq : P .number = true) (ht : P .peers = true) :
    Acts P r (receiveFrame f s) := by
  unfold receiveFrame; split
  · exact h
  · exact ite_acts (processFrame_acts _ h hp hq ht) h

theorem receiveFault_acts (h : Acts P r s) (hc : P .claims = true) : Acts P r (receiveFault s) := ite_acts (disturb_acts h hc) h

theorem beginTransmit_acts (h : Acts P r s) (hl : P .link = true) : Acts P r (beginTransmit s) := by
  unfold beginTransmit; (repeat' split) <;> first
    | exact h
    | exact h.link _ hl rfl

theorem followUp_acts (b a : Bool) (sl : Slot) (h : Acts P r s) (hl : P .link = true) : Acts P r (followUp b a sl s) := by
  cases sl <;> first
    | exact h
    | exact ite_acts (queueBeacon_acts h hl) h
    | exact ite_acts (queueAlert_acts h hl) h

theorem transmitted_acts (h : Acts P r s) (hp : Sequences P) (hq : P .number = true) : Acts P r (transmitted s) := by
  unfold transmitted; dsimp only; split
  · exact h
  · exact settleRamps_acts (reported_acts (takeOwnFrame_acts _ _ (followUp_acts _ _ _ (h.number _ hq) hp.link) hp.claims
      hp.notices) hp) hp

theorem transmitFailed_acts (h : Acts P r s) (hp : Sequences P) : Acts P r (transmitFailed s) := by
  unfold transmitFailed; dsimp only; split
  · exact h
  · exact ite_acts (enterQuiet_acts _ h hp) (h.link _ hp.link (by simp))

/-! ## FIRE (R174, R175) -/

theorem assertFire_acts (h : Acts P r s) (hp : Sequences P) (hf : P .fire = true) : Acts P r (assertFire s) :=
  settleRamps_acts (outputsFireAsserted_acts (ite_acts (forBoth_acts (fun _ _ h' => fireProc_acts _ h' hp.claims hp.link)
    (suspend_acts h hp)) h) hp.out hp.wheel hp.notices hf) hp

theorem releaseFire_acts (h : Acts P r s) (hp : Evaluates P) (hf : P .fire = true) : Acts P r (releaseFire s) := by
  have h1 := settleRamps_acts (outputsFireReleased_acts h hp.out hp.wheel hp.notices hf) hp.toSequences
  exact ite_acts (requestEvaluation_acts (settleRamps_acts (resumeOrSettle_acts
    (forBoth_acts (fun _ _ h' => takeWaiting_acts _ h' hp.claims hp.link) h1) hp.toSequences) hp.toSequences) hp) h1

theorem fireChanges_acts (level : Bool) (h : Acts P r s) (hp : Evaluates P) (hf : P .fire = true) : Acts P r (fireChanges level s) := by
  have h1 := h.demands { s.out with fireFiltered := level, fireSince := none } hp.out rfl rfl (.inr rfl) (.inr rfl) (.inl hf)
  exact ite_acts h1 (ite_acts (assertFire_acts (queueAlert_acts h1 hp.link) hp.toSequences hf)
    (releaseFire_acts (queueAlert_acts h1 hp.link) hp hf))

theorem assertIfFire_acts (h : Acts P r s) (hp : Sequences P) (hf : P .fire = true) : Acts P r (assertIfFire s) :=
  ite_acts (assertFire_acts h hp hf) h

/-! ## Close and RESTART (R203, R212, R213) -/

theorem linkStart_acts (h : Acts P r s) (hl : P .link = true) : Acts P r (linkStart s) := ite_acts h (enterJoining_acts h hl)

theorem startBlocks_acts (h : Acts P r s) (hp : Evaluates P) (ht : P .peers = true) : Acts P r (startBlocks s) := by
  unfold startBlocks
  exact settleRamps_acts (sequencerStart_acts ((((linkStart_acts h hp.link).decision _ hp.decision).claims _ hp.claims
    (fun _ => claimsSound_start _) |>.band _ hp.band).peers _ ht (fun hs => hs)) hp.toSequences) hp.toSequences

theorem dropManual_acts (h : Acts P r s) (ho : P .out = true) (hm : P .wheel = true) (hu : P .manuals = true) :
    Acts P r (dropManual s) := changeDemands_acts _ h ho hm rfl rfl (.inr rfl) (.inl hu) (.inr (sameFire_rfl _))

theorem acceptRestart_acts (h : Acts P r s) (hp : Evaluates P) (hr : P .restarting = true)
    (hu : P .manuals = true) : Acts P r (acceptRestart s) := by
  unfold acceptRestart
  exact settleRamps_acts (sequencerRestart_acts (dropManual_acts (((forBoth_acts (fun _ _ h' => restartProc_acts _ h' hp.claims hp.link)
    ((h.restarting true hr).link _ hp.link (by simp))).decision _ hp.decision).band _ hp.band) hp.out hp.wheel hu) hp.toSequences)
    hp.toSequences

theorem portRestart_acts (h : Acts P r s) (hn : P .notices = true) (hm : P .meas = true) : Acts P r (portRestart s) :=
  Acts.post _ (Acts.emptied (Acts.meas .empty h hm) hn) hn

theorem linkRestarted_acts (h : Acts P r s) (hl : P .link = true) : Acts P r (linkRestarted s) :=
  enterJoining_acts (h.link _ hl (by simp)) hl

theorem completeRestart_acts (h : Acts P r s) (hp : Evaluates P) (hr : P .restarting = true) (hm : P .meas = true)
    (ht : P .peers = true) (hf : P .fire = true) : Acts P r (completeRestart s) := by
  unfold completeRestart
  exact assertIfFire_acts (settleRamps_acts (Acts.restarting false (linkRestarted_acts (sequencerStart_acts (limitsRestart_acts
    (((((portRestart_acts h hp.notices hm).decision _ hp.decision).peers _ ht (fun _ => peersSound_nil rfl)).claims _
      hp.claims (fun _ => claimsSound_start _)).band _ hp.band) hp.toSupervises) hp.toSequences) hp.link) hr) hp.toSequences)
    hp.toSequences hf

theorem finishRestart_acts (h : Acts P r s) (hp : Evaluates P) (hr : P .restarting = true) (hm : P .meas = true)
    (ht : P .peers = true) (hf : P .fire = true) : Acts P r (finishRestart s) :=
  ite_acts (completeRestart_acts h hp hr hm ht hf) h

/-! ## Measurements (R204, R205) -/

theorem writeMeas_acts (ch : MeasChannel) (v : Option Int) (h : Acts P r s) (hp : Supervises P) (hm : P .meas = true)
    (hr : P .reply = true) (hb : P .band = true) : Acts P r (writeMeas ch v s) := by
  unfold writeMeas; dsimp only; split
  · refine reply_acts _ _ (settleRamps_acts ?_ hp.toSequences) hr
    cases ch <;> first
      | exact judge_acts _ _ _ _ (h.meas _ hm) hp
      | exact h.meas _ hm
  · refine replyOk_acts ?_ hr
    cases ch <;> first
      | exact ite_acts ((h.meas _ hm).band _ hb) (h.meas _ hm)
      | exact h.meas _ hm

theorem lapse_acts (ch : MeasChannel) (h : Acts P r s) (hm : P .meas = true) (hn : P .notices = true) : Acts P r (lapse ch s) := by
  unfold lapse; dsimp only; (repeat' split) <;> first
    | exact h.meas _ hm
    | exact Acts.post _ (h.meas _ hm) hn

/-! ## Queue (R209) -/

theorem popNotice_acts (h : Acts P r s) (hn : P .notices = true) (hr : P .reply = true) : Acts P r (popNotice s) := by
  unfold popNotice; split
  next n rest heq => exact reply_acts _ _ (h.popped rest hn (by rw [heq]; exact Nat.le_succ _)) hr
  next => exact reply_acts _ _ (h.emptied hn) hr

/-! ## What acts leave -/

@[simp] theorem wheelFollows_pending (s : State) : (wheelFollows s).pending = s.pending := by
  unfold wheelFollows; dsimp only; (repeat' split) <;> rfl

@[simp] theorem setPresent_pending (ch : Channel) (v acc : Nat) (s : State) : (setPresent ch v acc s).pending = s.pending := by
  simp [setPresent]

@[simp] theorem wheelFollows_now (s : State) : (wheelFollows s).now = s.now := by
  unfold wheelFollows; dsimp only; (repeat' split) <;> rfl

@[simp] theorem setPresent_now (ch : Channel) (v acc : Nat) (s : State) : (setPresent ch v acc s).now = s.now := by
  simp [setPresent]

@[simp] theorem wheelFollows_firePin (s : State) : (wheelFollows s).firePin = s.firePin := by
  unfold wheelFollows; dsimp only; (repeat' split) <;> rfl

@[simp] theorem setPresent_firePin (ch : Channel) (v acc : Nat) (s : State) : (setPresent ch v acc s).firePin = s.firePin := by
  simp [setPresent]

@[simp] theorem wheelFollows_rotPin (s : State) : (wheelFollows s).rotPin = s.rotPin := by
  unfold wheelFollows; dsimp only; (repeat' split) <;> rfl

@[simp] theorem setPresent_rotPin (ch : Channel) (v acc : Nat) (s : State) : (setPresent ch v acc s).rotPin = s.rotPin := by
  simp [setPresent]

@[simp] theorem wheelFollows_port (s : State) : (wheelFollows s).port = s.port := by
  unfold wheelFollows; dsimp only; (repeat' split) <;> rfl

@[simp] theorem setPresent_port (ch : Channel) (v acc : Nat) (s : State) : (setPresent ch v acc s).port = s.port := by
  simp [setPresent]

@[simp] theorem wheelFollows_link (s : State) : (wheelFollows s).link = s.link := by
  unfold wheelFollows; dsimp only; (repeat' split) <;> rfl

@[simp] theorem setPresent_link (ch : Channel) (v acc : Nat) (s : State) : (setPresent ch v acc s).link = s.link := by
  simp [setPresent]

@[simp] theorem wheelFollows_peers (s : State) : (wheelFollows s).peers = s.peers := by
  unfold wheelFollows; dsimp only; (repeat' split) <;> rfl

@[simp] theorem setPresent_peers (ch : Channel) (v acc : Nat) (s : State) : (setPresent ch v acc s).peers = s.peers := by
  simp [setPresent]

@[simp] theorem wheelFollows_band (s : State) : (wheelFollows s).band = s.band := by
  unfold wheelFollows; dsimp only; (repeat' split) <;> rfl

@[simp] theorem setPresent_band (ch : Channel) (v acc : Nat) (s : State) : (setPresent ch v acc s).band = s.band := by
  simp [setPresent]

@[simp] theorem wheelFollows_decision (s : State) : (wheelFollows s).decision = s.decision := by
  unfold wheelFollows; dsimp only; (repeat' split) <;> rfl

@[simp] theorem setPresent_decision (ch : Channel) (v acc : Nat) (s : State) : (setPresent ch v acc s).decision = s.decision := by
  simp [setPresent]

@[simp] theorem wheelFollows_claims (s : State) : (wheelFollows s).claims = s.claims := by
  unfold wheelFollows; dsimp only; (repeat' split) <;> rfl

@[simp] theorem setPresent_claims (ch : Channel) (v acc : Nat) (s : State) : (setPresent ch v acc s).claims = s.claims := by
  simp [setPresent]

@[simp] theorem wheelFollows_seq (s : State) : (wheelFollows s).seq = s.seq := by
  unfold wheelFollows; dsimp only; (repeat' split) <;> rfl

@[simp] theorem setPresent_seq (ch : Channel) (v acc : Nat) (s : State) : (setPresent ch v acc s).seq = s.seq := by
  simp [setPresent]

@[simp] theorem wheelFollows_choices (s : State) : (wheelFollows s).choices = s.choices := by
  unfold wheelFollows; dsimp only; (repeat' split) <;> rfl

@[simp] theorem setPresent_choices (ch : Channel) (v acc : Nat) (s : State) : (setPresent ch v acc s).choices = s.choices := by
  simp [setPresent]

@[simp] theorem wheelFollows_guard (s : State) : (wheelFollows s).out.guard = s.out.guard := by
  unfold wheelFollows; dsimp only; (repeat' split) <;> rfl

@[simp] theorem setPresent_guard (ch : Channel) (v acc : Nat) (s : State) : (setPresent ch v acc s).out.guard = s.out.guard := by
  simp [setPresent]

@[simp] theorem wheelFollows_manual (s : State) : (wheelFollows s).out.manual = s.out.manual := by
  unfold wheelFollows; dsimp only; (repeat' split) <;> rfl

@[simp] theorem setPresent_manual (ch : Channel) (v acc : Nat) (s : State) : (setPresent ch v acc s).out.manual = s.out.manual := by
  simp [setPresent]

@[simp] theorem wheelFollows_fire (s : State) : (wheelFollows s).out.fire = s.out.fire := by
  unfold wheelFollows; dsimp only; (repeat' split) <;> rfl

@[simp] theorem setPresent_fire (ch : Channel) (v acc : Nat) (s : State) : (setPresent ch v acc s).out.fire = s.out.fire := by
  simp [setPresent]

@[simp] theorem wheelFollows_fireFiltered (s : State) : (wheelFollows s).out.fireFiltered = s.out.fireFiltered := by
  unfold wheelFollows; dsimp only; (repeat' split) <;> rfl

@[simp] theorem setPresent_fireFiltered (ch : Channel) (v acc : Nat) (s : State) : (setPresent ch v acc s).out.fireFiltered = s.out.fireFiltered := by
  simp [setPresent]

@[simp] theorem wheelFollows_fireSince (s : State) : (wheelFollows s).out.fireSince = s.out.fireSince := by
  unfold wheelFollows; dsimp only; (repeat' split) <;> rfl

@[simp] theorem setPresent_fireSince (ch : Channel) (v acc : Nat) (s : State) : (setPresent ch v acc s).out.fireSince = s.out.fireSince := by
  simp [setPresent]

@[simp] theorem wheelFollows_seqSet (s : State) : (wheelFollows s).out.seqSet = s.out.seqSet := by
  unfold wheelFollows; dsimp only; (repeat' split) <;> rfl

@[simp] theorem setPresent_seqSet (ch : Channel) (v acc : Nat) (s : State) : (setPresent ch v acc s).out.seqSet = s.out.seqSet := by
  simp [setPresent]

@[simp] theorem wheelFollows_posting (s : State) : (wheelFollows s).out.posting = s.out.posting := by
  unfold wheelFollows; dsimp only; (repeat' split) <;> rfl

@[simp] theorem setPresent_posting (ch : Channel) (v acc : Nat) (s : State) : (setPresent ch v acc s).out.posting = s.out.posting := by
  simp [setPresent]

@[simp] theorem wheelFollows_completionPending (s : State) : (wheelFollows s).out.completionPending = s.out.completionPending := by
  unfold wheelFollows; dsimp only; (repeat' split) <;> rfl

@[simp] theorem setPresent_completionPending (ch : Channel) (v acc : Nat) (s : State) : (setPresent ch v acc s).out.completionPending = s.out.completionPending := by
  simp [setPresent]

/-- Acts leave the waiting commands. -/
theorem Acts.pending (h : Acts P r s) : s.pending = r.pending := by
  induction h <;> first | rfl | assumption | simpa using ‹_›

/-- Acts leave the time base. -/
theorem Acts.now (h : Acts P r s) : s.now = r.now := by
  induction h <;> first | rfl | assumption | simpa using ‹_›

/-- Acts leave the configuration. -/
theorem Acts.cfg (h : Acts P r s) : s.cfg = r.cfg := by
  induction h <;> first | rfl | assumption | simpa [State.cfg] using ‹_›

/-- Acts leave the closed flag. -/
theorem Acts.closed (h : Acts P r s) : s.port.closed = r.port.closed := by
  induction h <;> first | rfl | assumption | simpa using ‹_›

/-- Acts that may not change the Mode Sequencer leave it. -/
theorem Acts.seq_eq (h : Acts P r s) (h0 : P .seq = false) : s.seq = r.seq := by
  induction h <;> first | rfl | assumption | simp_all

/-- Acts that may not change the Claim Unit leave it. -/
theorem Acts.claims_eq (h : Acts P r s) (h0 : P .claims = false) : s.claims = r.claims := by
  induction h <;> first | rfl | assumption | simp_all

/-- Acts that may not change the Band Estimator leave it. -/
theorem Acts.band_eq (h : Acts P r s) (h0 : P .band = false) : s.band = r.band := by
  induction h <;> first | rfl | assumption | simp_all

/-- Acts that may not change the Decision Unit leave it. -/
theorem Acts.decision_eq (h : Acts P r s) (h0 : P .decision = false) : s.decision = r.decision := by
  induction h <;> first | rfl | assumption | simp_all

/-- Acts that may not change the Peer Table leave it. -/
theorem Acts.peers_eq (h : Acts P r s) (h0 : P .peers = false) : s.peers = r.peers := by
  induction h <;> first | rfl | assumption | simp_all

/-- Acts that may not change the Output Unit leave it. -/
theorem Acts.out_eq (h : Acts P r s) (h0 : P .out = false) : s.out = r.out := by
  induction h <;> first | rfl | assumption | simp_all

/-- Acts that may not change the Limit Supervisor leave it but for what the wheel-run output starts and stops (R184, R192). -/
theorem Acts.limits_eq (h : Acts P r s) (h0 : P .limits = false) :
    s.limits = { r.limits with stallTimer := s.limits.stallTimer, lastWrap := s.limits.lastWrap } := by
  induction h with
  | refl => rfl
  | moved ch v acc _ _ _ ih =>
    unfold setPresent wheelFollows; dsimp only
    (repeat' split) <;> (simp only [State.setOut_limits, State.setLimits_limits]; rw [ih])
  | limits _ _ hp => rw [h0] at hp; cases hp
  | _ => assumption

/-- Acts that may not move the outputs leave the stall timer and the last wrap time too. -/
theorem Acts.limits_all_eq (h : Acts P r s) (h0 : P .limits = false) (h1 : P .wheel = false) : s.limits = r.limits := by
  induction h <;> first | rfl | assumption | simp_all

/-- Acts that may not change the Link Controller leave it. -/
theorem Acts.link_eq (h : Acts P r s) (h0 : P .link = false) (h1 : P .number = false) : s.link = r.link := by
  induction h <;> first | rfl | assumption | simp_all

/-- Acts that number no frame leave the receive sequence counter (R93). -/
theorem Acts.sequence_eq (h : Acts P r s) (h0 : P .number = false) : s.link.sequence = r.link.sequence := by
  induction h <;> first | rfl | assumption | simp_all

/-- Acts that read no free value leave the count of them. -/
theorem Acts.choices_eq (h : Acts P r s) (h0 : P .choices = false) : s.choices = r.choices := by
  induction h <;> first | rfl | assumption | simp_all

/-- Acts that may not change the pins leave FIRE. -/
theorem Acts.firePin_eq (h : Acts P r s) (h0 : P .pins = false) : s.firePin = r.firePin := by
  induction h <;> first | rfl | assumption | simp_all

/-- Acts that may not change the pins leave ROT. -/
theorem Acts.rotPin_eq (h : Acts P r s) (h0 : P .pins = false) : s.rotPin = r.rotPin := by
  induction h <;> first | rfl | assumption | simp_all

/-- Acts that may not change the restarting flag leave it. -/
theorem Acts.restarting_eq (h : Acts P r s) (h0 : P .restarting = false) : s.port.restarting = r.port.restarting := by
  induction h <;> first | rfl | assumption | simp_all

/-- Acts that may not change the measurement store leave it. -/
theorem Acts.meas_eq (h : Acts P r s) (h0 : P .meas = false) : s.port.meas = r.port.meas := by
  induction h <;> first | rfl | assumption | simp_all

/-- Acts that make no reply leave the last one. -/
theorem Acts.reply_eq (h : Acts P r s) (h0 : P .reply = false) : s.port.reply = r.port.reply := by
  induction h <;> first | rfl | assumption | simp_all

/-- Acts that may not change the notice queue leave it. -/
theorem Acts.notices_eq (h : Acts P r s) (h0 : P .notices = false) : s.port.notices = r.port.notices := by
  induction h <;> first | rfl | assumption | simp_all

/-- Acts that may not change the guard demands leave them. -/
theorem Acts.guard_eq (h : Acts P r s) (h0 : P .guards = false) : s.out.guard = r.out.guard := by
  induction h with
  | refl => rfl
  | demands o _ _ _ _ hg _ _ ih =>
    rcases hg with hg | hg
    · simp_all
    · exact hg.trans ih
  | moved ch v acc _ _ _ ih => rwa [setPresent_guard]
  | _ => assumption

/-- Acts that may not change the manual demands leave them. -/
theorem Acts.manual_eq (h : Acts P r s) (h0 : P .manuals = false) : s.out.manual = r.out.manual := by
  induction h with
  | refl => rfl
  | demands o _ _ _ _ _ hu _ ih =>
    rcases hu with hu | hu
    · simp_all
    · exact hu.trans ih
  | moved ch v acc _ _ _ ih => rwa [setPresent_manual]
  | _ => assumption

/-- Acts that may not change the fire demands leave them and the FIRE filter. -/
theorem Acts.fire_eq (h : Acts P r s) (h0 : P .fire = false) : SameFire s.out r.out := by
  induction h with
  | refl => exact sameFire_rfl _
  | demands o _ _ _ _ _ _ hf ih =>
    rcases hf with hf | hf
    · simp_all
    · exact ⟨hf.1.trans ih.1, hf.2.1.trans ih.2.1, hf.2.2.trans ih.2.2⟩
  | moved ch v acc _ _ _ ih => exact ⟨(setPresent_fire ..).trans ih.1, (setPresent_fireFiltered ..).trans ih.2.1,
      (setPresent_fireSince ..).trans ih.2.2⟩
  | _ => assumption

/-! ## What acts keep -/

/-- Acts keep the Peer Table sound. -/
theorem Acts.peersSound (h : Acts P r s) (hr : PeersSound r.peers) : PeersSound s.peers := by
  induction h with
  | refl => exact hr
  | peers p _ _ hp ih => exact hp ih
  | moved ch v acc _ _ _ ih => rwa [setPresent_peers]
  | _ => assumption

/-- Acts keep the Claim Unit sound. -/
theorem Acts.claimsSound (h : Acts P r s) (hr : ClaimsSound r.claims) : ClaimsSound s.claims := by
  induction h with
  | refl => exact hr
  | claims c _ _ hc ih => exact hc ih
  | moved ch v acc _ _ _ ih => rwa [setPresent_claims]
  | _ => assumption

theorem wheelFollows_sound (s : State) : WheelSound (wheelFollows s).out := by
  unfold wheelFollows WheelSound; dsimp only
  split
  next h => exact h.symm
  next => split <;> rfl

/-- Acts keep the wheel-run output on exactly while WHL is above 0 (R163). -/
theorem Acts.wheelSound (h : Acts P r s) (hr : WheelSound r.out) : WheelSound s.out := by
  induction h with
  | refl => exact hr
  | demands o _ _ hp hw _ _ _ ih => unfold WheelSound at *; rw [State.setOut_out, hp, hw]; exact ih
  | moved ch v acc _ _ _ ih => exact wheelFollows_sound _
  | _ => assumption

theorem dropOldestEvent_length {q q' : List Notice} (h : dropOldestEvent q = some q') : q'.length + 1 = q.length := by
  induction q generalizing q' with
  | nil => simp [dropOldestEvent] at h
  | cons n rest ih =>
    simp only [dropOldestEvent] at h
    split at h
    · cases h; rfl
    · obtain ⟨x, hx, rfl⟩ := Option.map_eq_some_iff.1 h
      simp [ih hx]

/-- A posting keeps the queue within its 16 places (R208). -/
theorem queueNotice_length {q : List Notice} {f : Bool} {n : Notice} (h : q.length ≤ noticeCapacity) :
    (queueNotice q f n).1.length ≤ noticeCapacity := by
  unfold queueNotice; (repeat' split)
  · simp only [List.length_append, List.length_cons, List.length_nil]; omega
  next hq => have := dropOldestEvent_length hq; simp only [List.length_append, List.length_cons, List.length_nil]; omega
  · exact h
  · exact h

/-- Acts after close keep the notice queue within its bound and ATTN with it (R208, R210). -/
theorem Acts.queueSound (h : Acts P r s) (hlen : r.port.notices.length ≤ noticeCapacity)
    (hattn : r.port.attn = attnOf r.port.cfg.attnMask r.port.notices) :
    s.port.notices.length ≤ noticeCapacity ∧ s.port.attn = attnOf s.port.cfg.attnMask s.port.notices := by
  induction h with
  | refl => exact ⟨hlen, hattn⟩
  | moved ch v acc _ _ _ ih => rwa [setPresent_port]
  | post b _ _ ih => exact ⟨queueNotice_length ih.1, rfl⟩
  | emptied _ _ ih => exact ⟨Nat.zero_le _, rfl⟩
  | popped q _ _ hq ih => exact ⟨Nat.le_trans hq ih.1, rfl⟩
  | _ => assumption

end Sys2Proof.Machine
end

