-- ==== Sys2Proof/Laws/ExecActs.lean ====
section
/-! SUPPORT. What a command can do, said once: every command reaches its next state by acts, but POWER_ON_RESET and what opens or closes
the configuration. -/

namespace Sys2Proof.Machine

variable {P : Part → Bool} {r s : State}

/-- A choice of parts that leaves out at most the numbering of frames and the pins. -/
structure Whole (P : Part → Bool) : Prop extends Evaluates P where
  peers : P .peers = true
  manuals : P .manuals = true
  fire : P .fire = true
  reply : P .reply = true
  meas : P .meas = true
  restarting : P .restarting = true

theorem answerPeer_acts (i : Nat) (h : Acts P r s) (hr : P .reply = true) : Acts P r (answerPeer i s) := by
  unfold answerPeer; dsimp only; (repeat' split) <;> exact h.reply _ hr

theorem answerClaim_acts (i : Nat) (h : Acts P r s) (hr : P .reply = true) : Acts P r (answerClaim i s) := by
  unfold answerClaim; dsimp only; (repeat' split) <;> exact h.reply _ hr

/-- Every part but the numbering of frames and the pins. -/
abbrev Part.quiet : Part → Bool := fun p => p != .number && p != .pins

theorem whole_quiet : Whole Part.quiet := ⟨⟨⟨⟨rfl, rfl, rfl, rfl, rfl, rfl⟩, rfl, rfl⟩, rfl, rfl, rfl⟩, rfl, rfl, rfl, rfl, rfl, rfl⟩

/-- Every part. -/
abbrev Part.any : Part → Bool := fun _ => true

theorem whole_any : Whole Part.any := ⟨⟨⟨⟨rfl, rfl, rfl, rfl, rfl, rfl⟩, rfl, rfl⟩, rfl, rfl, rfl⟩, rfl, rfl, rfl, rfl, rfl, rfl⟩

/-- A close reaches its state by acts from the state with the checked record closed (R201 to R203). -/
theorem closeConfig_acts (s : State) (hp : Whole P) :
    Acts P (s.setPort { s.port with cfg := (closeChecks s.cfg).1, closed := true }) (closeConfig s) := by
  unfold closeConfig
  exact Acts.reply _ (postAll_acts _ (assertIfFire_acts (startBlocks_acts .refl hp.toEvaluates hp.peers) hp.toSequences hp.fire)
    hp.notices) hp.reply

/-- Every command answers a next state that acts reach, but POWER_ON_RESET and, before close, CFG WRITE and CFG CLOSE. Only received
frames and transmit successes number a frame, and only pin changes touch the pins. -/
theorem exec_acts (hp : Whole P) (c : Instr) (hc : c ≠ .powerOnReset)
    (hopen : s.port.closed = true ∨ ((∀ w, c ≠ .cfgWrite w) ∧ c ≠ .cfgClose))
    (hnum : P .number = true ∨ ((∀ f, c ≠ .frameReceived f) ∧ c ≠ .transmitSuccess))
    (hpins : P .pins = true ∨ ((∀ l, c ≠ .firePinChange l) ∧ ∀ l, c ≠ .rotPinChange l)) :
    ∃ t, exec c s = .next t ∧ Acts P s t := by
  have h0 : Acts P s s := .refl
  have he := hp.toEvaluates
  have hv := hp.toSupervises
  have hs := hp.toSequences
  have hl := hp.link
  have hcl := hp.claims
  have hsq := hp.seq
  have ho := hp.out
  have hw := hp.wheel
  have hn := hp.notices
  have hr := hp.reply
  cases c with
  | powerOnReset => exact absurd rfl hc
  | transactionDiscarded => exact ⟨_, rfl, h0.reply _ hr⟩
  | badCommand => exact ⟨_, rfl, h0.reply _ hr⟩
  | cfgWrite w =>
    refine ⟨_, rfl, ?_⟩
    rw [if_pos (hopen.resolve_right fun h => h.1 w rfl)]
    exact ite_acts (h0.reply _ hr) (h0.reply _ hr)
  | cfgRead i => refine ⟨_, rfl, ?_⟩; split <;> exact h0.reply _ hr
  | cfgClose => exact ⟨_, rfl, by rw [if_pos (hopen.resolve_right fun h => h.2 rfl)]; exact h0.reply _ hr⟩
  | measWrite ch v =>
    refine ⟨_, rfl, admitClosed_acts h0 hr ?_⟩
    split
    · exact h0.reply _ hr
    · exact writeMeas_acts _ _ h0 hv hp.meas hr hp.band
  | setpointWrite v => exact ⟨_, rfl, admit_acts h0 hr ((h0.decision _ hp.decision).reply _ hr)⟩
  | sourceSelect src =>
    refine ⟨_, rfl, admit_acts h0 hr ?_⟩
    (repeat' split) <;> first
      | exact h0.reply _ hr
      | exact (h0.band _ hp.band).reply _ hr
  | manualPost ch p d =>
    refine ⟨_, rfl, admit_acts h0 hr ?_⟩
    (repeat' split) <;> first
      | exact h0.reply _ hr
      | exact (settleRamps_acts (setManual_acts _ _ h0 ho hw hp.manuals) hs).reply _ hr
  | manualCancel ch =>
    refine ⟨_, rfl, admit_acts h0 hr ?_⟩
    (repeat' split) <;> first
      | exact h0.reply _ hr
      | exact (settleRamps_acts (setManual_acts _ _ h0 ho hw hp.manuals) hs).reply _ hr
  | limitClear =>
    exact ⟨_, rfl, admit_acts h0 hr (ite_acts (h0.reply _ hr) ((settleRamps_acts (clearStall_acts h0 hv) hs).reply _ hr))⟩
  | linkOn =>
    refine ⟨_, rfl, ?_⟩
    (repeat' split) <;> first
      | exact h0.reply _ hr
      | exact Acts.reply _ (Acts.link _ h0 hl rfl) hr
      | exact (settleRamps_acts (startTest_acts (enterJoining_acts h0 hl) hs) hs).reply _ hr
  | linkOff =>
    refine ⟨_, rfl, ?_⟩
    (repeat' split) <;> first
      | exact h0.reply _ hr
      | exact Acts.reply _ (Acts.link _ h0 hl rfl) hr
      | exact (enterOffline_acts h0 hs).reply _ hr
  | statusRead => exact ⟨_, rfl, h0.reply _ hr⟩
  | evalRead => exact ⟨_, rfl, admitClosed_acts h0 hr (h0.reply _ hr)⟩
  | peerRead i => exact ⟨_, rfl, admitClosed_acts h0 hr (answerPeer_acts i h0 hr)⟩
  | claimRead i => exact ⟨_, rfl, admitClosed_acts h0 hr (answerClaim_acts i h0 hr)⟩
  | noticePop => exact ⟨_, rfl, popNotice_acts h0 hn hr⟩
  | identRead => exact ⟨_, rfl, h0.reply _ hr⟩
  | restart =>
    exact ⟨_, rfl, admit_acts h0 hr (finishRestart_acts ((acceptRestart_acts h0 he hp.restarting hp.manuals).reply _ hr) he hp.restarting hp.meas
      hp.peers hp.fire)⟩
  | restartCompletion => exact ⟨_, rfl, finishRestart_acts h0 he hp.restarting hp.meas hp.peers hp.fire⟩
  | evalTimerExpiry => exact ⟨_, rfl, ite_acts (evaluate_acts (h0.decision _ hp.decision) he) h0⟩
  | bandHoldExpiry => exact ⟨_, rfl, ite_acts (loseBand_acts h0 hp.band hn) h0⟩
  | slewStep ch => exact ⟨_, rfl, ite_acts (settleRamps_acts (slewOnce_acts ch h0 ho hw) hs) h0⟩
  | dwellExpiry => exact ⟨_, rfl, ite_acts (settleRamps_acts (startTest_acts (h0.seq _ hsq) hs) hs) h0⟩
  | defrostCycleExpiry => exact ⟨_, rfl, ite_acts (settleRamps_acts (exitTest_acts (h0.seq _ hsq) hs) hs) h0⟩
  | followTimeout =>
    refine ⟨_, rfl, ite_acts ?_ h0⟩
    unfold followGivenUp; split
    · exact settleRamps_acts (enterRamping_acts _ (h0.post _ hn) hs) hs
    · exact h0
  | firePinChange level => exact ⟨_, rfl, Acts.demands _ (h0.firePin level (hpins.resolve_right fun h => h.1 level rfl)) ho rfl rfl (.inr rfl)
      (.inr rfl) (.inl hp.fire)⟩
  | fireFilterExpiry => exact ⟨_, rfl, ite_acts (fireChanges_acts _ h0 he hp.fire) h0⟩
  | frameReceived f => exact ⟨_, rfl, receiveFrame_acts f h0 hs (hnum.resolve_right fun h => h.1 f rfl) hp.peers⟩
  | receiveError => exact ⟨_, rfl, receiveFault_acts h0 hcl⟩
  | transmitAttemptStart => exact ⟨_, rfl, beginTransmit_acts h0 hl⟩
  | transmitSuccess => exact ⟨_, rfl, transmitted_acts h0 hs (hnum.resolve_right fun h => h.2 rfl)⟩
  | waitingRequestTaken x => exact ⟨_, rfl, ite_acts (takeWaiting_acts x h0 hcl hl) h0⟩
  | deferredIntentQueue x => exact ⟨_, rfl, ite_acts (queueIntent_acts x h0 hl) h0⟩
  | arbitrationLost => exact ⟨_, rfl, h0.link _ hl (by simp)⟩
  | transmitFailure => exact ⟨_, rfl, transmitFailed_acts h0 hs⟩
  | quietTimerExpiry => exact ⟨_, rfl, ite_acts (leaveQuiet_acts h0 hl hn) h0⟩
  | joiningTimerExpiry => exact ⟨_, rfl, ite_acts (leaveJoining_acts h0 he) h0⟩
  | beaconTimerExpiry => exact ⟨_, rfl, ite_acts (beaconPeriod_acts h0 hl) h0⟩
  | claimHoldoffExpiry x =>
    exact ⟨_, rfl, ite_acts (settleRamps_acts (reported_acts (decideAttempt_acts x h0 hcl hl hn) hs) hs) h0⟩
  | backoffExpiry x => exact ⟨_, rfl, ite_acts (ite_acts (toIdle_acts _ _ h0 hcl) (beginAttempt_acts _ _ h0 hcl hl)) h0⟩
  | lockoutExpiry x => exact ⟨_, rfl, ite_acts (settleRamps_acts (takeClaimReports_acts _ (toIdle_acts _ _ h0 hcl) hs) hs) h0⟩
  | claimRecordExpiry a x => exact ⟨_, rfl, ite_acts (removeRecord_acts a x h0 hcl) h0⟩
  | fireSetExpiry a => exact ⟨_, rfl, ite_acts (fireGone_acts a h0 hcl hl hn) h0⟩
  | peerStale a => exact ⟨_, rfl, ite_acts (settleRamps_acts (takePeerReports_acts _ (peerGoesStale_acts a h0 hp.peers) hs) hs) h0⟩
  | peerLost a => exact ⟨_, rfl, ite_acts (settleRamps_acts (takePeerReports_acts _ (losePeer_acts a _ h0 hp.peers hn) hs) hs) h0⟩
  | measurementStale ch => exact ⟨_, rfl, ite_acts (lapse_acts ch h0 hp.meas hn) h0⟩
  | manualExpired ch =>
    refine ⟨_, rfl, ?_⟩
    split
    · exact settleRamps_acts (setManual_acts _ _ (h0.post _ hn) ho hw hp.manuals) hs
    · exact h0
  | stallTimerExpiry => exact ⟨_, rfl, ite_acts (settleRamps_acts (stallFound_acts h0 hv) hs) h0⟩
  | rotPinChange level => exact ⟨_, rfl, Acts.limits _ (h0.rotPin level (hpins.resolve_right fun h => h.2 level rfl)) hp.limits⟩
  | rotFilterExpiry =>
    refine ⟨_, rfl, ite_acts ?_ h0⟩
    exact ite_acts (rotationPulse_acts (h0.limits _ hp.limits) hp.limits) (h0.limits _ hp.limits)

end Sys2Proof.Machine
end

