-- ==== Sys2Proof/Laws/OutputLaws.lean ====
section
/-! SUPPORT. What the operations of the Output Unit do to the channels that jump (R167): a change of demands leaves each of them at its
demand, and neither a slew step nor a tick moves one. -/

namespace Sys2Proof.Machine

/-- A channel's value after one channel's value is replaced. -/
theorem chGet_chSet {α : Type} (p : PerChannel α) (ch x : Channel) (v : α) :
    chGet (chSet p ch v) x = if x = ch then v else chGet p x := by cases ch <;> cases x <;> rfl

/-- What setting an output sets (R163). -/
theorem setPresent_present (ch : Channel) (v acc : Nat) (s : State) : (setPresent ch v acc s).out.present = chSet s.out.present ch v := by
  unfold setPresent wheelFollows; dsimp only; repeat' split
  all_goals rfl

/-- No channel's aim rests on where the outputs stand (R164, R165). -/
theorem setPresent_aim (c : Settings) (ch x : Channel) (v acc : Nat) (s : State) :
    aim c (setPresent ch v acc s).out x = aim c s.out x := by
  unfold setPresent wheelFollows; dsimp only; repeat' split
  all_goals rfl

/-- What settling a channel after a change of demands can do: no channel's aim changes, no other channel moves, and the channel itself
stands at a demand that is taken in a jump (R167). -/
theorem settleChannel_spec (old : OutputUnit) (ch : Channel) (s : State) :
    (settleChannel old ch s).cfg = s.cfg ∧ (∀ c x, aim c (settleChannel old ch s).out x = aim c s.out x)
      ∧ (∀ x, x ≠ ch → chGet (settleChannel old ch s).out.present x = chGet s.out.present x)
      ∧ ∀ v, aim s.cfg s.out ch = some (v, true) → chGet (settleChannel old ch s).out.present ch = v := by
  unfold settleChannel; dsimp only; (repeat' split) <;> rename_i h <;>
    refine ⟨?_, fun c x => ?_, fun x hx => ?_, fun v hv => ?_⟩
  all_goals first
    | rfl
    | exact setPresent_aim ..
    | (rw [setPresent_present, chGet_chSet, if_neg hx])
    | (rw [setPresent_present, chGet_chSet, if_pos rfl]; simp_all)
    | (simp [State.cfg]; done)
    | simp_all

/-- After a change of demands, whatever it is, every channel that jumps stands at its demand (R165, R167). -/
theorem changeDemands_jumps (f : OutputUnit → OutputUnit) (s : State) : JumpsMade (changeDemands f s) := by
  unfold changeDemands; dsimp only
  generalize s.setOut (f s.out) = u
  generalize s.out = old
  obtain ⟨c1, a1, o1, j1⟩ := settleChannel_spec old .oda u
  obtain ⟨c2, a2, o2, j2⟩ := settleChannel_spec old .byp (settleChannel old .oda u)
  obtain ⟨c3, a3, o3, j3⟩ := settleChannel_spec old .whl (settleChannel old .byp (settleChannel old .oda u))
  intro ch v h
  rw [a3, c3] at h
  cases ch with
  | oda => rw [o3 _ (by decide), o2 _ (by decide)]; exact j1 v (by rwa [a2, a1, c2, c1] at h)
  | byp => rw [o3 _ (by decide)]; exact j2 v (by rwa [a2, c2] at h)
  | whl => exact j3 v h
/-- A slew step moves no channel that jumps (R166, R167). -/
theorem slewOnce_jumps (ch : Channel) {s : State} (h : JumpsMade s) : JumpsMade (slewOnce ch s) := by
  unfold slewOnce
  split
  next d hd =>
    intro x v hx
    rw [setPresent_aim, show (setPresent ch _ _ s).cfg = s.cfg by simp [State.cfg]] at hx
    have hne : x ≠ ch := fun e => by subst e; rw [hd] at hx; cases hx
    rw [setPresent_present, chGet_chSet, if_neg hne]
    exact h x v hx
  · exact h

/-- A tick moves no output (R166). -/
theorem accumulate_jumps (ch : Channel) {s : State} (h : JumpsMade s) : JumpsMade (accumulate ch s) := by
  unfold accumulate; split <;> exact h

end Sys2Proof.Machine
end

