-- ==== Sys2Proof/Tests/Slice0.lean ====
section
/-! SUPPORT. Tests of single commands on small states, from the spec's own tables and worked cases, and for every obligation that has
hypotheses a state and operands that meet them. -/

namespace Sys2Proof.Tests

open Sys2Proof.Machine

/-! ## Small states -/

/-- The default configuration with the identity of the spec's station 12 at level 40 of shaft 3. -/
def cfg12 : Settings := { defaults with ident := { addr := some 12, level := some 40, shaft := some 3, cls := 1 } }

/-- That station before close. -/
def opened : State := State.reset.setPort { Port.reset with cfg := cfg12 }

/-- A sequencer settled in a mode. -/
def settledIn (m : Mode) : Sequencer :=
  { Sequencer.reset with mode := some m, phase := some .settled, demands := some ⟨150, 0, 1000⟩ }

/-- That station closed, ONLINE and SETTLED in SAFE with its outputs at their demands, at uptime 100 s. -/
def station : State :=
  (((((State.reset.setPort { Port.reset with cfg := cfg12, closed := true }).setLink { Link.reset with state := .online }).setSeq
    (settledIn .safe)).setOut { OutputUnit.reset with
      present := ⟨150, 0, 1000⟩, seqSet := some ⟨150, 0, 1000⟩, posting := 1, wheelRun := true }).setClaims
    { ClaimUnit.reset with capacity := ⟨some 100, some 1⟩ }).setNow 100000

/-- A state with its port, link, sequencer, outputs, limits or configuration changed. -/
def port (f : Port → Port) (s : State) : State := s.setPort (f s.port)
def link (f : Link → Link) (s : State) : State := s.setLink (f s.link)
def seqr (f : Sequencer → Sequencer) (s : State) : State := s.setSeq (f s.seq)
def outs (f : OutputUnit → OutputUnit) (s : State) : State := s.setOut (f s.out)
def lims (f : Limits → Limits) (s : State) : State := s.setLimits (f s.limits)
def conf (f : Settings → Settings) : State → State := port fun p => { p with cfg := f p.cfg }

/-- A state with an own claim process in a state, its timer due now. -/
def proc (r : Resource) (st : ProcState) (s : State) : State :=
  s.setClaims { s.claims with proc := resSet s.claims.proc r { Process.idle with state := st, attempt := 1, timer := some 100000 } }

/-- A state with a claim list. -/
def claims (l : List ClaimRecord) (s : State) : State := s.setClaims { s.claims with list := l }

/-- A claim record of RELIEF. -/
def claim (addr amount : Nat) (held : Bool) (cls : Nat) (seq : Word32) : ClaimRecord :=
  { addr := addr, res := .relief, amount := amount, held := held, cls := cls, seq := seq, capacity := some 20, refreshed := 90000 }

/-- A BEACON body of a settled peer with a valid probe. -/
def beacon (level : Nat) : BeaconBody :=
  { mode := .recover, phase := .settled, fire := false, defrostHeld := false, level := level, probeT := some 120, probeW := some 60,
    quality := .valid, reliefUnits := 0, cls := 1, follow := .below }

/-- The record of a peer heard at uptime 90 s. -/
def peer (addr level : Nat) (t w : Int) : PeerRecord :=
  { addr := addr, shaft := 3, level := level, cls := 1, follow := .below, mode := .recover, phase := .settled, fire := false
    obsT := some t, obsW := some w, quality := .valid, lastBeacon := 90000, lastHeard := 90000, beaconsHeard := 1, fresh := true }

/-- A state with peer records. -/
def peers (l : List PeerRecord) (s : State) : State := s.setPeers { s.peers with records := l }

/-- A measurement written now. -/
def reading (v : Int) : Meas := { value := some v, arrival := some 100000, clamped := false, lapsed := false }

/-- A state with measurements written now on two channels. -/
def measured (a b : MeasChannel) (v w : Int) : State → State :=
  port fun p => { p with meas := setMeas (setMeas p.meas a (reading v)) b (reading w) }

/-- The state a command leaves. -/
def after (c : Instr) (s : State) : State :=
  match exec c s with
  | .next t => t
  | _ => s

/-- The status of the reply a command leaves. -/
def answer (c : Instr) (s : State) : Option ReplyStatus := (after c s).port.reply.map (·.status)

/-! ## Well-formed commands: an ill-formed term for each check -/

theorem test_frame_of_nine_bytes_is_ill_formed :
    WellFormed (.frameReceived { extended := true, remote := false, ident := 0, data := List.replicate 9 0 }) = false := by decide

theorem test_wide_identifier_of_a_base_frame_is_ill_formed :
    WellFormed (.frameReceived { extended := false, remote := false, ident := 2048, data := [] }) = false := by decide

theorem test_claim_record_expiry_of_address_0_is_ill_formed : WellFormed (.claimRecordExpiry 0 .relief) = false := by decide
theorem test_fire_set_expiry_of_address_49_is_ill_formed : WellFormed (.fireSetExpiry 49) = false := by decide
theorem test_peer_stale_of_address_0_is_ill_formed : WellFormed (.peerStale 0) = false := by decide
theorem test_peer_lost_of_address_49_is_ill_formed : WellFormed (.peerLost 49) = false := by decide

theorem test_sent_frames_and_addresses_are_well_formed :
    WellFormed (.frameReceived (lineFrame 7 48 (.beacon (beacon 127)))) = true ∧ WellFormed (.peerLost 48) = true
      ∧ WellFormed (.peerStale 1) = true := by decide

/-! ## Decoding: no row of the table gives bits -/

theorem test_no_word_spells_a_command : decodeTableWord 16 0x1234 = none ∧ station.withFetchWord 16 0x1234 = station := by decide

/-! ## Frames (R89, R90), written out from the tables -/

/-- BEACON of shaft 3, address 12: urgency 5, kind 1. -/
theorem test_beacon_frame :
    lineFrame 3 12 (.beacon (beacon 40)) =
      { extended := true, remote := false, ident := 0b10100010110011000000000000000
        data := [0x01, 0x28, 0x00, 0x78, 0x00, 0x3C, 0x00, 0x05] } := by decide

/-- INTENT of shaft 3, address 30 for RELIEF, amount 10, class 2, attempt 1, capacity 300: urgency 3, kind 2. -/
theorem test_intent_frame :
    lineFrame 3 30 (.claim (.intent .relief 10 2 1 300)) =
      { extended := true, remote := false, ident := 0b01100100110111100000000000000
        data := [0x01, 0x0A, 0x02, 0x01, 0x01, 0x2C, 0x00, 0x00] } := by decide

/-- HELD, WITHDRAW, RELEASE and ALERT carry their codes. -/
theorem test_claim_and_alert_payloads :
    bodyBytes (.claim (.held .defrost 1 4095)) = [2, 1, 0x0F, 0xFF, 0, 0, 0, 0]
      ∧ bodyBytes (.claim (.withdraw .relief .frozen)) = [1, 4, 0, 0, 0, 0, 0, 0]
      ∧ bodyBytes (.claim (.release .defrost .restart)) = [2, 3, 0, 0, 0, 0, 0, 0]
      ∧ bodyBytes (.alert ⟨false, 75⟩) = [2, 75, 0, 0, 0, 0, 0, 0] := by decide

/-- An absent probe is sent as 8000 hex with quality 2 (R91), and a negative one in two's complement. -/
theorem test_beacon_probe_fields :
    (beaconBytes { beacon 40 with quality := .absent, probeT := none, probeW := none }).drop 2 = [0x80, 0x00, 0x80, 0x00, 0x00, 0x05]
      ∧ (beaconBytes { beacon 40 with probeT := some (-150), probeW := some 300 }).drop 2 = [0xFF, 0x6A, 0x01, 0x2C, 0x00, 0x05] := by
  decide

/-- A frame of address 0, of 7 bytes, of kind 7 or a remote frame is no riser frame; the urgency is not examined (R90). -/
theorem test_riser_frames :
    readRiser { lineFrame 3 12 (.alert ⟨true, 40⟩) with ident := 0b00001100110000000000000000000 } = none
      ∧ readRiser { lineFrame 3 12 (.alert ⟨true, 40⟩) with data := List.replicate 7 0 } = none
      ∧ readRiser { lineFrame 3 12 (.alert ⟨true, 40⟩) with ident := 0b00001110110011000000000000000 } = none
      ∧ readRiser { lineFrame 3 12 (.alert ⟨true, 40⟩) with remote := true } = none
      ∧ (readRiser { lineFrame 3 12 (.alert ⟨true, 40⟩) with ident := 0b11101100110011000000000000000 }).map (·.kind)
          = some .alert := by decide

/-! ## The arithmetic's worked cases (1.13 to 1.15) -/

/-- The inputs of 1.13. -/
def coldDay : EvalInputs :=
  { bandStatus := .valid, tO := some (-150), wO := some 14, tR := some 221, wR := some 72, tSp := 160, spOrigin := .dflt,
    inFree := false, inDefrost := false, isolated := false, defrostAllowed := true }

theorem test_cold_day_enthalpies : enthalpy (-150) 14 = -1163 ∧ enthalpy 221 72 = 4054 := by decide

theorem test_cold_day_asks_for_defrost :
    let e := evalRecord cfg12 7 coldDay
    e.desired = some .defrost ∧ e.reason = some .frost ∧ e.tX = some (-58) ∧ e.needed = some 835 ∧ e.speed = some 400
      ∧ e.demand = some ⟨150, 1000, 1000⟩ ∧ e.favour = false ∧ e.recoveryUseful = true ∧ e.frostRisk = true := by decide

theorem test_cold_day_without_defrost_recovers :
    let e := evalRecord cfg12 7 { coldDay with defrostAllowed := false }
    e.desired = some .recover ∧ e.reason = some .outdoorLimit ∧ e.demand = some ⟨150, 0, 400⟩ := by decide

theorem test_first_evaluation_into_free :
    let e := evalRecord cfg12 7 { coldDay with tO := some 120, wO := some 60, tR := some 235, wR := some 80, spOrigin := .written }
    e.hO = some 2721 ∧ e.hR = some 4400 ∧ e.desired = some .free ∧ e.reason = some .freeFavoured ∧ e.tX = some 148
      ∧ e.mixing = some 652 ∧ e.speed = none := by decide

theorem test_other_side_of_the_setpoint :
    let e := evalRecord { cfg12 with decision := { cfg12.decision with basis := .drybulb } } 7
      { coldDay with tO := some 100, tR := some 220, tSp := 90, isolated := true }
    e.needed = some (-83) ∧ e.desired = some .neutral ∧ e.reason = some .isolated ∧ e.tX = some 130
      ∧ e.demand = some ⟨150, 1000, 0⟩ := by decide

/-! ## Filters (5.6), medians (7.10), precedence (3.11) -/

/-- The slots of 5.6, station 21 at level 60 of shaft 3, FILT1's window as exchanged at close. -/
def chain56 : Settings :=
  { defaults with
    ident := { addr := some 21, level := some 60, shaft := some 3, cls := 1 }
    filters := {
      f0 := { defaultFilter true with window := .relative 10 }
      f1 := { defaultFilter true with alerts := false, selector := .any, window := .absolute 56 64 }
      f2 := { defaultFilter true with alerts := false, selector := .number 4 }
      f3 := { defaultFilter true with alerts := false, selector := .any, window := .absolute 61 127, inverse := true, join := true } } }

theorem test_worked_chain :
    filtersAccept chain56 true 3 66 = true ∧ filtersAccept chain56 false 3 75 = false ∧ filtersAccept chain56 true 6 58 = true
      ∧ filtersAccept chain56 true 4 52 = true ∧ filtersAccept chain56 true 4 90 = false
      ∧ filtersAccept chain56 false 4 52 = false := by decide

theorem test_close_exchanges_the_window :
    (adjustFilter 1 { chain56 with filters := { chain56.filters with
      f1 := { defaultFilter true with window := .absolute 64 56 } } }).1.filters.f1.window = .absolute 56 64 := by decide

theorem test_medians : median [116, 118, 121, 124, 152] = 121 ∧ median [121, 118] = 119 ∧ median [-3, -2] = -3 := by decide

/-- A hold-off that ends now, at the effective capacity 20 of 3.11. -/
def deciding (l : List ClaimRecord) : State :=
  (proc .relief .holdoff station).setClaims { (proc .relief .holdoff station).claims with capacity := ⟨some 20, some 1⟩, list := l }

/-- Station 30's list at 3.10 seen from the own station: 5 holds, 9's INTENT is of a lower class, and the own claim of class 2 fits. -/
theorem test_station_30_commits :
    (procOf (after (.claimHoldoffExpiry .relief) (deciding [claim 5 10 true 1 990, claim 9 10 false 1 1001, claim 12 10 false 2 1002]))
      .relief).state = .committing := by decide

/-- Had the HELD of 1.52 been heard, the attempt would have failed FULL. -/
theorem test_full_capacity_fails_the_attempt :
    let t := after (.claimHoldoffExpiry .relief) (deciding [claim 5 10 true 1 990, claim 9 10 true 1 1001, claim 12 10 false 2 1002])
    (procOf t .relief).state = .backoff ∧ claimIn t .relief = some (.withdraw .relief .full)
      ∧ (procOf t .relief).timer = some (100000 + 4000 + 12 % 8 * 250) := by decide

/-! ## The port's commands -/

theorem test_power_on_reset_opens_the_configuration :
    (after .powerOnReset station).port.closed = false ∧ (after .powerOnReset station).now = 0 := by decide

theorem test_discarded_transaction_leaves_no_reply : (after .transactionDiscarded (after .identRead station)).port.reply = none := by
  decide

theorem test_bad_command_is_refused : answer .badCommand station = some (.refused .badCommand) := by decide

theorem test_cfg_write_clamps :
    (after (.cfgWrite (.numeric .tFrost (-151))) opened).cfg.decision.tFrost = -150
      ∧ answer (.cfgWrite (.numeric .tFrost (-151))) opened = some .clamped := by decide

theorem test_cfg_write_of_a_listed_item_takes_the_lower_value :
    (after (.cfgWrite (.listed .lineRate 124)) opened).cfg.line.lineRate = 50
      ∧ (after (.cfgWrite (.listed .lineRate 3)) opened).cfg.line.lineRate = 20 := by decide

theorem test_cfg_read_of_an_unwritten_level :
    (after (.cfgRead (.numeric .level)) State.reset).port.reply = some ⟨.ok, .item (.number none)⟩ := by decide

theorem test_close_names_what_is_missing :
    (after .cfgClose State.reset).port.reply = some ⟨.refused .missingIdentity, .missing true true true⟩ := by decide

theorem test_close_joins_the_line :
    (after .cfgClose opened).link.joinTimer = some 10000 ∧ (after .cfgClose opened).seq.mode = some .safe := by decide

theorem test_meas_write_clamps_and_stamps :
    (after (.measWrite (some .returnW) (some 301)) station).port.meas.returnW
      = { value := some 300, arrival := some 100000, clamped := true, lapsed := false } := by decide

theorem test_meas_write_of_supply_t_trips_the_limit :
    (after (.measWrite (some .supplyT) (some 59)) station).limits.supplyLow = .active 59 .supplyT := by decide

theorem test_setpoint_is_clamped : (after (.setpointWrite 251) station).decision.setpoint = some 250 := by decide

theorem test_source_without_a_value_is_not_live : answer (.sourceSelect (some .ownOnly)) station = some (.refused .sourceNotLive) := by
  decide

theorem test_manual_post_tests_operand_then_level :
    answer (.manualPost (some .oda) 1001 30) station = some (.refused .badOperand)
      ∧ (after (.manualPost (some .oda) 600 30) station).out.manual.oda = some ⟨600, 130000⟩ := by decide

theorem test_manual_cancel_of_nothing : answer (.manualCancel (some .whl)) station = some (.refused .notPosted) := by decide
theorem test_limit_clear_of_a_clear_stall : answer .limitClear station = some (.refused .notLatched) := by decide

theorem test_link_on_joins_from_offline :
    (after .linkOn (link (fun l => { l with state := .offline }) station)).link.joinTimer = some 110000 := by decide

theorem test_link_off_with_a_hold_is_refused : answer .linkOff (proc .relief .held station) = some (.refused .claimsHeld) := by decide
theorem test_status_read_is_answered_before_close : answer .statusRead State.reset = some .ok := by decide
theorem test_eval_read_before_close_is_refused : answer .evalRead opened = some (.refused .notClosed) := by decide
theorem test_peer_read_past_the_end : answer (.peerRead 1) (peers [peer 5 39 120 60] station) = some (.refused .badIndex) := by decide

theorem test_claim_read_gives_the_record :
    (after (.claimRead 0) (claims [claim 5 10 true 1 990] station)).port.reply
      = some ⟨.ok, .claim (some (claim 5 10 true 1 990)) 1⟩ := by decide

theorem test_notice_pop_of_an_empty_queue_clears_overflow :
    (after .noticePop (port (fun p => { p with overflow := true }) station)).port.reply = some ⟨.ok, .empty true⟩
      ∧ (after .noticePop (port (fun p => { p with overflow := true }) station)).port.overflow = false := by decide

theorem test_ident_read : (after .identRead State.reset).port.reply = some ⟨.ok, .ident 0x4210 3⟩ := by decide

theorem test_restart_waits_for_a_release :
    (after .restart (proc .relief .held station)).port.restarting = true
      ∧ claimIn (after .restart (proc .relief .held station)) .relief = some (.release .relief .restart) := by decide

theorem test_restart_without_a_hold_completes :
    (after .restart station).port.restarting = false ∧ (after .restart station).link.state = .joining := by decide

theorem test_restart_completion_posts_restarted :
    ((after .restartCompletion (port (fun p => { p with restarting := true }) station)).port.notices.map (·.body))
      = [.restarted] := by decide

/-! ## Events -/

theorem test_evaluation_timer_starts_again :
    (after .evalTimerExpiry (station.setDecision { Decision.reset with timer := some 100000 })).decision.timer = some 110000 := by decide

theorem test_band_hold_expiry_loses_the_value :
    (after .bandHoldExpiry (station.setBand { Band.reset with status := .held, holdTimer := some 100000 })).band.status = .unknown := by
  decide

/-- 8.10 at 160.060: WHL's first step starts the wheel. -/
theorem test_first_wheel_step_starts_the_wheel :
    let s := outs (fun o => { o with present := ⟨150, 0, 0⟩, acc := ⟨0, 0, 1000⟩, wheelRun := false }) station
    (after (.slewStep .whl) s).out.present.whl = 1 ∧ (after (.slewStep .whl) s).out.wheelRun = true
      ∧ (after (.slewStep .whl) s).limits.stallTimer = some 120000 := by decide

theorem test_dwell_expiry_starts_the_transition :
    let s := seqr (fun q => { q with candidate := some .recover, count := 6, dwellTimer := some 100000 }) station
    (after .dwellExpiry s).seq.phase = some .ramping ∧ (after .dwellExpiry s).out.seqSet = some ⟨150, 0, 100⟩ := by decide

theorem test_defrost_cycle_expiry_is_kept_while_suspended :
    let s := seqr (fun q => { q with mode := some .defrost, phase := some .suspended, defrostTimer := some 100000 }) station
    (after .defrostCycleExpiry s).seq.defrostExpired = true ∧ (after .defrostCycleExpiry s).seq.phase = some .suspended := by decide

theorem test_fire_pin_starts_the_filter : (after (.firePinChange true) station).out.fireSince = some 100000 := by decide

/-- 8.10 at 115.050: all three channels jump to the fire positions, the wheel stops. -/
theorem test_fire_takes_the_outputs :
    let s := (outs (fun o => { o with fireSince := some 99950 }) station).setFirePin true
    (after .fireFilterExpiry s).out.present = ⟨0, 1000, 0⟩ ∧ (after .fireFilterExpiry s).out.wheelRun = false
      ∧ (after .fireFilterExpiry s).seq.phase = some .suspended := by decide

theorem test_frame_with_own_address_clashes :
    (after (.frameReceived (lineFrame 5 12 (.beacon (beacon 3)))) station).link.state = .clashed := by decide

theorem test_receive_error_disturbs : (procOf (after .receiveError station) .relief).disturbed = true := by decide

theorem test_attempt_offers_the_alert_first :
    ((after .transmitAttemptStart (link (fun l => { l with alertSlot := some 9, beaconSlot := some 3 }) station)).link.attempt.map
      (·.slot)) = some .alert := by decide

theorem test_transmit_success_numbers_the_frame :
    (after .transmitSuccess (link (fun l => { l with
      beaconSlot := some 3, attempt := some ⟨.beacon, .beacon (beacon 40)⟩, sequence := 0xFFFFFFFF }) station)).link.sequence = 0 := by
  decide

theorem test_lost_arbitration_ends_the_attempt :
    (after .arbitrationLost (link (fun l => { l with attempt := some ⟨.alert, .alert ⟨true, 40⟩⟩ }) station)).link.attempt = none := by
  decide

theorem test_sixteenth_failure_goes_quiet :
    (after .transmitFailure (link (fun l => { l with
      attempt := some ⟨.beacon, .beacon (beacon 40)⟩, failCount := 15, failSlot := some .beacon }) station)).link.quietTimer
      = some 102000 := by decide

theorem test_backoff_expiry_tries_again :
    claimIn (after (.backoffExpiry .defrost) (proc .defrost .backoff station)) .defrost = some (.intent .defrost 1 1 2 1) := by decide

theorem test_lockout_expiry_frees_the_process :
    (procOf (after (.lockoutExpiry .relief) (proc .relief .starved station)) .relief).state = .idle := by decide

theorem test_fire_set_expiry_ends_the_freeze :
    (after (.fireSetExpiry 5) (station.setClaims { station.claims with fireSet := [(5, 40000)], freeze := true })).claims.freeze
      = false := by decide

theorem test_peer_goes_stale_at_its_age :
    ((after (.peerStale 5) (peers [{ peer 5 39 120 60 with lastBeacon := 85000 }] station)).peers.records.map (·.fresh)) = [false]
      ∧ ((after (.peerStale 5) (peers [{ peer 5 39 120 60 with lastBeacon := 85001 }] station)).peers.records.map (·.fresh)) = [true] := by
  decide

theorem test_peer_is_lost_at_its_age :
    ((after (.peerLost 5) (peers [{ peer 5 39 120 60 with lastHeard := 40000 }] station)).port.notices.map (·.body))
      = [.peerLost 5 .expired] := by decide

theorem test_manual_demand_expires :
    (after (.manualExpired .oda) (outs (fun o => { o with manual := ⟨some ⟨150, 100000⟩, none, none⟩ }) station)).out.manual.oda
      = none := by decide

theorem test_stall_is_noticed_after_its_period :
    (after .stallTimerExpiry (lims (fun l => { l with stallTimer := some 100000 }) station)).limits.stall = .active 20 .stallPeriod := by
  decide

/-- 9.11 at 2002.300: the second wrap under drive latches 1500 ms. -/
theorem test_second_wrap_latches_the_period :
    let s := ((lims (fun l => { l with ring := 1, revCount := 5214, lastWrap := some 2000800, rotSince := some 2002296 }) station).setNow
      2002300).setRotPin true
    (after .rotFilterExpiry s).limits.revPeriod = some 1500 ∧ (after .rotFilterExpiry s).limits.revCount = 5215 := by decide

/-! ## States that meet the obligations' hypotheses, clause by clause -/

/-- A state with a RESTART that waits. -/
def waiting (s : State) : State := port (fun p => { p with restarting := true }) s

theorem witness_EmptyQueue :
    station.pending = [] ∧ dueEvents station = []
      ∧ dueEvents (link (fun l => { l with beaconTimer := some 100000 }) station) ≠ [] := by decide

theorem witness_TimePinsSequenceAndClosedConfiguration :
    (∃ t, exec .limitClear station = .next t) ∧ Instr.limitClear ≠ .powerOnReset ∧ station.port.closed = true :=
  ⟨⟨_, rfl⟩, by decide⟩

theorem witness_ReceiveSequence : ∃ t, exec (.frameReceived (lineFrame 3 5 (.beacon (beacon 40)))) station = .next t := ⟨_, rfl⟩

theorem witness_BeforeClose : BeforeClose opened ∧ ∃ t, step (opened.setPending [.linkOff]) = .next t := by
  refine ⟨?_, _, rfl⟩
  unfold BeforeClose
  decide

theorem witness_NoticesSound : BeforeClose station ∧ NoticesSound station.port ∧ ∃ t, step (station.setPending [.restart]) = .next t :=
  ⟨fun h => absurd h (by decide), ⟨by decide, by decide, by decide⟩, _, rfl⟩

theorem witness_PeersSound :
    PeersSound (peers [peer 1 39 120 60, peer 48 41 118 58] station).peers
      ∧ ∃ t, step ((peers [peer 1 39 120 60, peer 48 41 118 58] station).setPending [.peerLost 1]) = .next t := by
  refine ⟨⟨by decide, by decide⟩, _, rfl⟩

theorem witness_ClaimsSound :
    ClaimsSound (claims [claim 1 10 true 1 3, claim 48 10 false 1 4] station).claims
      ∧ ∃ t, step ((claims [claim 1 10 true 1 3, claim 48 10 false 1 4] station).setPending [.limitClear]) = .next t := by
  refine ⟨⟨by decide, by decide, by decide, by decide⟩, _, rfl⟩

theorem witness_WheelSound : WheelSound station.out ∧ ∃ t, step (station.setPending [.slewStep .whl]) = .next t := by
  refine ⟨?_, _, rfl⟩
  unfold WheelSound
  decide

theorem witness_OutputsInRange : OutputsInRange station ∧ ∃ t, step (station.setPending [.slewStep .whl]) = .next t := by
  refine ⟨⟨⟨by decide, by decide, by decide, by decide, ?_⟩, ?_, ?_, ?_, ?_, ⟨by decide, by decide, by decide⟩, ?_⟩, _, rfl⟩
  · intro ch x h; cases ch <;> cases h <;> decide
  · intro x h; cases h
  · intro x h; cases h
  · intro d h; cases h; exact ⟨by decide, by decide, by decide⟩
  · intro d h; cases h; exact ⟨by decide, by decide, by decide⟩
  · intro ch src x h; cases ch <;> cases src <;> cases h <;> decide

/-- FREE backed by a held RELIEF claim. -/
def inFree : State := proc .relief .held (station.setSeq (settledIn .free))

theorem witness_ModeBacked : ModeBacked inFree ∧ ∃ t, step (inFree.setPending [.linkOff]) = .next t := by
  refine ⟨fun _ => ⟨?_, ?_, ?_⟩, _, rfl⟩
  · intro m h r hr; cases h; cases hr; rfl
  · intro x p h; cases h
  · intro x h; cases h

theorem witness_Completions :
    BeforeClose station ∧ completionDue station = false ∧ ∃ t, step (station.setPending [.restart]) = .next t :=
  ⟨fun h => absurd h (by decide), by decide, _, rfl⟩

theorem witness_SentFrames :
    sendable (.beacon { beacon 127 with probeT := some 600, probeW := some 300, reliefUnits := 255, cls := 3 }) = true
      ∧ sendable (.beacon { beacon 0 with probeT := none, probeW := none, quality := .absent }) = true
      ∧ sendable (.alert ⟨true, 127⟩) = true ∧ sendable (.claim (.intent .relief 255 3 15 4095)) = true
      ∧ sendable (.claim (.held .defrost 1 4095)) = true ∧ (7 ≤ 7 ∧ 1 ≤ 48 ∧ 48 ≤ 48) := by decide

theorem witness_Reads :
    let s := claims [claim 5 10 true 1 3] (peers [peer 5 39 120 60] station)
    s.port.closed = true ∧ 0 < s.peers.records.length ∧ 0 ≤ 31 ∧ s.peers.records.length ≤ 1 ∧ 31 < 32
      ∧ 0 < s.claims.list.length ∧ s.claims.list.length ≤ 1 := by decide

theorem witness_CommandsRefused :
    needsClose (.measWrite none none) = true ∧ opened.port.closed = false
      ∧ refusedWaiting (.setpointWrite 160) = true ∧ (waiting station).port.closed = true
      ∧ (waiting station).port.restarting = true := by decide

theorem witness_NumericWrite : opened.port.closed = false := by decide

theorem witness_ConfigurationWrite :
    opened.port.closed = false ∧ (∃ t, exec (.cfgWrite (.source none)) opened = .next t)
      ∧ (4 < [1, 2, 3, 4, 5].length ∧ ∃ a ∈ [(49 : Int)], a < 1 ∨ 48 < a)
      ∧ ([1, 48, 1, 2].length ≤ 4 ∧ ∀ a ∈ [(1 : Int), 48, 1, 2], 1 ≤ a ∧ a ≤ 48) :=
  ⟨by decide, ⟨_, rfl⟩, by decide, by decide⟩

theorem witness_ClosedConfiguration :
    CfgWrite.basis none ≠ .unknown ∧ station.port.closed = true ∧ State.reset.cfg.ident.addr = none := by decide

theorem witness_CloseChecks : ∀ i v, getNum cfg12 i = some v → (itemRange i).1 ≤ v ∧ v ≤ (itemRange i).2 := by
  intro i v h
  cases i <;> cases h <;> decide

/-- Before close with the OFFLINE wish and the FIRE input asserted. -/
def openedInFire : State := outs (fun o => { o with fireFiltered := true }) (link (fun l => { l with offlineWish := true }) opened)

theorem witness_CloseStarts_quiet : BeforeClose opened ∧ BeforeClose openedInFire := by
  refine ⟨?_, ?_⟩ <;> unfold BeforeClose <;> decide

theorem witness_CloseStarts :
    station.port.closed = true
      ∧ (State.reset.port.closed = false ∧ State.reset.cfg.ident.addr.isSome = false)
      ∧ (opened.port.closed = false ∧ opened.cfg.ident.addr.isSome = true
          ∧ opened.cfg.ident.level.isSome = true ∧ opened.cfg.ident.shaft.isSome = true ∧ opened.link.offlineWish = false
          ∧ opened.out.fireFiltered = false)
      ∧ openedInFire.link.offlineWish = true ∧ openedInFire.out.fireFiltered = true ∧ openedInFire.cfg.outputs.lvlSeq ≤ 3
      ∧ chGet openedInFire.cfg.outputs.fire .byp = some 1000 := by
  decide

theorem witness_MeasurementWrite :
    station.port.closed = true ∧ completionDue station = false ∧ MeasChannel.returnT ≠ .supplyT ∧ MeasChannel.returnT ≠ .exhaustT
      ∧ MeasChannel.returnT ≠ .probeT ∧ MeasChannel.returnT ≠ .probeW ∧ (waiting station).port.restarting = true
      ∧ completionDue (waiting station) = false ∧ station.port.restarting = false := by decide

theorem witness_LimitsJudged :
    station.port.closed = true ∧ completionDue station = false ∧ station.limits.supplyLow = .clear
      ∧ (59 : Int) < station.cfg.limits.tSupLow ∧ station.out.completionPending = false ∧ station.limits.hold = false
      ∧ station.port.notices.length < noticeCapacity
      ∧ (let s := lims (fun l => { l with frostTrip := .active (-58) .estimate }) station
         s.limits.frostTrip = .active (-58) .estimate ∧ s.cfg.limits.tFrostTrip + s.cfg.limits.limHyst ≤ -30
          ∧ s.port.closed = true ∧ completionDue s = false ∧ s.out.completionPending = false ∧ s.limits.hold = false)
      ∧ (let s := station.setDecision { Decision.reset with last := { EvalRecord.empty with tX := some (-58) } }
         s.decision.last.tX = some (-58) ∧ fresh s .exhaustT = false
          ∧ fresh (measured .exhaustT .supplyT (-20) 160 s) .exhaustT = true) := by decide

theorem witness_SetpointAndSource :
    station.port.closed = true ∧ station.port.restarting = false
      ∧ sourceValue .ownOnly (ownQuality station) (ownReading station) (peerSamples station) station.now = none
      ∧ (let s := measured .probeT .probeW 120 60 station
         sourceValue .ownOnly (ownQuality s) (ownReading s) (peerSamples s) s.now ≠ none) := by decide

theorem witness_ManualDemands :
    station.port.closed = true ∧ station.port.restarting = false ∧ station.out.completionPending = false
      ∧ station.cfg.outputs.lvlManual ≠ 0
      ∧ (conf (fun c => { c with outputs := { c.outputs with lvlManual := 0 } }) station).cfg.outputs.lvlManual = 0
      ∧ (1000 < 1001 ∧ 0 < 1 ∧ 3600 < 3601 ∧ 1000 ≤ 1000 ∧ 1 ≤ 3600 ∧ 3600 ≤ 3600)
      ∧ winner station.cfg (after (.manualPost (some .byp) 1000 3600) station).out .byp = some .manual
      ∧ chGet station.out.manual .oda = none
      ∧ (let s := outs (fun o => { o with manual := ⟨some ⟨600, 100000⟩, some ⟨600, 100001⟩, none⟩ }) station
         chGet s.out.manual .oda = some ⟨600, 100000⟩ ∧ 100000 ≤ s.now ∧ s.now < 100001 ∧ s.port.notices.length < noticeCapacity) := by
  decide

theorem witness_LimitClear :
    station.port.closed = true ∧ station.port.restarting = false ∧ station.limits.stall = .clear
      ∧ (let s := lims (fun l => { l with stall := .active 20 .stallPeriod }) station
         s.limits.stall ≠ .clear ∧ s.out.completionPending = false ∧ s.limits.hold = false
          ∧ (after .limitClear s).out.wheelRun = true ∧ s.port.notices.length < noticeCapacity) := by decide

theorem witness_LinkCommands :
    opened.port.closed = false ∧ station.port.closed = true ∧ station.port.restarting = false ∧ station.link.state ≠ .offline
      ∧ station.link.state ≠ .clashed ∧ station.link.state = .online
      ∧ (procOf station .relief).state = .idle ∧ (procOf (proc .defrost .starved station) .defrost).state = .starved
      ∧ (let s := link (fun l => { l with state := .offline }) station
         s.link.state = .offline ∧ s.seq.candidate = none ∧ completionDue s = false)
      ∧ (link (fun l => { l with state := .clashed }) station).link.state = .clashed
      ∧ (procOf (proc .relief .backoff station) .relief).state = .backoff := by decide

/-- A queue of sixteen notices whose third is the first EVENT. -/
def fullQueue : List Notice :=
  [⟨.bandUnknown, .warning, ⟨0, 0⟩⟩, ⟨.linkQuiet .beacon, .fault, ⟨0, 0⟩⟩] ++ List.replicate 14 ⟨.shaftFreezeOff, .event, ⟨0, 1⟩⟩

theorem witness_NoticePop :
    (port (fun p => { p with notices := fullQueue }) station).port.notices = fullQueue ∧ fullQueue ≠ []
      ∧ station.port.notices = [] := by decide

theorem witness_NoticeQueue :
    station.port.notices.length < 16 ∧ 16 ≤ fullQueue.length ∧ noticeClass .bandUnknown ≠ .fault
      ∧ noticeClass (.addressClash 12 .beacon 3) = .fault
      ∧ (∀ m ∈ List.replicate 16 (⟨.bandUnknown, .warning, ⟨0, 0⟩⟩ : Notice), m.cls ≠ .event)
      ∧ fullQueue = fullQueue.take 2 ++ ⟨.shaftFreezeOff, .event, ⟨0, 1⟩⟩ :: fullQueue.drop 3
      ∧ (∀ m ∈ fullQueue.take 2, m.cls ≠ .event) := by decide

theorem witness_RestartReleases :
    let s := proc .relief .held station
    s.port.closed = true ∧ s.port.restarting = false ∧ s.link.state = .online ∧ holds (procOf s .relief) = true
      ∧ (procOf s .relief).cause ≠ some .clash ∧ (procOf s .defrost).cause ≠ some .clash
      ∧ (procOf (proc .defrost .holdoff s) .defrost).state = .holdoff
      ∧ (link (fun l => { l with state := .quiet }) s).link.state ≠ .online ∧ releaseQueued s = false
      ∧ holds (procOf station .relief) = false ∧ holds (procOf station .defrost) = false := by decide

theorem witness_RestartCompletes :
    let s := waiting station
    s.port.closed = true ∧ s.port.restarting = true ∧ releaseQueued s = false
      ∧ releaseQueued (after .restart (proc .relief .held station)) = true := by decide

theorem witness_EvaluationTimer :
    evalDue station = false
      ∧ (let s := station.setDecision { Decision.reset with timer := some 100000 }
         s.port.closed = true ∧ s.port.restarting = false ∧ s.decision.timer = some 100000 ∧ 100000 ≤ s.now) := by decide

theorem witness_Gate :
    ({ coldDay with bandStatus := .unknown }.bandStatus = .unknown)
      ∧ ({ coldDay with wR := none }.wR = none ∧ cfg12.decision.basis ≠ .drybulb)
      ∧ (coldDay.bandStatus ≠ .unknown ∧ coldDay.tR ≠ none ∧ coldDay.wR ≠ none ∧ coldDay.tO ≠ none ∧ coldDay.wO ≠ none)
      ∧ station.decision.last.tX = none := by decide

theorem witness_Enthalpy : (-500 : Int) ≤ -500 ∧ (-500 : Int) ≤ 600 ∧ (0 : Int) ≤ 0 ∧ (0 : Int) ≤ 300
    ∧ (1006000 * (-500) + 2501000 * 0 + 186 * 0 * (-500) : Int) < 0 ∧ (0 : Int) ≤ 1006000 * 600 + 2501000 * 300 + 186 * 300 * 600 := by
  decide

theorem witness_WheelSpeed :
    1 ≤ 1000 ∧ 300 ≤ cfg12.decision.eff ∧ cfg12.decision.eff ≤ 950 ∧ cfg12.decision.wheelMin ≤ 1000 ∧ 500 ≤ 1000
      ∧ (235 - 235 : Int) ≤ 0 ∧ (0 : Int) < 235 - 234 ∧ (160 : Int) ≤ 160 ∧ (160 : Int) < 235
      ∧ (evalRecord cfg12 7 { coldDay with tO := some 120, wO := some 60, tR := some 235, wR := some 80 }).desired = some .free
      ∧ (evalRecord cfg12 7 { coldDay with defrostAllowed := false }).speed = some 400
      ∧ (evalRecord cfg12 7 { coldDay with defrostAllowed := false }).desired = some .recover := by decide

/-- An evaluation for each line of R22's table. -/
theorem witness_OutcomeTable :
    let d : Settings := { cfg12 with decision := { cfg12.decision with basis := .drybulb } }
    let free := { coldDay with tO := some 120, wO := some 60, tR := some 235, wR := some 80 }
    gate cfg12.decision coldDay = none ∧ gate cfg12.decision free = none
      ∧ (evalRecord cfg12 7 free).reason = some .freeFavoured ∧ (evalRecord cfg12 7 coldDay).reason = some .frost
      ∧ (evalRecord cfg12 7 { coldDay with defrostAllowed := false }).reason = some .outdoorLimit
      ∧ (evalRecord cfg12 7 { free with isolated := true }).reason = some .isolated
      ∧ (evalRecord d 7 { free with tO := some 100, tR := some 105 }).reason = some .recoveryNotUseful
      ∧ (evalRecord d 7 { free with tO := some 220, tR := some 100, tSp := 250 }).reason = some .setpointOtherSide
      ∧ (evalRecord d 7 { free with tO := some 300, tR := some 220, tSp := 250 }).reason = some .recoveryUseful := by decide

/-- A state whose evaluation record desires a mode. -/
def desires (m : Mode) (s : State) : State :=
  s.setDecision { s.decision with last := { s.decision.last with desired := some m, speed := some 400, mixing := some 652 } }

/-- A transition toward a mode in a phase. -/
def moving (m : Mode) (p : Phase) : State → State := seqr fun q => { q with transition := some ⟨m, false⟩, phase := some p }

theorem witness_Records :
    let recover := desires .neutral (station.setSeq (settledIn .recover))
    recover.port.closed = true ∧ recover.port.restarting = false ∧ recover.decision.last.desired = some .neutral
      ∧ recover.seq.phase = some .settled ∧ ¬recover.cfg.decision.confirm ≤ 1 ∧ recover.seq.demands = some ⟨150, 0, 1000⟩
      ∧ recover.seq.mode = some .recover ∧ recover.decision.last.speed = some 400
      ∧ (desires .neutral inFree).seq.mode = some .free ∧ (desires .neutral inFree).decision.last.mixing = some 652
      ∧ (desires .neutral station).seq.mode ≠ some .recover ∧ (desires .neutral station).seq.mode ≠ some .free
      ∧ (seqr (fun q => { q with phase := some .suspended }) recover).seq.phase = some .suspended
      ∧ (moving .neutral .ramping recover).seq.phase = some .ramping
      ∧ (let s := desires .safe (moving .free .claiming (proc .relief .pending station))
         s.seq.transition = some ⟨.free, false⟩ ∧ s.seq.phase = some .claiming ∧ (1 : Nat) ≤ min 30 (s.seq.count + 1)
          ∧ Mode.free ≠ .safe ∧ (procOf s .relief).state = .pending)
      ∧ (let s := seqr (fun q => { q with candidate := some .recover, count := 5 })
           (desires .recover (moving .free .claiming (proc .relief .holdoff (station.setSeq (settledIn .recover)))))
         s.seq.mode = some .recover ∧ s.seq.phase = some .claiming ∧ s.cfg.decision.confirm ≤ min 30 (s.seq.count + 1)
          ∧ claimFor .free = some .relief ∧ (procOf s .relief).state = .holdoff) := by decide

theorem witness_Median : ([5, -3] : List Int) ≠ [] ∧ [5, -3, 2].length % 2 = 1 ∧ [5, -3].length % 2 = 0 := by decide

/-- Four neighbours of 7.10 and a probe of 152 and 62. -/
def sunny : State :=
  measured .probeT .probeW 152 62
    (peers [peer 8 39 118 58, peer 11 40 121 60, peer 24 41 116 57, peer 26 42 124 61] station)

theorem witness_Disagreement :
    (peerSamples station).length < station.cfg.band.disMinPeers ∧ ownQuality station = .absent
      ∧ sunny.cfg.band.disMinPeers ≤ (peerSamples sunny).length ∧ ownQuality sunny ≠ .absent
      ∧ medianOf (peerSamples sunny) = (119, 59) ∧ sunny.cfg.band.disTolT < (152 - 119 : Int).natAbs ∧ sunny.band.disagree = false
      ∧ sunny.band.counter + 1 < sunny.cfg.band.disCount
      ∧ (sunny.setBand { sunny.band with counter := 2 }).cfg.band.disCount ≤ (sunny.setBand { sunny.band with counter := 2 }).band.counter + 1
      ∧ ¬(measured .probeT .probeW 139 69 sunny).cfg.band.disTolT < (139 - 119 : Int).natAbs := by decide

theorem witness_BandStatus :
    let held := station.setBand { Band.reset with status := .held, lost := false, holdTimer := some 100000 }
    let valid := station.setBand { Band.reset with status := .valid, value := some ⟨121, 60, .median, 5, 90000⟩ }
    held.band.status = .held ∧ held.band.status ≠ .valid ∧ held.band.holdTimer = some 100000 ∧ 100000 ≤ held.now
      ∧ held.port.closed = true ∧ held.port.restarting = false ∧ held.port.notices.length < noticeCapacity
      ∧ (station.setBand { Band.reset with lost := true }).band.lost = true
      ∧ station.band.status = .unknown ∧ station.band.lost = false ∧ bandHoldDue station = false
      ∧ valid.band.status = .valid ∧ valid.band.value = some ⟨121, 60, .median, 5, 90000⟩ ∧ valid.cfg.band.tBANDHOLD ≠ 0
      ∧ (conf (fun c => { c with band := { c.band with tBANDHOLD := 0 } }) valid).cfg.band.tBANDHOLD = 0 := by decide

/-- An IMMEDIATE guard on WHL and a fire demand on BYP. -/
def guarded (o : OutputUnit) : OutputUnit := { o with guard := ⟨none, none, some ⟨0, true⟩⟩, fire := ⟨none, some 1000, none⟩ }

theorem witness_HighestLevel :
    (guarded station.out).present = station.out.present ∧ winner station.cfg (guarded station.out) .whl = some .guard
      ∧ winner station.cfg (guarded station.out) .byp = some .fire
      ∧ demandOf (guarded station.out) .byp .fire = some 1000 ∧ demandOf (guarded station.out) .whl .guard = some 0
      ∧ winner station.cfg (guarded station.out) .oda = some .sequencer := by decide

/-- ODA one below its demand, with its accumulator full. -/
def oneBelow : State := outs (fun o => { o with present := ⟨149, 0, 1000⟩, acc := ⟨1000, 0, 0⟩ }) station

theorem witness_SlewStep :
    slewDue station .oda = false ∧ aim oneBelow.cfg oneBelow.out .oda = some (150, false)
      ∧ chGet oneBelow.out.present .oda ≠ 150 ∧ 1000 ≤ chGet oneBelow.out.acc .oda
      ∧ completionDue (after (.slewStep .oda) oneBelow) = false := by decide

/-- The last step of a ramp from DEFROST to RECOVER, the DEFROST claim held. -/
def lastStep : State :=
  outs (fun o => { o with completionPending := true }) (proc .defrost .held (oneBelow.setSeq { settledIn .defrost with
    phase := some .ramping, transition := some ⟨.recover, false⟩, rampPosting := some 1, defrostExpired := true }))

theorem witness_RampCompletion :
    slewDue lastStep .oda = true ∧ completionDue (slewOnce .oda lastStep) = true ∧ lastStep.port.closed = true
      ∧ lastStep.port.restarting = false ∧ lastStep.seq.phase = some .ramping
      ∧ lastStep.seq.transition = some ⟨.recover, false⟩ ∧ lastStep.seq.rampPosting = some lastStep.out.posting
      ∧ lastStep.seq.mode ≠ some .recover ∧ lastStep.seq.candidate = none ∧ lastStep.seq.forcedPending = none
      ∧ claimFor .recover ≠ some .defrost ∧ (procOf lastStep .defrost).state = .held ∧ lastStep.link.state = .online
      ∧ lastStep.link.attempt = none ∧ lastStep.port.notices.length < noticeCapacity
      ∧ holds (procOf lastStep .relief) = false
      ∧ (procOf (proc .defrost .yielding lastStep) .defrost).state = .yielding
      ∧ (procOf (proc .defrost .yielding lastStep) .defrost).cause ≠ some .clash
      ∧ (seqr (fun q => { q with transition := some ⟨.defrost, false⟩, mode := some .recover }) lastStep).seq.mode ≠ some .defrost := by
  decide

/-- A confirmed desire at the end of the dwell. -/
def confirmedFor (m : Mode) (s : State) : State :=
  seqr (fun q => { q with candidate := some m, count := 30, dwellTimer := some 100000 }) s

theorem witness_DwellExpiry :
    dwellDue station = false
      ∧ (let s := confirmedFor .safe station
         dwellDue s = true ∧ completionDue s = false ∧ confirmed s = some .safe ∧ s.seq.mode = some .safe)
      ∧ (let s := confirmedFor .free station
         dwellDue s = true ∧ completionDue s = false ∧ s.seq.phase = some .settled ∧ confirmed s = some .free
          ∧ s.seq.mode ≠ some .free ∧ blocked s .free = false ∧ claimFor .free = some .relief ∧ (procOf s .relief).state = .idle
          ∧ (procOf s .relief).request = false ∧ heldBack s = false ∧ claimIn s .relief = none)
      ∧ (let s := confirmedFor .recover (peers [{ peer 5 39 120 60 with phase := .ramping }] station)
         dwellDue s = true ∧ completionDue s = false ∧ confirmed s = some .recover ∧ blocked s .recover = false
          ∧ claimFor .recover = none ∧ Mode.recover ≠ .safe ∧ rampingMembers s (chooseWaitSet s) ≠ [])
      ∧ (let s := confirmedFor .recover station
         dwellDue s = true ∧ completionDue s = false ∧ confirmed s = some .recover ∧ blocked s .recover = false
          ∧ rampingMembers s (chooseWaitSet s) = []) := by decide

theorem witness_DwellExpiry_ramp :
    RampsAway (confirmedFor .recover station) (rampSet cfg12 (confirmedFor .recover station).decision.last .recover) :=
  ⟨.whl, by decide, by decide⟩

/-- SETTLED in DEFROST with the cycle over. -/
def defrosted : State :=
  proc .defrost .held (station.setSeq { settledIn .defrost with defrostTimer := some 100000 })

/-- FOLLOW_WAIT at the end of tFOLLOW for two peers, of which the first still ramps. -/
def following : State :=
  peers [{ peer 5 39 120 60 with phase := .ramping }, peer 9 38 120 60]
    (seqr (fun q => { q with waitSet := [5, 9], followTimer := some 100000 }) (moving .recover .followWait station))

theorem witness_DefrostAndFollow :
    completionDue station = false ∧ defrostDue station = false ∧ followDue station = false
      ∧ completionDue defrosted = false ∧ defrostDue defrosted = true ∧ defrosted.seq.phase = some .settled
      ∧ defrosted.seq.mode = some .defrost ∧ exitTarget defrosted = .recover
      ∧ rampingMembers defrosted (chooseWaitSet defrosted) = []
      ∧ defrostDue (seqr (fun q => { q with phase := some .suspended }) defrosted) = true
      ∧ completionDue following = false ∧ following.port.closed = true ∧ following.port.restarting = false
      ∧ following.seq.phase = some .followWait ∧ following.seq.followTimer = some 100000 ∧ 100000 ≤ following.now
      ∧ following.seq.transition = some ⟨.recover, false⟩ ∧ following.port.notices.length < noticeCapacity
      ∧ rampingMembers following following.seq.waitSet = [5] := by decide

theorem witness_DefrostAndFollow_ramps :
    RampsAway defrosted (rampSet cfg12 defrosted.decision.last .recover)
      ∧ RampsAway following (rampSet cfg12 following.decision.last .recover) ∧ PeersSound following.peers :=
  ⟨⟨.whl, by decide, by decide⟩, ⟨.whl, by decide, by decide⟩, by decide, by decide⟩

/-- The FIRE pin high for as long as FIRE_FILTER, during a claim for FREE. -/
def burning : State :=
  (outs (fun o => { o with fireSince := some 99950 }) (moving .free .claiming (proc .relief .holdoff station))).setFirePin true

/-- The FIRE pin low again, while SUSPENDED. -/
def quenched : State :=
  outs (fun o => { o with fireSince := some 99950, fireFiltered := true, fire := ⟨some 0, some 1000, some 0⟩ })
    (seqr (fun q => { q with phase := some .suspended }) station)

theorem witness_Fire :
    fireFilterDue station = false ∧ fireFilterDue burning = true ∧ burning.port.closed = true ∧ burning.firePin = true
      ∧ burning.cfg.outputs.lvlSeq ≤ 3 ∧ burning.cfg.outputs.lvlGuard ≤ 3 ∧ burning.cfg.outputs.lvlManual ≤ 3
      ∧ burning.port.restarting = false ∧ burning.link.state ≠ .clashed ∧ burning.link.attempt = none
      ∧ burning.seq.phase = some .claiming ∧ burning.seq.transition = some ⟨.free, false⟩ ∧ (procOf burning .relief).state = .holdoff
      ∧ burning.port.notices.length < noticeCapacity
      ∧ fireFilterDue (port (fun p => { p with closed := false }) burning) = true
      ∧ (waiting burning).port.restarting = true
      ∧ (link (fun l => { l with attempt := some ⟨.alert, .alert ⟨true, 40⟩⟩ }) burning).link.state = .online
      ∧ (procOf (proc .relief .held burning) .relief).state = .held
      ∧ fireFilterDue quenched = true ∧ quenched.port.closed = true ∧ quenched.firePin = false ∧ quenched.port.restarting = false
      ∧ quenched.seq.mode ≠ none ∧ quenched.seq.phase = some .suspended := by decide

theorem witness_Holdoff :
    procDue station .relief .holdoff = false
      ∧ (let s := deciding [claim 5 10 true 1 990, claim 12 10 false 1 1002]
         procDue s .relief .holdoff = true ∧ completionDue s = false ∧ s.link.state ≠ .clashed
          ∧ findRecord s (ownAddr s) .relief = some (claim 12 10 false 1 1002) ∧ (procOf s .relief).disturbed = false
          ∧ effective s .relief = 20 ∧ ownAmount s.cfg .relief = 10 ∧ (procOf s .relief).attempt < s.cfg.claims.maxTries
          ∧ s.seq.phase ≠ some .claiming ∧ s.port.notices.length < noticeCapacity
          ∧ (conf (fun c => { c with claims := { c.claims with maxTries := 1 } }) s).cfg.claims.maxTries ≤ (procOf s .relief).attempt)
      ∧ (let s := moving .free .claiming (deciding [claim 5 11 true 1 990, claim 12 10 false 1 1002])
         s.port.restarting = false ∧ s.seq.phase = some .claiming ∧ s.seq.candidate = none ∧ s.seq.mode ≠ some .defrost
          ∧ s.seq.transition = some ⟨.free, false⟩ ∧ claimFor .free = some .relief ∧ 20 < 11 + ownAmount s.cfg .relief) := by decide

theorem witness_ClaimTimers :
    procDue station .relief .backoff = false ∧ procDue station .relief .starved = false ∧ waitingDue station .relief = false
      ∧ intentDue station .relief = false ∧ recordAged station 5 .relief = false ∧ fireAged station 5 = false
      ∧ (let s := proc .relief .backoff station
         procDue s .relief .backoff = true ∧ s.claims.freeze = false ∧ s.out.fireFiltered = false ∧ s.link.state ≠ .clashed
          ∧ claimIn s .relief = none
          ∧ (outs (fun o => { o with fireFiltered := true }) s).out.fireFiltered = true
          ∧ claimIn (link (fun l => { l with claimSlot := ⟨some ⟨.withdraw .relief .full, 3⟩, none⟩ }) s) .relief
              = some (.withdraw .relief .full))
      ∧ (let s := proc .relief .starved station
         procDue s .relief .starved = true ∧ completionDue s = false ∧ s.seq.candidate = none)
      ∧ (let s := station.setClaims { station.claims with proc := ⟨{ Process.idle with request := true }, .idle⟩ }
         s.port.closed = true ∧ s.port.restarting = false ∧ (procOf s .relief).state = .idle ∧ (procOf s .relief).request = true)
      ∧ (let s := proc .relief .pending station
         (procOf s .relief).state = .pending ∧ claimIn s .relief = none ∧ s.link.state ≠ .clashed)
      ∧ (let s := claims [{ claim 5 10 true 1 3 with refreshed := 40000 }, { claim 7 10 false 1 3 with refreshed := 94000 }] station
         findRecord s 5 .relief = some { claim 5 10 true 1 3 with refreshed := 40000 }
          ∧ 40000 + s.cfg.line.tEXPIRE * 1000 ≤ s.now
          ∧ findRecord s 7 .relief = some { claim 7 10 false 1 3 with refreshed := 94000 }
          ∧ 94000 + 4 * s.cfg.claims.tHOLD ≤ s.now)
      ∧ (let s := station.setClaims { station.claims with
            fireSet := [(5, 40000)], freeze := true, proc := ⟨{ Process.idle with request := true }, .idle⟩ }
         fireAged s 5 = true ∧ s.claims.fireSet.filter (fun e => e.1 != 5) = [] ∧ (procOf s .relief).state = .idle
          ∧ (procOf s .relief).request = true ∧ s.out.fireFiltered = false ∧ s.port.notices.length < noticeCapacity)
      ∧ (let s := station.setClaims { station.claims with fireSet := [(5, 40000), (7, 90000)], freeze := true }
         fireAged s 5 = true ∧ s.claims.fireSet.filter (fun e => e.1 != 5) ≠ []) := by decide

theorem witness_Precedence :
    ahead (claim 5 10 true 1 990) (claim 9 10 true 1 1001) = true
      ∧ (let s := claims [claim 5 95 true 1 990, claim 12 10 true 1 1002] (proc .relief .held station)
         (s.claims.list.filter fun c => c.held && c.res = .relief).any (fun c => c.addr = ownAddr s) = true
          ∧ (procOf s .relief).state = .held ∧ withinRun s .relief = false ∧ s.port.notices.length < noticeCapacity)
      ∧ withinRun (claims [claim 5 90 true 1 990, claim 12 10 true 1 1002] (proc .relief .held station)) .relief = true := by decide

/-- A frame of station 5, read. -/
def heardFrom (shaft : Nat) (b : FrameBody) : Option RiserFrame := readRiser (lineFrame shaft 5 b)

theorem witness_ClaimFrames :
    station.port.closed = true ∧ station.port.restarting = false ∧ station.link.state ≠ .offline ∧ 5 ≠ ownAddr station
      ∧ ownShaft station = 3 ∧ completionDue station = false ∧ station.claims.list.length < 32
      ∧ findRecord station 5 .relief = none
      ∧ (heardFrom 3 (.claim (.intent .relief 10 1 1 60))).bind readBody = some (.claim (.intent .relief 10 1 1 60))
      ∧ (heardFrom 3 (.claim (.held .relief 10 60))).bind readBody = some (.claim (.held .relief 10 60))
      ∧ (heardFrom 3 (.claim (.withdraw .relief .full))).bind readBody = some (.claim (.withdraw .relief .full))
      ∧ (heardFrom 3 (.claim (.release .relief .done))).bind readBody = some (.claim (.release .relief .done))
      ∧ (heardFrom 3 (.claim (.held .relief 10 60))).map (fun x => (x.shaft, x.addr)) = some (3, 5)
      ∧ (heardFrom 2 (.claim (.held .relief 10 60))).map (·.shaft) = some 2
      ∧ findRecord (claims [claim 5 10 false 1 990] station) 5 .relief = some (claim 5 10 false 1 990)
      ∧ 60 < effective station .relief := by decide

/-- A full Peer Table, its first record at a level far away. -/
def fullTable : State := peers (peer 1 127 120 60 :: (List.range 31).map fun i => peer (i + 13) 40 120 60) station

theorem witness_Beacons_full :
    findPeer fullTable 5 = none ∧ 32 ≤ fullTable.peers.records.length
      ∧ (peerVictim fullTable 39).map (·.addr) = some 1 ∧ peerVictim fullTable 127 = none := by decide

theorem witness_Beacons :
    station.port.closed = true ∧ station.port.restarting = false ∧ station.link.state ≠ .offline ∧ 5 ≠ ownAddr station
      ∧ (heardFrom 3 (.beacon (beacon 39))).bind readBody = some (.beacon (beacon 39)) := by
  decide +kernel

theorem witness_Beacons_filtered :
    filtersAccept station.cfg true 3 39 = true ∧ filtersAccept station.cfg true 2 39 = false
      ∧ findPeer (peers [peer 5 39 120 60] station) 5 = some (peer 5 39 120 60)
      ∧ findPeer station 5 = none ∧ station.peers.records.length < 32 := by decide

theorem witness_Alerts :
    (heardFrom 3 (.alert ⟨true, 39⟩)).bind readBody = some (.alert ⟨true, 39⟩)
      ∧ (heardFrom 2 (.alert ⟨false, 39⟩)).bind readBody = some (.alert ⟨false, 39⟩)
      ∧ filtersAccept station.cfg false 3 39 = true ∧ filtersAccept station.cfg false 2 39 = false := by decide

theorem witness_Clashes :
    readRiser { lineFrame 3 12 (.beacon (beacon 3)) with remote := true } = none
      ∧ opened.port.closed = false ∧ station.port.closed = true ∧ station.link.state ≠ .offline ∧ station.link.state ≠ .clashed
      ∧ (readRiser (lineFrame 5 12 (.beacon (beacon 3)))).map (·.addr) = some (ownAddr station)
      ∧ (heardFrom 3 (.beacon (beacon 3))).map (·.addr) = some 5
      ∧ (waiting station).port.restarting = true ∧ (waiting station).port.notices.length < noticeCapacity
      ∧ ((readRiser { lineFrame 3 5 (.alert ⟨true, 3⟩) with data := List.replicate 8 0 }).map readBody) = some none
      ∧ (link (fun l => { l with state := .clashed }) station).link.state = .clashed
      ∧ (procOf (proc .relief .committing station) .relief).state = .committing
      ∧ (procOf (proc .relief .held (waiting station)) .relief).state = .held ∧ station.port.restarting = false := by decide

/-- An attempt of a frame from a slot. -/
def attempting (sl : Slot) (b : FrameBody) : State → State := link fun l => { l with attempt := some ⟨sl, b⟩ }

theorem witness_Attempts :
    offers station = []
      ∧ (let s := link (fun l => { l with alertSlot := some 9, beaconSlot := some 3 }) station
         s.port.closed = true ∧ s.link.state = .online ∧ s.link.attempt = none ∧ offers s ≠ [])
      ∧ (let s := link (fun l => { l with failCount := 14, failSlot := some .relief })
           (attempting .relief (.claim (.intent .relief 10 1 1 60)) (proc .relief .pending station))
         s.link.attempt = some ⟨.relief, .claim (.intent .relief 10 1 1 60)⟩ ∧ s.link.failSlot = some .relief
          ∧ s.link.failCount + 1 < 16 ∧ 16 ≤ (link (fun l => { l with failCount := 15 }) s).link.failCount + 1
          ∧ completionDue s = false ∧ s.seq.phase ≠ some .claiming ∧ (procOf s .relief).state = .pending
          ∧ (procOf s .defrost).state ≠ .pending
          ∧ isIntent (claimIn (link (fun l => { l with claimSlot := ⟨some ⟨.intent .relief 10 1 1 60, 3⟩, none⟩ }) s) .relief) = true
          ∧ isIntent (claimIn s .defrost) = false) := by decide

theorem witness_OwnFrames :
    station.link.attempt = none
      ∧ (let s := attempting .relief (.claim (.intent .relief 10 1 1 60)) (proc .relief .pending station)
         s.link.attempt = some ⟨slotOf .relief, .claim (.intent .relief 10 1 1 60)⟩ ∧ completionDue s = false
          ∧ s.port.restarting = false ∧ (procOf s .relief).state = .pending ∧ s.claims.list.length < 32)
      ∧ (let s := claims [claim 5 10 true 1 990, claim 12 10 false 1 1001]
           (attempting .relief (.claim (.held .relief 10 100)) (proc .relief .committing station))
         (procOf s .relief).state = .committing ∧ s.seq.phase ≠ some .claiming ∧ effective s .relief ≤ 100
          ∧ (∀ own ∈ s.claims.list, own.addr = ownAddr s → own.res ≠ .relief ∨ own.held = false)
          ∧ findRecord s (ownAddr s) .relief = some (claim 12 10 false 1 1001)
          ∧ withinRun (listHeld (ownAddr s) (s.link.sequence + 1) .relief 10 100 s) .relief = true
          ∧ s.port.notices.length < noticeCapacity ∧ capacityOk .relief 100 = true ∧ ownCapacity s.cfg .relief ≤ 100)
      ∧ (let s := claims [claim 5 91 true 1 990, claim 12 10 false 1 1001]
           (attempting .relief (.claim (.held .relief 10 100)) (proc .relief .committing station))
         withinRun (listHeld (ownAddr s) (s.link.sequence + 1) .relief 10 100 s) .relief = false)
      ∧ (procOf (attempting .relief (.claim (.release .relief .done)) (proc .relief .releasing station)) .relief).state = .releasing
      ∧ (attempting .relief (.claim (.withdraw .relief .full)) station).link.attempt
          = some ⟨slotOf .relief, .claim (.withdraw .relief .full)⟩
      ∧ (let s := link (fun l => { l with alertMark := true }) (attempting .alert (.alert ⟨true, 40⟩) station)
         s.link.attempt = some ⟨.alert, .alert ⟨true, 40⟩⟩ ∧ s.link.alertMark = true ∧ s.link.state = .online
          ∧ (attempting .alert (.alert ⟨true, 40⟩) station).link.alertMark = false) := by decide

theorem witness_LinkTimers :
    quietDue station = false ∧ joiningDue station = false ∧ beaconDue station = false
      ∧ (let s := link (fun l => { l with state := .quiet, quietTimer := some 100000, beaconTimer := some 100000 }) station
         s.link.state = .quiet ∧ s.link.quietTimer = some 100000 ∧ 100000 ≤ s.now ∧ s.port.notices.length < noticeCapacity
          ∧ s.link.beaconTimer = some 100000 ∧ s.link.attempt = none)
      ∧ (let s := link (fun l => { l with state := .joining, joinTimer := some 100000 }) station
         s.link.state = .joining ∧ s.link.joinTimer = some 100000 ∧ s.link.attempt = none ∧ s.port.closed = true
          ∧ s.port.restarting = false ∧ (waiting s).port.restarting = true)
      ∧ (let s := link (fun l => { l with beaconTimer := some 100000 }) (attempting .beacon (.beacon (beacon 40)) station)
         s.link.state = .online ∧ s.link.attempt = some ⟨.beacon, .beacon (beacon 40)⟩ ∧ s.link.beaconTimer = some 100000) := by decide

theorem witness_PeerRecordsAge :
    staleDue station 5 = false ∧ lostDue station 5 = false ∧ lapseDue station .returnT = false
      ∧ (let s := peers [{ peer 5 39 120 60 with lastBeacon := 85000, lastHeard := 40000 }] station
         s.port.closed = true ∧ s.port.restarting = false
          ∧ findPeer s 5 = some { peer 5 39 120 60 with lastBeacon := 85000, lastHeard := 40000 }
          ∧ 85000 + s.cfg.line.tSTALE * 1000 ≤ s.now ∧ 40000 + s.cfg.line.tEXPIRE * 1000 ≤ s.now
          ∧ completionDue s = false ∧ s.seq.phase ≠ some .followWait ∧ s.port.notices.length < noticeCapacity)
      ∧ following.seq.phase = some .followWait
      ∧ (let s := (measured .returnW .probeT 72 120 station).setNow 160000
         (measOf s.port.meas .returnW).value = some 72 ∧ (measOf s.port.meas .returnW).arrival = some 100000
          ∧ (measOf s.port.meas .returnW).lapsed = false ∧ 100000 + s.cfg.band.tMEASAGE * 1000 ≤ s.now
          ∧ s.cfg.decision.basis ≠ .drybulb ∧ (measOf s.port.meas .probeT).value = some 120
          ∧ MeasChannel.probeT ≠ .returnT ∧ MeasChannel.probeT ≠ .returnW) := by decide

theorem witness_StallAndRotation :
    stallDue station = false ∧ rotFilterDue station = false
      ∧ (let s := lims (fun l => { l with stallTimer := some 100000 }) station
         s.limits.stallTimer = some 100000 ∧ 100000 ≤ s.now ∧ s.out.completionPending = false ∧ s.limits.hold = false
          ∧ s.port.notices.length < noticeCapacity
          ∧ (conf (fun c => { c with limits := { c.limits with stallAct := .ignore } }) s).cfg.limits.stallAct = .ignore)
      ∧ (let s := (lims (fun l => { l with rotSince := some 99996 }) station).setRotPin true
         rotFilterDue s = true ∧ s.rotPin = true ∧ s.limits.rotFiltered = false ∧ s.limits.ring + 1 < s.cfg.limits.ppr
          ∧ s.cfg.limits.ppr ≤ (lims (fun l => { l with ring := 1 }) s).limits.ring + 1
          ∧ (s.setRotPin false).rotPin = false) := by decide

/-- Finals of the slots of 5.6 for frame d, a BEACON of shaft 4 at level 52. -/
theorem witness_Filters :
    (getFilter chain56 2).enable = true ∧ (getFilter chain56 2).inverse = false ∧ (getFilter chain56 3).inverse = true
      ∧ (getFilter chain56 3).join = true ∧ (getFilter defaults 1).enable = false
      ∧ (let final : Fin 4 → Bool := fun n => n = 2 || n = 3
         let result (n : Fin 4) := slotResult 3 60 (getFilter chain56 n) true 4 52
         (final 0 = true ↔ result 0 = true ∧ ((getFilter chain56 0).join = true → 4 = 3))
          ∧ (final 1 = true ↔ result 1 = true ∧ ((getFilter chain56 1).join = true → final 0 = true))
          ∧ (final 2 = true ↔ result 2 = true ∧ ((getFilter chain56 2).join = true → final 1 = true))
          ∧ (final 3 = true ↔ result 3 = true ∧ ((getFilter chain56 3).join = true → final 2 = true))) := by decide

theorem witness_GuardDemands :
    let l := { Limits.reset with stall := .active 20 .stallPeriod, frostTrip := .active (-58) .estimate }
    limitOf l .stall ≠ .clear ∧ actionOf cfg12 .stall = .guardStop ∧ limitOf l .supplyLow = .clear
      ∧ actionOf cfg12 .supplyLow = .guardRamp ∧ limitOf { l with supplyLow := .active 59 .supplyT } .supplyLow ≠ .clear
      ∧ limitGuard cfg12 l .stall .whl = some ⟨0, true⟩ ∧ limitGuard cfg12 l .stall .oda = none
      ∧ limitGuard cfg12 l .frostTrip .oda = some ⟨150, true⟩ ∧ limitGuard cfg12 Limits.reset .stall .whl = none
      ∧ limitGuard cfg12 Limits.reset .frostTrip .whl = none := by decide

/-! ### Hypotheses of the clauses on grants, forced leaves, reconciliation and FIRE releases -/

/-- A desire that is confirmed for one mode is confirmed for no other. -/
theorem onlyDesires_of {s : State} {m : Mode} (h : confirmed s = some m) : OnlyDesires m s :=
  fun _ hd => Option.some.inj (hd.symm.trans h)

/-- A desire for a mode, confirmed. -/
def wanting (m : Mode) : State → State := seqr fun q => { q with candidate := some m, count := 30 }

/-- The last step of a ramp from RECOVER into a mode that is still desired. -/
def lastStepInto (m : Mode) (r : Resource) : State :=
  wanting m (outs (fun o => { o with completionPending := true }) (proc r .held (oneBelow.setSeq { settledIn .recover with
    phase := some .ramping, transition := some ⟨m, false⟩, rampPosting := some 1 })))

theorem witness_RampCompletion_into :
    (let s := lastStepInto .free .relief
     slewDue s .oda = true ∧ completionDue (slewOnce .oda s) = true ∧ s.port.closed = true ∧ s.port.restarting = false
      ∧ s.seq.phase = some .ramping ∧ s.seq.transition = some ⟨.free, false⟩ ∧ s.seq.rampPosting = some s.out.posting
      ∧ s.seq.mode ≠ some .free ∧ s.seq.forcedPending = none)
    ∧ (let s := lastStepInto .defrost .defrost
     slewDue s .oda = true ∧ completionDue (slewOnce .oda s) = true ∧ s.seq.transition = some ⟨.defrost, false⟩
      ∧ s.seq.mode ≠ some .defrost ∧ s.seq.forcedPending = none) := by decide

theorem witness_RampCompletion_desires :
    OnlyDesires .free (lastStepInto .free .relief) ∧ OnlyDesires .defrost (lastStepInto .defrost .defrost) ∧ OnlyDesires .recover lastStep :=
  ⟨onlyDesires_of (by decide), onlyDesires_of (by decide), fun _ h => by rw [show confirmed lastStep = none by decide] at h; cases h⟩

/-- An evaluation due now, with a band from four neighbours and fresh return values. -/
def evaluating : State :=
  measured .returnT .returnW 221 72 (sunny.setDecision { Decision.reset with timer := some 100000 })

theorem witness_LimitsJudged_evaluation :
    evaluating.port.closed = true ∧ evaluating.port.restarting = false ∧ evaluating.decision.timer = some 100000
      ∧ fresh evaluating .exhaustT = false ∧ fresh (measured .exhaustT .supplyT (-20) 160 evaluating) .exhaustT = true := by decide

theorem witness_LimitsJudged_estimate : (after .evalTimerExpiry evaluating).decision.last.tX ≠ none := by decide +kernel

theorem witness_EvaluationTimer_candidate : evaluating.seq.forcedPending = none := by decide

/-- The last attempt of a claim for FREE, which is still desired, ends over the capacity. -/
def lastAttempt : State :=
  conf (fun c => { c with claims := { c.claims with maxTries := 1 } })
    (wanting .free (moving .free .claiming (deciding [claim 5 11 true 1 990, claim 12 10 false 1 1002])))

theorem witness_Holdoff_abandons :
    procDue lastAttempt .relief .holdoff = true ∧ completionDue lastAttempt = false ∧ lastAttempt.link.state ≠ .clashed
      ∧ findRecord lastAttempt (ownAddr lastAttempt) .relief = some (claim 12 10 false 1 1002)
      ∧ lastAttempt.cfg.claims.maxTries ≤ (procOf lastAttempt .relief).attempt ∧ lastAttempt.port.restarting = false
      ∧ lastAttempt.seq.phase = some .claiming ∧ lastAttempt.seq.transition = some ⟨.free, false⟩
      ∧ claimFor .free = some .relief ∧ lastAttempt.port.notices.length ≤ 14 := by decide

theorem witness_Holdoff_desires : OnlyDesires .free lastAttempt ∧ NoExitWaits lastAttempt :=
  ⟨onlyDesires_of (by decide), fun h => absurd h (by decide)⟩

/-- Station 5 holds 90 of 100 ahead of the own hold. -/
def ranked (own : Nat) : State := claims [claim 5 90 true 1 990, claim 12 own true 1 1002] (proc .relief .held inFree)

theorem witness_Precedence_window :
    ClaimsSound (ranked 10).claims
      ∧ (let held := (ranked 10).claims.list.filter fun c => c.held && c.res = .relief
         claim 12 10 true 1 1002 ∈ held ∧ 12 = ownAddr (ranked 10) ∧ (∀ c ∈ held, (c.seq - 990).toNat < 2 ^ 31)
          ∧ held.Pairwise (fun c d => c.seq ≠ d.seq)
          ∧ withinRun (ranked 10) .relief = true ∧ withinRun (ranked 11) .relief = false) := by
  refine ⟨⟨by decide, by decide, by decide, by decide⟩, by decide⟩

theorem witness_Precedence_unlisted :
    (let s := claims [claim 5 90 true 1 990] station
     (∀ c ∈ s.claims.list.filter fun c => c.held && c.res = .relief, c.addr ≠ ownAddr s) ∧ withinRun s .relief = true)
      ∧ withinRun (claims [claim 5 91 true 1 990] station) .relief = false := by decide

/-- A claim list of 32 records of other stations, of which that of station 13 is as given and the others are held. -/
def fullList (firstHeld : Bool) : State :=
  claims ((List.range 32).map fun i => claim (i + 13) 1 (firstHeld || i ≠ 0) 1 (BitVec.ofNat 32 (1000 + i))) station

theorem witness_ClaimFrames_full :
    (fullList false).claims.list.length = 32 ∧ findRecord (fullList false) 5 .relief = none
      ∧ ((fullList false).claims.list.filter fun w => !w.held && w.addr ≠ ownAddr (fullList false))
          = [claim 13 1 false 1 1000]
      ∧ (∀ w ∈ (fullList true).claims.list, w.held = true ∨ w.addr = ownAddr (fullList true))
      ∧ (fullList true).claims.list.length = 32 ∧ findRecord (fullList true) 5 .relief = none
      ∧ effective (fullList true) .relief ≤ 100 ∧ ownCapacity (fullList true).cfg .relief ≤ 100
      ∧ completionDue (fullList true) = false ∧ (fullList true).claims.fullMark = false
      ∧ (fullList true).port.notices.length < noticeCapacity := by decide +kernel

theorem witness_ClaimFrames_sound : ClaimsSound (fullList false).claims ∧ ClaimsSound (fullList true).claims :=
  ⟨⟨by decide +kernel, by decide +kernel, by decide, by decide⟩, ⟨by decide +kernel, by decide +kernel, by decide, by decide⟩⟩

theorem witness_ClaimFrames_mismatch :
    60 < ownCapacity station.cfg .relief ∧ resGet station.claims.mismatch .relief = []
      ∧ station.port.notices.length < noticeCapacity ∧ ¬100 < ownCapacity station.cfg .relief := by decide

/-- FREE, with a hold behind an intent of station 5, whose HELD will not leave room. -/
def overcommitted : State := desires .neutral (claims [claim 5 95 false 1 990, claim 12 10 true 1 1002] inFree)

theorem witness_ClaimFrames_overcommit :
    completionDue overcommitted = false ∧ (procOf overcommitted .relief).state = .held
      ∧ effective overcommitted .relief ≤ 100 ∧ findRecord overcommitted 5 .relief ≠ none
      ∧ withinRun (listHeld 5 (overcommitted.link.sequence + 1) .relief 95 100 overcommitted) .relief = false
      ∧ withinRun (listHeld 5 (overcommitted.link.sequence + 1) .relief 90 100 overcommitted) .relief = true
      ∧ withinRun (overcommitted.setClaims { overcommitted.claims with
          capacity := resSet overcommitted.claims.capacity .relief (some 9) }) .relief = false
      ∧ 9 < effective overcommitted .relief ∧ claimFor .free = some .relief ∧ overcommitted.seq.phase = some .settled
      ∧ overcommitted.seq.mode = some .free ∧ overcommitted.decision.last.desired = some .neutral
      ∧ leaveTarget .free .neutral = .neutral ∧ overcommitted.port.notices.length ≤ 14 := by decide

theorem witness_forced_ramp : RampsAway overcommitted (rampSet cfg12 overcommitted.decision.last .neutral) := ⟨.whl, by decide, by decide⟩

theorem witness_Beacons_victims :
    PeersSound fullTable.peers
      ∧ (let s := peers ((List.range 32).map fun i =>
            { peer (i + 13) 40 120 60 with fresh := i ≠ 3 && i ≠ 7, lastHeard := 80000 }) station
         (peerVictim s 39).map (·.addr) = some 20) :=
  ⟨⟨by decide, by decide⟩, by decide⟩

theorem witness_Beacons_reconcile :
    (let s := claims [claim 5 10 true 0 990] station
     findRecord s 5 .relief = some (claim 5 10 true 0 990) ∧ findRecord s 5 .defrost = none ∧ s.claims.list.length < 31)
      ∧ findRecord (claims [claim 5 10 false 0 990] station) 5 .relief = some (claim 5 10 false 0 990)
      ∧ (beacon 39).reliefUnits = 0 ∧ (beacon 39).defrostHeld = false ∧ (beacon 39).fire = false
      ∧ ((heardFrom 3 (.beacon { beacon 39 with reliefUnits := 20, defrostHeld := true, fire := true })).bind readBody).isSome = true := by
  decide +kernel

theorem witness_Clashes_forces :
    (let s := desires .neutral inFree
     s.port.restarting = false ∧ completionDue s = false ∧ s.seq.mode = some .free ∧ s.seq.phase = some .settled
      ∧ s.decision.last.desired = some .neutral ∧ leaveTarget .free .neutral = .neutral)
    ∧ (let s := desires .neutral (moving .recover .followWait inFree)
     completionDue s = false ∧ s.seq.mode = some .free ∧ s.seq.phase = some .followWait
      ∧ s.seq.transition = some ⟨.recover, false⟩ ∧ s.decision.last.desired = some .neutral)
    ∧ (let s := moving .free .claiming station
     completionDue s = false ∧ s.seq.phase = some .claiming ∧ s.seq.transition = some ⟨.free, false⟩ ∧ s.seq.mode = some .safe)
    ∧ (let s := moving .free .ramping station
     completionDue s = false ∧ s.seq.phase = some .ramping ∧ s.seq.transition = some ⟨.free, false⟩ ∧ s.seq.forcedPending = none)
    ∧ (let s := seqr (fun q => { q with phase := some .suspended }) inFree
     completionDue s = false ∧ s.seq.phase = some .suspended ∧ s.seq.mode = some .free) := by decide

theorem witness_Clashes_ramps :
    RampsAway (desires .neutral inFree) (rampSet cfg12 (desires .neutral inFree).decision.last .neutral) :=
  ⟨.whl, by decide, by decide⟩

/-- A claim for FREE, interrupted by FIRE 5 s ago. -/
def interrupted (p : Phase) : Suspension :=
  { target := .free, interrupted := p, forced := false, start := 95000, relief := .idle, defrost := .idle }

/-- SUSPENDED with that record and the outputs at the fire positions, at the release of FIRE. -/
def suspendedIn (p : Phase) : State :=
  outs (fun o => { o with present := ⟨0, 1000, 0⟩ }) (seqr (fun q => { q with record := some (interrupted p) }) quenched)

theorem witness_Clashes_suspended :
    (suspendedIn .ramping).seq.record = some (interrupted .ramping) ∧ (suspendedIn .ramping).seq.transition = none
      ∧ (suspendedIn .ramping).seq.mode = some .safe ∧ (suspendedIn .ramping).seq.phase = some .suspended := by decide

theorem witness_Fire_release :
    (let s := wanting .safe (suspendedIn .ramping)
     fireFilterDue s = true ∧ s.firePin = false ∧ s.seq.mode = some .safe ∧ s.seq.transition = none ∧ confirmed s = some .safe)
    ∧ (let s := suspendedIn .claiming
     s.seq.record = some (interrupted .claiming) ∧ confirmed s = none ∧ s.port.notices.length ≤ 14)
    ∧ (let s := wanting .free (suspendedIn .claiming)
     confirmed s = some .free ∧ s.seq.forcedPending = none ∧ s.now ≤ 95000 + s.cfg.outputs.tRESUME * 1000
      ∧ (procOf s .relief).state = .idle ∧ s.link.state = .online ∧ s.claims.freeze = false ∧ claimFor .free = some .relief)
    ∧ (let s := wanting .free (proc .relief .held (suspendedIn .ramping))
     confirmed s = some .free ∧ s.seq.forcedPending = none ∧ (procOf s .relief).state = .held)
    ∧ (let s := peers [{ peer 5 39 120 60 with phase := .ramping }] (wanting .free (proc .relief .held (suspendedIn .followWait)))
     rampingMembers s (chooseWaitSet s) ≠ [] ∧ (procOf s .relief).state = .held)
    ∧ (quenched.seq.record = none ∧ quenched.seq.forcedPending = none ∧ confirmed quenched = none
      ∧ (let s := desires .neutral (seqr (fun q => { q with mode := some .free, forcedPending := some .free }) quenched)
         s.seq.forcedPending = s.seq.mode ∧ s.seq.demands ≠ none ∧ s.decision.last.desired = some .neutral ∧ confirmed s = none)) := by
  decide

theorem witness_Fire_ramps :
    let calm := (suspendedIn .ramping).setOut { (suspendedIn .ramping).out with fire := ⟨none, none, none⟩ }
    RampsAway calm (rampSet cfg12 calm.decision.last .safe) ∧ RampsAway calm (rampSet cfg12 calm.decision.last .free) :=
  ⟨⟨.whl, by decide, by decide⟩, ⟨.oda, by decide, by decide⟩⟩

theorem witness_Attempts_claiming :
    let s := wanting .free (moving .free .claiming (link (fun l => { l with
      failCount := 15, failSlot := some .relief, claimSlot := ⟨some ⟨.intent .relief 10 1 1 60, 3⟩, none⟩ })
        (attempting .relief (.claim (.intent .relief 10 1 1 60)) (proc .relief .pending station))))
    s.link.attempt = some ⟨.relief, .claim (.intent .relief 10 1 1 60)⟩ ∧ 16 ≤ s.link.failCount + 1 ∧ s.link.state = .online
      ∧ (procOf s .relief).state = .pending ∧ isIntent (claimIn s .relief) = true ∧ completionDue s = false
      ∧ s.seq.phase = some .claiming ∧ s.seq.transition = some ⟨.free, false⟩ ∧ claimFor .free = some .relief
      ∧ ¬s.cfg.claims.maxTries ≤ (procOf s .relief).attempt
      ∧ (conf (fun c => { c with claims := { c.claims with maxTries := 1 } }) s).cfg.claims.maxTries ≤ (procOf s .relief).attempt
      ∧ s.port.closed = true ∧ s.port.restarting = false ∧ confirmed s = some .free ∧ s.seq.mode ≠ some .defrost
      ∧ s.port.notices.length ≤ 12 := by decide

/-- CLAIMING for FREE, the own HELD on the line, station 5 holding an amount ahead of it. -/
def granting (other : Nat) : State :=
  moving .free .claiming (claims [claim 5 other true 1 990, claim 12 10 false 1 1001]
    (attempting .relief (.claim (.held .relief 10 100)) (proc .relief .committing station)))

theorem witness_OwnFrames_granted :
    (granting 90).link.attempt = some ⟨slotOf .relief, .claim (.held .relief 10 100)⟩ ∧ (granting 90).port.restarting = false
      ∧ completionDue (granting 90) = false ∧ (procOf (granting 90) .relief).state = .committing
      ∧ effective (granting 90) .relief ≤ 100 ∧ (granting 90).seq.phase = some .claiming
      ∧ (granting 90).seq.transition = some ⟨.free, false⟩ ∧ claimFor .free = some .relief
      ∧ withinRun (listHeld 12 ((granting 90).link.sequence + 1) .relief 10 100 (granting 90)) .relief = true
      ∧ withinRun (listHeld 12 ((granting 91).link.sequence + 1) .relief 10 100 (granting 91)) .relief = false
      ∧ rampingMembers (granting 90) (chooseWaitSet (granting 90)) = []
      ∧ (let s := peers [{ peer 5 39 120 60 with phase := .ramping }] (granting 90)
         rampingMembers s (chooseWaitSet s) ≠ [])
      ∧ (granting 91).seq.mode ≠ some .free ∧ (granting 91).port.notices.length < noticeCapacity
      ∧ findRecord (granting 91) 12 .relief ≠ none ∧ (granting 91).link.state ≠ .clashed := by decide

theorem witness_OwnFrames_ramps :
    RampsAway (granting 90) (rampSet cfg12 (granting 90).decision.last .free) ∧ NoExitWaits (granting 91) :=
  ⟨⟨.whl, by decide, by decide⟩, fun h => absurd h (by decide)⟩

theorem witness_OwnFrames_beacon :
    let s := link (fun l => { l with beaconMark := true }) (attempting .beacon (.beacon (beacon 40)) station)
    s.link.attempt = some ⟨.beacon, .beacon (beacon 40)⟩ ∧ s.link.beaconMark = true ∧ s.port.restarting = false
      ∧ s.link.state = .online ∧ completionDue s = false
      ∧ (attempting .beacon (.beacon (beacon 40)) station).link.beaconMark = false
      ∧ (procOf s .relief).state ≠ .held ∧ (procOf s .defrost).state ≠ .held := by decide

theorem witness_OwnFrames_closed : (granting 90).port.closed = true := by decide

/-- The own HELD on the line while 32 holds of other stations fill the list and leave `spare` units. -/
def keptOut (spare : Nat) : State :=
  let s := moving .free .claiming (attempting .relief (.claim (.held .relief 10 100)) (proc .relief .committing (fullList true)))
  s.setClaims { s.claims with capacity := ⟨some (32 + spare), some 1⟩ }

theorem witness_OwnFrames_kept_out :
    (let now (n : Nat) := listHeld 12 ((keptOut n).link.sequence + 1) .relief 10 100 (keptOut n)
     findRecord (now 10) 12 .relief = none ∧ findRecord (now 9) 12 .relief = none
      ∧ withinRun (now 10) .relief = true ∧ withinRun (now 9) .relief = false)
    ∧ (let s := keptOut 9
     s.link.attempt = some ⟨slotOf .relief, .claim (.held .relief 10 100)⟩ ∧ s.port.closed = true ∧ s.port.restarting = false
      ∧ completionDue s = false ∧ (procOf s .relief).state = .committing ∧ effective s .relief ≤ 100
      ∧ s.seq.phase = some .claiming ∧ s.seq.transition = some ⟨.free, false⟩ ∧ s.seq.mode = some .safe
      ∧ s.seq.forcedPending = none ∧ s.port.notices.length ≤ 12)
    ∧ rampingMembers (keptOut 10) (chooseWaitSet (keptOut 10)) = []
    ∧ (seqr (fun q => { q with forcedPending := some .defrost }) (granting 91)).seq.forcedPending ≠ none := by decide +kernel

theorem witness_OwnFrames_kept_out_ramps :
    RampsAway (keptOut 10) (rampSet cfg12 (keptOut 10).decision.last .free) ∧ NoExitWaits (keptOut 9) :=
  ⟨⟨.whl, by decide, by decide⟩, fun h => absurd h (by decide +kernel)⟩

theorem witness_Clashes_pending :
    (seqr (fun q => { q with forcedPending := some .defrost }) (moving .free .claiming station)).seq.forcedPending ≠ none
      ∧ (desires .neutral inFree).seq.forcedPending = none ∧ overcommitted.seq.forcedPending = none := by decide

/-- FOLLOW_WAIT for two peers that both still ramp. -/
def alsoRamping : State := peers [{ peer 5 39 120 60 with phase := .ramping }, { peer 9 38 120 60 with phase := .ramping }] following

theorem witness_Beacons_wait :
    5 ∈ following.seq.waitSet ∧ following.seq.phase = some .followWait ∧ following.seq.transition = some ⟨.recover, false⟩
      ∧ completionDue following = false ∧ (procOf following .relief).state ≠ .held ∧ (procOf following .defrost).state ≠ .held
      ∧ findPeer following 5 ≠ none ∧ filtersAccept following.cfg true 3 39 = true ∧ (beacon 39).phase ≠ .ramping
      ∧ (∀ p ∈ following.peers.records, p.addr = 9 → p.phase ≠ .ramping)
      ∧ (∃ p ∈ alsoRamping.peers.records, p.addr = 9 ∧ 9 ∈ alsoRamping.seq.waitSet ∧ p.phase = .ramping)
      ∧ (let s := proc .relief .held (moving .free .followWait following)
         (takeBeaconClaims 5 (s.link.sequence + 1) (beacon 39) s).2 = [])
      ∧ (let s := seqr (fun q => { q with waitSet := [1, 9], phase := some .followWait, transition := some ⟨.recover, false⟩ }) fullTable
         (peerVictim s 39).map (·.addr) = some 1 ∧ findPeer s 5 = none ∧ 1 ∈ s.seq.waitSet ∧ completionDue s = false) := by decide

/-- Both own processes in an attempt while a station reports fire. -/
def freezing : State :=
  link (fun l => { l with claimSlot := ⟨some ⟨.intent .relief 10 1 1 60, 3⟩, none⟩ })
    (proc .relief .pending (proc .defrost .holdoff station))

theorem witness_Beacons_freeze :
    freezing.claims.fireSet = [] ∧ (procOf freezing .relief).state = .pending ∧ (procOf freezing .defrost).state = .holdoff
      ∧ isIntent (claimIn freezing .relief) = true ∧ freezing.link.state = .online ∧ freezing.port.notices.length ≤ 12
      ∧ freezing.seq.phase ≠ some .followWait ∧ completionDue freezing = false
      ∧ (procOf (proc .relief .backoff freezing) .relief).state = .backoff
      ∧ (let s := freezing.setClaims { freezing.claims with
            fireSet := [(5, 90000)], freeze := true, proc := ⟨{ Process.idle with request := true }, .idle⟩ }
         s.claims.fireSet ≠ [] ∧ (procOf s .relief).state = .idle ∧ (procOf s .relief).request = true
          ∧ s.out.fireFiltered = false ∧ claimIn s .defrost = none) := by decide

theorem witness_PeerRecordsAge_wait :
    (let s := peers [{ peer 5 39 120 60 with phase := .ramping, lastBeacon := 85000, lastHeard := 40000 }, peer 9 38 120 60] following
     5 ∈ s.seq.waitSet ∧ s.seq.phase = some .followWait ∧ s.seq.transition = some ⟨.recover, false⟩ ∧ completionDue s = false
      ∧ (findPeer s 5).isSome = true ∧ 85000 + s.cfg.line.tSTALE * 1000 ≤ s.now ∧ 40000 + s.cfg.line.tEXPIRE * 1000 ≤ s.now
      ∧ s.seq.waitSet.filter (· != 5) = [9] ∧ ∀ p ∈ s.peers.records, p.addr = 9 → p.phase ≠ .ramping)
    ∧ 3 ∉ following.seq.waitSet := by decide

/-- The last step of a ramp back to RECOVER, and of one into FREE with a forced leave of a mode pending. -/
def lastStepBack : State := seqr (fun q => { q with mode := some .recover }) lastStep
def lastStepPending (m : Mode) : State :=
  desires .neutral (seqr (fun q => { q with forcedPending := some m }) (lastStepInto .free .relief))

theorem witness_RampCompletion_back :
    slewDue lastStepBack .oda = true ∧ completionDue (slewOnce .oda lastStepBack) = true ∧ lastStepBack.port.closed = true
      ∧ lastStepBack.port.restarting = false ∧ lastStepBack.seq.phase = some .ramping
      ∧ lastStepBack.seq.transition = some ⟨.recover, false⟩ ∧ lastStepBack.seq.rampPosting = some lastStepBack.out.posting
      ∧ lastStepBack.seq.forcedPending = none ∧ confirmed lastStepBack = none ∧ lastStepBack.seq.mode ≠ some .defrost := by decide

theorem witness_RampCompletion_pending :
    (let s := lastStepPending .free
     slewDue s .oda = true ∧ completionDue (slewOnce .oda s) = true ∧ s.seq.forcedPending = some .free
      ∧ s.seq.transition = some ⟨.free, false⟩ ∧ s.seq.mode = some .recover ∧ s.decision.last.desired = some .neutral)
    ∧ (lastStepPending .defrost).seq.forcedPending = some .defrost ∧ completionDue (slewOnce .oda (lastStepPending .defrost)) = true := by
  decide

theorem witness_RampCompletion_pending_ramps :
    RampsAway (slewOnce .oda (lastStepPending .free)) (rampSet cfg12 (lastStepPending .free).decision.last (leaveTarget .free .neutral)) :=
  ⟨.whl, by decide, by decide⟩

/-- A full Peer Table whose last refusal was noticed 5 s ago. -/
def fullNoticed : State := fullTable.setPeers { fullTable.peers with lastFull := some 95000 }

theorem witness_Beacons_refused :
    fullTable.peers.lastFull = none ∧ completionDue fullTable = false ∧ fullTable.port.notices.length ≤ 8
      ∧ peerVictim fullNoticed 127 = none ∧ findPeer fullNoticed 5 = none ∧ 32 ≤ fullNoticed.peers.records.length
      ∧ (∃ y, fullNoticed.peers.lastFull = some y ∧ fullNoticed.now < y + fullNoticed.cfg.line.tSTALE * 1000)
      ∧ filtersAccept fullNoticed.cfg true 3 127 = true ∧ PeersSound fullNoticed.peers :=
  ⟨by decide, by decide, by decide, by decide, by decide, by decide, ⟨95000, by decide, by decide⟩, by decide, by decide, by decide, by decide⟩

theorem witness_Beacons_room :
    (let s := claims [claim 5 10 false 0 990] station
     s.claims.list.length < 32 ∧ findRecord s 5 .relief = some (claim 5 10 false 0 990))
    ∧ (fullList true).claims.list.length = 32 ∧ findRecord (fullList true) 13 .relief ≠ none ∧ unitsHeld (beacon 39) .defrost = 0 := by
  decide +kernel

/-- The own BEACON on the line, reporting a hold of 10 units, with station 5 holding an amount ahead of it. -/
def reporting (other : Nat) : State :=
  claims [claim 5 other true 1 990, claim 12 10 true 0 1001]
    (attempting .beacon (.beacon { beacon 40 with reliefUnits := 10 }) (proc .relief .held station))

theorem witness_OwnFrames_beacon_reconciles :
    (let s := reporting 90
     s.link.attempt = some ⟨.beacon, .beacon { beacon 40 with reliefUnits := 10 }⟩ ∧ s.port.restarting = false ∧ completionDue s = false
      ∧ (takeBeaconClaims (ownAddr s) (s.link.sequence + 1) { beacon 40 with reliefUnits := 10 }
          (s.setLink { s.link with sequence := s.link.sequence + 1 })).2 = []
      ∧ findRecord s (ownAddr s) .relief = some (claim 12 10 true 0 1001) ∧ findRecord s (ownAddr s) .defrost = none
      ∧ s.claims.list.length < 31)
    ∧ (let s := reporting 91
     (procOf s .relief).state = .held ∧ findRecord s (ownAddr s) .relief ≠ none ∧ s.port.notices.length ≤ 12
      ∧ withinRun (claims [claim 5 91 true 1 990, { claim 12 10 true 1 1001 with refreshed := s.now }] s) .relief = false) := by decide

/-! ## Jumped channels, running updates, cancels and links taken OFFLINE -/

/-- WHL stands at the 0 of a guard of manner IMMEDIATE and BYP at the fire position. -/
def jumped : State := outs (fun o => { guarded o with present := ⟨150, 1000, 0⟩, wheelRun := false }) station

/-- No demand that a channel follows is taken in a jump. -/
theorem jumpsMade_of {s : State} (h : ∀ ch, (aim s.cfg s.out ch).map (·.2) ≠ some true) : JumpsMade s :=
  fun ch _ ha => absurd (by rw [ha]; rfl) (h ch)

theorem witness_JumpedChannels :
    BeforeClose jumped ∧ JumpsMade jumped ∧ aim jumped.cfg jumped.out .byp = some (1000, true)
      ∧ aim jumped.cfg jumped.out .whl = some (0, true)
      ∧ ∃ t, step (jumped.setPending [.slewStep .whl]) = .next t := by
  refine ⟨fun h => absurd h (by decide), fun ch v h => ?_, by decide, by decide, _, rfl⟩
  cases ch <;> cases h <;> rfl

theorem witness_JumpedChannels_reset : JumpsMade State.reset := jumpsMade_of fun ch => by cases ch <;> decide

theorem witness_RampCompletion_jumps : JumpsMade (lastStepPending .free) ∧ JumpsMade (lastStepPending .defrost) :=
  ⟨jumpsMade_of fun ch => by cases ch <;> decide, jumpsMade_of fun ch => by cases ch <;> decide⟩

/-- A confirmed desire for a mode, in the latest record. -/
def settledOn (m : Mode) (s : State) : State := wanting m (desires m s)

theorem witness_Records_running :
    (let s := settledOn .recover (station.setSeq (settledIn .recover))
     s.seq.phase = some .settled ∧ s.seq.candidate = some .recover ∧ s.cfg.decision.confirm ≤ min 30 (s.seq.count + 1)
      ∧ s.decision.last.desired = some .recover ∧ s.seq.mode = some .recover ∧ s.decision.last.speed = some 400
      ∧ s.seq.demands = some ⟨150, 0, 1000⟩)
    ∧ (let s := settledOn .free inFree
     s.seq.phase = some .settled ∧ s.seq.candidate = some .free ∧ s.seq.mode = some .free ∧ s.decision.last.mixing = some 652
      ∧ s.seq.demands = some ⟨150, 0, 1000⟩)
    ∧ (let s := seqr (fun q => { q with dwellStart := some 99000, dwellTimer := some 1899000 })
         (settledOn .neutral (station.setSeq (settledIn .recover)))
     blocked s .neutral = true ∧ s.decision.last.speed ≠ none ∧ s.seq.phase = some .settled)
    ∧ (let s := settledOn .neutral station
     s.seq.phase = some .settled ∧ s.seq.mode ≠ some .neutral ∧ blocked s .neutral = false) := by decide

theorem witness_Records_cancelled :
    (let s := settledOn .neutral (moving .free .claiming (proc .relief .committing station))
     s.seq.transition = some ⟨.free, false⟩ ∧ Mode.free ≠ .neutral ∧ s.seq.mode = some .safe ∧ blocked s .neutral = false
      ∧ claimFor .neutral = none ∧ rampingMembers s (chooseWaitSet s) = [] ∧ claimFor .free = some .relief
      ∧ (procOf s .relief).state = .committing ∧ s.link.state ≠ .clashed)
    ∧ (let s := settledOn .neutral (moving .free .followWait (proc .relief .held following))
     s.seq.phase = some .followWait ∧ s.seq.mode ≠ some .neutral ∧ s.seq.mode ≠ some .free ∧ blocked s .neutral = false
      ∧ rampingMembers s (chooseWaitSet s) ≠ [] ∧ (procOf s .relief).state = .held)
    ∧ (let s := settledOn .defrost (moving .free .claiming (proc .relief .pending (station.setSeq (settledIn .recover))))
     blocked s .defrost = false ∧ s.seq.mode ≠ some .defrost ∧ claimFor .defrost = some .defrost
      ∧ (procOf s .defrost).state = .idle ∧ (procOf s .defrost).request = false ∧ heldBack s = false)
    ∧ (let s := settledOn .free (moving .free .claiming station)
     s.seq.transition = some ⟨.free, false⟩ ∧ s.decision.last.desired = some .free ∧ s.seq.phase = some .claiming)
    ∧ ¬(desires .neutral (moving .free .claiming station)).cfg.decision.confirm ≤ 1 := by decide

theorem witness_Records_cancelled_ramps :
    let s := settledOn .neutral (moving .free .claiming (proc .relief .committing station))
    NoExitWaits s ∧ RampsAway s (rampSet cfg12 s.decision.last .neutral) :=
  ⟨fun h => absurd h (by decide), ⟨.whl, by decide, by decide⟩⟩

/-- A request for FREE waits in IDLE behind a freeze. -/
def requesting : State := moving .free .claiming (station.setClaims { station.claims with
  freeze := true, fireSet := [(5, 90000)], proc := ⟨{ Process.idle with request := true }, .idle⟩ })

/-- What LINK OFF asks of a state that it takes OFFLINE. -/
def mayGoOffline (s : State) : Bool :=
  s.port.closed && !s.port.restarting && s.link.state == .online && (procOf s .relief).state == .idle
    && (procOf s .defrost).state == .idle && !completionDue s && s.seq.forcedPending == none

theorem witness_LinkCommands_leave :
    (mayGoOffline requesting ∧ requesting.seq.transition = some ⟨.free, false⟩ ∧ requesting.seq.phase = some .claiming
      ∧ claimFor .free = some .relief ∧ (procOf requesting .relief).request = true
      ∧ (procOf (after .linkOff requesting) .relief).request = false)
    ∧ (let s := desires .neutral (station.setSeq (settledIn .free))
     mayGoOffline s ∧ s.seq.mode = some .free ∧ s.seq.phase = some .settled ∧ s.decision.last.desired = some .neutral)
    ∧ (let s := desires .neutral (moving .recover .followWait (station.setSeq (settledIn .free)))
     mayGoOffline s ∧ s.seq.phase = some .followWait ∧ s.seq.transition = some ⟨.recover, false⟩)
    ∧ (let s := moving .free .ramping station
     mayGoOffline s ∧ s.seq.phase = some .ramping ∧ s.seq.transition = some ⟨.free, false⟩)
    ∧ (let s := moving .recover .ramping (station.setSeq (settledIn .free))
     mayGoOffline s ∧ s.seq.mode = some .free ∧ s.seq.phase = some .ramping ∧ s.seq.transition = some ⟨.recover, false⟩)
    ∧ (mayGoOffline (seqr (fun q => { q with mode := some .free }) (suspendedIn .claiming))
      ∧ (suspendedIn .claiming).seq.record = some (interrupted .claiming) ∧ mayGoOffline (suspendedIn .claiming)
      ∧ mayGoOffline station) := by decide

theorem witness_LinkCommands_ramps :
    let s := desires .neutral (station.setSeq (settledIn .free))
    RampsAway s (rampSet s.cfg s.decision.last (leaveTarget .free .neutral)) ∧ ¬usesClaim .recover ∧ usesClaim .free :=
  ⟨⟨.whl, by decide, by decide⟩, by unfold usesClaim; decide, .inl rfl⟩

theorem witness_Disagreement_samples :
    let counts (p : PeerRecord) : Bool := p.addr != 8
    let s := peers (({ peer 8 39 118 58 with quality := .disagree }) :: [peer 11 40 121 60, peer 24 41 116 57]) station
    (∀ p ∈ s.peers.records, counts p = true ↔ p.fresh = true ∧ p.quality = .valid
      ∧ (p.level ≤ ownLevel s + s.cfg.band.bandHalf ∧ ownLevel s ≤ p.level + s.cfg.band.bandHalf)
      ∧ (s.cfg.band.bandShaft = .any ∨ p.shaft = ownShaft s))
      ∧ peerSamples s = [(121, 60), (116, 57)] := by decide

/-! ## Start tests, wait sets and frames on offer -/

/-- The last limit that holds is STALL, and a desire for RECOVER waits on it. -/
def heldByStall : State :=
  conf (fun c => { c with limits := { c.limits with stallAct := .hold, supLowAct := .hold } })
    (lims (fun l => { l with stall := .active 20 .stallPeriod, hold := true }) (wanting .recover station))

/-- The last limit that holds is SUPPLY_LOW. -/
def heldBySupply : State := lims (fun l => { l with stall := .clear, supplyLow := .active 50 .supplyT }) heldByStall

theorem witness_LimitClear_start :
    let cleared := lims (fun l => { l with stall := .clear, hold := false }) heldByStall
    heldByStall.limits.stall ≠ .clear ∧ heldByStall.cfg.limits.stallAct = .hold ∧ heldByStall.limits.hold = true
      ∧ (∀ n, n ≠ .stall → limitOf heldByStall.limits n = .clear)
      ∧ heldByStall.limits.posted = combinedGuards heldByStall.cfg heldByStall.limits ∧ completionDue heldByStall = false
      ∧ confirmed cleared = some .recover ∧ cleared.seq.phase = some .settled ∧ cleared.seq.mode ≠ some .recover
      ∧ blocked heldByStall .recover = true ∧ blocked cleared .recover = false
      ∧ rampingMembers cleared (chooseWaitSet cleared) = [] ∧ claimFor .recover = none
      ∧ (let s := lims (fun l => { l with supplyLow := .active 50 .supplyT }) heldByStall
         limitOf s.limits .supplyLow ≠ .clear ∧ actionOf s.cfg .supplyLow = .hold) := by
  refine ⟨by decide, by decide, by decide, fun n h => ?_, by decide, by decide, by decide, by decide, by decide, by decide, by decide,
    by decide, by decide, by decide⟩
  cases n <;> first | rfl | exact absurd rfl h

theorem witness_LimitClear_ramp :
    let cleared := lims (fun l => { l with stall := .clear, hold := false }) heldByStall
    RampsAway cleared (rampSet cleared.cfg cleared.decision.last .recover) := ⟨.whl, by decide, by decide⟩

theorem witness_LimitsJudged_start :
    limitOf heldBySupply.limits .supplyLow ≠ .clear
      ∧ heldBySupply.cfg.limits.tSupLow + heldBySupply.cfg.limits.limHyst ≤ 160 ∧ actionOf heldBySupply.cfg .supplyLow = .hold
      ∧ heldBySupply.limits.hold = true ∧ limitOf heldBySupply.limits .frostTrip = .clear
      ∧ limitOf heldBySupply.limits .stall = .clear ∧ completionDue heldBySupply = false ∧ heldBySupply.port.closed = true
      ∧ heldBySupply.limits.posted = combinedGuards heldBySupply.cfg heldBySupply.limits
      ∧ (waiting heldBySupply).port.restarting = true := by decide

/-- The hold that clears starts the transition that waited on it, and not while a RESTART waits (R31, R188, R195). -/
theorem witness_LimitsJudged_starts :
    let write := after (.measWrite (some .supplyT) (some 160))
    (write heldBySupply).seq.phase = some .ramping ∧ (write (waiting heldBySupply)).seq.phase = some .settled
      ∧ (after .limitClear heldByStall).seq.phase = some .ramping := by decide

theorem witness_LinkOn_start :
    let s := link (fun l => { l with state := .offline }) (wanting .free station)
    s.link.state = .offline ∧ completionDue s = false ∧ blocked s .free = true
      ∧ blocked (link (fun l => { l with state := .joining }) s) .free = false := by decide

theorem witness_Lockout_start :
    let s := wanting .free (proc .relief .starved station)
    procDue s .relief .starved = true ∧ completionDue s = false ∧ confirmed s = some .free ∧ blocked s .free = true
      ∧ blocked (proc .relief .idle s) .free = false := by decide

theorem witness_DwellExpiry_held :
    (let s := confirmedFor .free (proc .relief .held station)
     dwellDue s = true ∧ completionDue s = false ∧ blocked s .free = false ∧ (procOf s .relief).state = .held)
    ∧ (let s := confirmedFor .free (station.setClaims { station.claims with freeze := true, fireSet := [(5, 90000)] })
     dwellDue s = true ∧ completionDue s = false ∧ blocked s .free = false ∧ (procOf s .relief).state = .idle ∧ heldBack s = true) := by
  decide

/-- Four neighbours below and one above, the highest two of equal level. -/
def neighbours (f : FollowMode) : State :=
  conf (fun c => { c with follow := { c.follow with follow := f, followN := 2, followList := [26, 7] } })
    (peers [peer 8 38 118 58, peer 11 39 121 60, peer 24 39 116 57, peer 25 37 116 57, peer 26 42 124 61] station)

/-- The wait set of each FOLLOW mode (R36). -/
theorem witness_DwellExpiry_wait_sets :
    chooseWaitSet (neighbours .none) = [] ∧ chooseWaitSet (neighbours .below) = [11, 24] ∧ chooseWaitSet (neighbours .list) = [26]
      ∧ (neighbours .below).cfg.follow.follow = .below ∧ (neighbours .list).cfg.follow.follow = .list := by decide

/-- A record with a speed above FROST_CAP, with and without frost risk, and one with neither speed nor mixing position (R39). -/
theorem witness_DwellExpiry_ramp_sets :
    rampSet cfg12 { EvalRecord.empty with speed := some 900, frostRisk := true } .recover = ⟨150, 0, 400⟩
      ∧ rampSet cfg12 { EvalRecord.empty with speed := some 900 } .recover = ⟨150, 0, 900⟩
      ∧ EvalRecord.empty.speed = none ∧ EvalRecord.empty.mixing = none ∧ cfg12.decision.frostCap = 400 := by decide

theorem witness_OutcomeTable_sides :
    let dry := { cfg12.decision with basis := .drybulb }
    gate dry { coldDay with wO := none, wR := none } = none ∧ gate dry coldDay = none ∧ coldDay.wO = some 14
      ∧ gate cfg12.decision { coldDay with tO := some 221 } = none := by decide

/-- All four slots hold a frame. -/
def crowded : State :=
  link (fun l => { l with
    alertSlot := some 9, beaconSlot := some 3, claimSlot := ⟨some ⟨.intent .relief 10 1 1 60, 3⟩, some ⟨.release .defrost .done, 4⟩⟩ })
    (proc .relief .yielding (proc .defrost .releasing station))

/-- ALERT first, then RELEASE, INTENT and BEACON (R89, R103). -/
theorem witness_Attempts_offers :
    (offers crowded).length = 4 ∧ crowded.link.attempt = none ∧ crowded.link.state = .online ∧ crowded.port.closed = true
      ∧ (nextOffer crowded).map (·.slot) = some .alert
      ∧ (nextOffer (link (fun l => { l with alertSlot := none }) crowded)).map (·.slot) = some .defrost
      ∧ ownQuality crowded = .absent ∧ ownQuality sunny ≠ .absent ∧ crowded.seq.mode = some .safe ∧ crowded.seq.phase = some .settled
      ∧ (procOf crowded .relief).state = .yielding ∧ (procOf station .relief).state = .idle
      ∧ crowded.port.notices.length < noticeCapacity := by decide

/-! ## R37, R49, R50, R78: waits, forced leaves and grants -/

/-- A forced leave clears the candidate when it becomes pending (R49), and a second cause changes nothing (R50). -/
theorem test_pending_forced_leave_clears_the_candidate :
    let clash := after (.frameReceived (lineFrame 3 12 (.alert ⟨true, 40⟩)))
    let t := clash (wanting .free (moving .free .ramping station))
    let u := clash (seqr (fun q => { q with forcedPending := some .defrost }) (moving .free .claiming station))
    t.seq.forcedPending = some .free ∧ t.seq.candidate = none ∧ t.seq.count = 0 ∧ t.seq.phase = some .ramping
      ∧ u.seq.phase = some .claiming ∧ u.seq.forcedPending = some .defrost := by decide

/-- A grant at the own HELD starts the ramp (R33, R78); a HELD that a full list kept out yields without a grant (R78, R81, R88). -/
theorem test_grant_starts_the_ramp :
    (after .transmitSuccess (granting 90)).seq.phase = some .ramping
      ∧ (after .transmitSuccess (granting 91)).seq.phase = some .settled
      ∧ ((after .transmitSuccess (keptOut 10)).port.notices.map (·.body)) = [.claimListFull 12, .claimGranted .relief]
      ∧ ((after .transmitSuccess (keptOut 9)).port.notices.map (·.body)) = [.claimListFull 12, .overcommitYield .relief] := by
  decide +kernel

/-- A wait goes on while another member ramps and ends when none is left (R37). -/
theorem test_stale_member_ends_the_wait :
    let stale (s : State) := after (.peerStale 5) (s.setNow 120000)
    (stale following).seq.phase = some .ramping ∧ (stale alsoRamping).seq.phase = some .followWait
      ∧ (stale alsoRamping).seq.waitSet = [9] := by decide

end Sys2Proof.Tests
end

section
/-! PROOF. The wheel speed, the mixing position and the evaluations that have them (R16, R20, R23). -/

namespace Sys2Proof.Machine

/-! ## The clamp of R16 and R20 -/

theorem clamp_eq_ite {lo hi : Nat} (h : lo ≤ hi) (q : Nat) :
    max lo (min hi q) = if q < lo then lo else if hi < q then hi else q := by
  split
  · omega
  · split <;> omega

/-! ## The wheel speed (R16) -/

/-- `(a + b - 1) / b` is the least quotient whose multiple reaches a: the division of R16 rounds up. -/
theorem div_rounded_up {a b : Nat} (ha : 0 < a) (hb : 0 < b) :
    a ≤ b * ((a + b - 1) / b) ∧ b * ((a + b - 1) / b - 1) < a := by
  have hdiv := Nat.div_add_mod (a + b - 1) b
  have hmod := Nat.mod_lt (a + b - 1) hb
  rw [Nat.mul_sub]
  omega

/-- The range R16 gives for the quotient: from 1000 / 950 to 1000000 / 300, rounded up. -/
theorem wheelQuotient_bounds {needed eff : Nat} (hn : 1 ≤ needed) (hn' : needed ≤ 1000) (he : 300 ≤ eff) (he' : eff ≤ 950) :
    2 ≤ (needed * 1000 + eff - 1) / eff ∧ (needed * 1000 + eff - 1) / eff ≤ 3334 := by
  have hpos : 0 < eff := by omega
  constructor
  · rw [Nat.le_div_iff_mul_le hpos]
    omega
  · rw [← Nat.lt_succ_iff, Nat.div_lt_iff_lt_mul hpos]
    omega

theorem wheelSpeed_eq_ite {d : DecisionItems} (hMin : d.wheelMin ≤ 1000) (needed : Nat) :
    let q := (needed * 1000 + d.eff - 1) / d.eff
    wheelSpeed d needed = if q < d.wheelMin then d.wheelMin else if 1000 < q then 1000 else q :=
  clamp_eq_ite hMin _

/-! ## The mixing position (R20) -/

theorem mixingPosition_of_not_warmer (oaMin : Nat) (tSp : Int) {tO tR : Int} (h : tR - tO ≤ 0) :
    mixingPosition oaMin tSp tO tR = 1000 := if_pos h

theorem mixingPosition_of_setpoint_reached (oaMin : Nat) {tSp tO tR : Int} (h : 0 < tR - tO) (hSp : tR ≤ tSp) :
    mixingPosition oaMin tSp tO tR = oaMin := by
  rw [mixingPosition, if_neg (Int.not_le.2 h), if_pos hSp]

theorem mixingPosition_of_mix (oaMin : Nat) {tSp tO tR : Int} (h : 0 < tR - tO) (hSp : tSp < tR) :
    mixingPosition oaMin tSp tO tR = max oaMin (min 1000 (Int.tdiv (1000 * (tR - tSp)) (tR - tO)).toNat) := by
  rw [mixingPosition, if_neg (Int.not_le.2 h), if_neg (Int.not_le.2 hSp)]

theorem mixingPosition_bounds {oaMin : Nat} (hMin : oaMin ≤ 1000) (tSp tO tR : Int) :
    oaMin ≤ mixingPosition oaMin tSp tO tR ∧ mixingPosition oaMin tSp tO tR ≤ 1000 := by
  unfold mixingPosition
  split
  · omega
  · split <;> omega

/-- Truncation toward zero of a quotient that is not negative is the whole number of times the divisor fits. -/
theorem toNat_tdiv_bounds {a b : Int} (ha : 0 ≤ a) (hb : 0 < b) :
    (Int.tdiv a b).toNat * b ≤ a ∧ a < ((Int.tdiv a b).toNat + 1) * b := by
  have hq : ((Int.tdiv a b).toNat : Int) = a / b := by
    rw [Int.tdiv_eq_ediv_of_nonneg ha, Int.toNat_of_nonneg (Int.ediv_nonneg ha (Int.le_of_lt hb))]
  rw [hq]
  exact ⟨Int.ediv_mul_le a (Int.ne_of_gt hb), Int.lt_ediv_add_one_mul_self a hb⟩

/-! ## What an evaluation ends with (R20, R22, R23) -/

/-- Stages 4, 5 and 8 never give FREE. -/
theorem recovery_mode_ne_free {c : Settings} {i : EvalInputs} {left : Favour} {risk : Bool} {tO tR hO hR : Int} :
    (recovery c i left risk tO tR hO hR).1 ≠ .free := by
  unfold recovery
  dsimp only
  split
  · exact nofun
  · split
    · exact nofun
    · split <;> exact nofun

/-- Every evaluation ends in one of two ways: with FREE and the mixing position of R20, or with another mode and none. -/
theorem evalRecord_free_or_other (c : Settings) (n : Word16) (i : EvalInputs) :
    let e := evalRecord c n i
    (∃ tO tR, i.tO = some tO ∧ i.tR = some tR ∧ e.desired = some .free
        ∧ e.mixing = some (mixingPosition c.outputs.oaMin i.tSp tO tR)
        ∧ e.demand = some ⟨mixingPosition c.outputs.oaMin i.tSp tO tR, 1000, 0⟩)
      ∨ ∃ m, m ≠ .free ∧ e.desired = some m ∧ e.mixing = none ∧ e.demand = some (demandSet c m e.speed none) := by
  unfold evalRecord
  dsimp only
  split
  next tO tR _ hO hR =>
    split
    · exact .inl ⟨tO, tR, hO, hR, rfl, rfl, rfl⟩
    · exact .inr ⟨_, recovery_mode_ne_free, rfl, rfl, rfl⟩
  · exact .inr ⟨.safe, by decide, rfl, rfl, rfl⟩
  · exact .inr ⟨.safe, by decide, rfl, rfl, rfl⟩

/-- Settles O36: the division rounded up of R16, the three guards of R20 in their order, and the two ways an evaluation ends. -/
theorem wheelSpeedAndMixingPosition : Obligations.WheelSpeedAndMixingPosition := by
  refine ⟨fun d needed hn hn' he he' hMin => ?speed, fun oaMin tSp tO tR hMin => ?position, fun c n i => ?record⟩
  case speed =>
    have hpos : 0 < d.eff := by omega
    obtain ⟨hReach, hLeast⟩ := div_rounded_up (a := needed * 1000) (by omega) hpos
    obtain ⟨h2, h3334⟩ := wheelQuotient_bounds hn hn' he he'
    exact ⟨_, hReach, hLeast, h2, h3334, wheelSpeed_eq_ite hMin needed⟩
  case position =>
    refine ⟨mixingPosition_of_not_warmer oaMin tSp, mixingPosition_of_setpoint_reached oaMin, fun h hSp => ?_,
      mixingPosition_bounds hMin tSp tO tR⟩
    obtain ⟨hle, hlt⟩ := toNat_tdiv_bounds (a := 1000 * (tR - tSp)) (by omega) h
    exact ⟨_, hle, hlt, (mixingPosition_of_mix oaMin h hSp).trans (clamp_eq_ite hMin _)⟩
  case record =>
    obtain ⟨tO, tR, hO, hR, hFree, hMix, hDemand⟩ | ⟨m, hm, hDesired, hMix, hDemand⟩ := evalRecord_free_or_other c n i
    · refine ⟨fun h => absurd hFree h, fun tO' tR' hO' hR' _ => ?_, fun v _ h => ?_⟩
      · obtain rfl := Option.some.inj (hO.symm.trans hO')
        obtain rfl := Option.some.inj (hR.symm.trans hR')
        exact ⟨hMix, hDemand⟩
      · exact absurd (hFree.symm.trans h) (by decide)
    · refine ⟨fun _ => hMix, fun _ _ _ _ h => ?_, fun v hSpeed h => ?_⟩
      · exact absurd (Option.some.inj (hDesired.symm.trans h)) hm
      · obtain rfl := Option.some.inj (hDesired.symm.trans h)
        rw [hDemand, hSpeed]
        rfl

end Sys2Proof.Machine
end

section
/-! PROOF. The filter slots, their final results and the chains they fall into (R120 to R123). -/

namespace Sys2Proof.Machine

/-! ## One slot (R121) -/

theorem slotResult_of_disabled {f : FilterRecord} (h : f.enable = false) (ownShaft ownLevel : Nat) (beacon : Bool)
    (shaft level : Nat) : slotResult ownShaft ownLevel f beacon shaft level = false := by
  simp [slotResult, h]

theorem slotResult_of_plain {f : FilterRecord} (h : f.enable = true) (hInv : f.inverse = false) (ownShaft ownLevel : Nat)
    (beacon : Bool) (shaft level : Nat) :
    slotResult ownShaft ownLevel f beacon shaft level = slotMatches ownShaft ownLevel f beacon shaft level := by
  simp [slotResult, h, hInv]

theorem slotResult_of_inverted {f : FilterRecord} (h : f.enable = true) (hInv : f.inverse = true) (ownShaft ownLevel : Nat)
    (beacon : Bool) (shaft level : Nat) :
    slotResult ownShaft ownLevel f beacon shaft level = !slotMatches ownShaft ownLevel f beacon shaft level := by
  simp [slotResult, h, hInv]

/-! ## Final results and chain ends (R122, R123) -/

/-- The final result of a slot as R122 gives it in words, from what the slot is joined to. -/
theorem final_eq_of_iff {final result join : Bool} {before : Prop} [Decidable before]
    (h : final = true ↔ result = true ∧ (join = true → before)) : final = (result && (!join || decide before)) := by
  rw [Bool.eq_iff_iff, h]
  cases join <;> simp

/-- The chain ends of the four slots: FILT3 always, each other slot when the slot after it is not joined to it. -/
theorem exists_chainEnd_iff (join final : Fin 4 → Bool) :
    (∃ n : Fin 4, (n = 3 ∨ join (n + 1) = false) ∧ final n = true) ↔
      (final 0 && !join 1 || final 1 && !join 2 || final 2 && !join 3 || final 3) = true := by
  simp only [Bool.or_eq_true, Bool.and_eq_true, Bool.not_eq_true']
  constructor
  · rintro ⟨n, hEnd, hFinal⟩
    match n with
    | 0 => exact .inl (.inl (.inl ⟨hFinal, hEnd.resolve_left (by decide)⟩))
    | 1 => exact .inl (.inl (.inr ⟨hFinal, hEnd.resolve_left (by decide)⟩))
    | 2 => exact .inl (.inr ⟨hFinal, hEnd.resolve_left (by decide)⟩)
    | 3 => exact .inr hFinal
  · rintro (((⟨hFinal, hEnd⟩ | ⟨hFinal, hEnd⟩) | ⟨hFinal, hEnd⟩) | hFinal)
    · exact ⟨0, .inr hEnd, hFinal⟩
    · exact ⟨1, .inr hEnd, hFinal⟩
    · exact ⟨2, .inr hEnd, hFinal⟩
    · exact ⟨3, .inl rfl, hFinal⟩

/-- Settles O59: the result of a slot by its enable and inverse, and the decision from the final results of R122, which their
equations fix slot by slot. -/
theorem filterSlotsChainAndAccept : Obligations.FilterSlotsChainAndAccept := by
  refine ⟨fun shaft0 level0 f beacon shaft level => ?slot, fun c beacon shaft level final => ?chains⟩
  case slot =>
    intro distance tests result
    have hMatch : slotMatches shaft0 level0 f beacon shaft level = true ↔ tests := by
      simp only [slotMatches, Bool.and_eq_true, and_assoc, tests]
      refine and_congr ?kind (and_congr ?selector ?window)
      case kind => cases beacon <;> exact Iff.rfl
      case selector => cases f.selector <;> simp
      case window =>
        cases f.window with
        | relative span => exact decide_eq_true_iff
        | absolute lo hi => simp
    refine ⟨fun h => slotResult_of_disabled h .., fun h hInv => ?_, fun h hInv => ?_⟩
    · rw [← hMatch, ← slotResult_of_plain h hInv]
    · rw [← hMatch, Bool.not_eq_true, ← Bool.not_eq_true', ← slotResult_of_inverted h hInv]
  case chains =>
    intro shaft0 result join hFirst hNext
    have h0 := final_eq_of_iff hFirst
    have h1 : final 1 = (result 1 && (!join 1 || final 0)) := by simpa using final_eq_of_iff (hNext 1 (by decide))
    have h2 : final 2 = (result 2 && (!join 2 || final 1)) := by simpa using final_eq_of_iff (hNext 2 (by decide))
    have h3 : final 3 = (result 3 && (!join 3 || final 2)) := by simpa using final_eq_of_iff (hNext 3 (by decide))
    have hAccept : filtersAccept c beacon shaft level =
        (final 0 && !join 1 || final 1 && !join 2 || final 2 && !join 3 || final 3) := by
      rw [h3, h2, h1, h0]
      rfl
    rw [hAccept, exists_chainEnd_iff]

end Sys2Proof.Machine
end

section
/-! PROOF. The median as the middle of the sorted samples (R149). -/

namespace Sys2Proof.Machine

/-! ## The samples in ascending order -/

theorem insertBy_perm {α : Type} (before : α → α → Bool) (x : α) (l : List α) : (insertBy before x l).Perm (x :: l) := by
  induction l with
  | nil => exact .refl _
  | cons y rest ih =>
    simp only [insertBy]
    split
    · exact .refl _
    · exact (ih.cons y).trans (.swap x y rest)

theorem sortBy_perm {α : Type} (before : α → α → Bool) (l : List α) : (sortBy before l).Perm l := by
  induction l with
  | nil => exact .refl _
  | cons x rest ih => exact (insertBy_perm before x _).trans (ih.cons x)

/-- Unlike `insertBy_pairwise`, equal values may stand beside each other: R149 keeps duplicates. -/
theorem insertBy_lt_sorted (x : Int) {l : List Int} (h : l.Pairwise (· ≤ ·)) :
    (insertBy (fun a b => decide (a < b)) x l).Pairwise (· ≤ ·) := by
  induction h with
  | nil => simp [insertBy]
  | @cons y rest hle hrest ih =>
    simp only [insertBy, decide_eq_true_eq]
    split
    case isTrue hxy =>
      have hle' : x ≤ y := Int.le_of_lt hxy
      exact .cons (List.forall_mem_cons.2 ⟨hle', fun z hz => Int.le_trans hle' (hle z hz)⟩) (.cons hle hrest)
    case isFalse hxy =>
      refine .cons (fun z hz => ?_) ih
      rcases (mem_insertBy _ x z rest).1 hz with rfl | hz
      · exact Int.not_lt.1 hxy
      · exact hle z hz

/-- The values of one component in ascending order, as the median takes them. -/
def ascending (l : List Int) : List Int := sortBy (fun a b => decide (a < b)) l

theorem ascending_perm (l : List Int) : (ascending l).Perm l := sortBy_perm _ l

@[simp] theorem ascending_length (l : List Int) : (ascending l).length = l.length := (ascending_perm l).length_eq

theorem ascending_sorted (l : List Int) : (ascending l).Pairwise (· ≤ ·) := by
  induction l with
  | nil => exact .nil
  | cons x rest ih => exact insertBy_lt_sorted x ih

theorem mem_of_ascending_getElem? {l : List Int} {i : Nat} {a : Int} (h : (ascending l)[i]? = some a) : a ∈ l :=
  (ascending_perm l).mem_iff.1 (List.mem_of_getElem? h)

/-! ## The median of an odd and of an even count -/

theorem median_eq_ite (l : List Int) :
    median l = if l.length % 2 = 1 then (ascending l).getD (l.length / 2) 0
      else Int.fdiv ((ascending l).getD (l.length / 2 - 1) 0 + (ascending l).getD (l.length / 2) 0) 2 := by
  rw [← ascending_length l]
  rfl

theorem ascending_getElem?_getD {l : List Int} {i : Nat} (h : i < l.length) :
    (ascending l)[i]? = some ((ascending l).getD i 0) := by
  have hi : i < (ascending l).length := by simpa using h
  rw [List.getD_eq_getElem?_getD, List.getElem?_eq_getElem hi, Option.getD_some]

theorem median_of_odd {l : List Int} (h : l.length % 2 = 1) : (ascending l)[l.length / 2]? = some (median l) := by
  rw [median_eq_ite, if_pos h]
  exact ascending_getElem?_getD (by omega)

/-- The floor of the mean of the two middle values: doubled it is their sum or one less. -/
theorem median_of_even {l : List Int} (hne : l ≠ []) (h : l.length % 2 = 0) :
    ∃ a b, (ascending l)[l.length / 2 - 1]? = some a ∧ (ascending l)[l.length / 2]? = some b
      ∧ 2 * median l ≤ a + b ∧ a + b ≤ 2 * median l + 1 := by
  have hpos := List.length_pos_iff.2 hne
  refine ⟨_, _, ascending_getElem?_getD (by omega), ascending_getElem?_getD (by omega), ?_⟩
  rw [median_eq_ite, if_neg (by omega), Int.fdiv_eq_ediv_of_nonneg _ (by decide)]
  omega

/-! ## The median between the least and the greatest value -/

theorem median_bounds {l : List Int} (hne : l ≠ []) : (∃ a ∈ l, a ≤ median l) ∧ ∃ b ∈ l, median l ≤ b := by
  rcases Nat.mod_two_eq_zero_or_one l.length with hEven | hOdd
  · obtain ⟨a, b, ha, hb, hLow, hHigh⟩ := median_of_even hne hEven
    have hab : a ≤ b := by
      obtain ⟨hi, rfl⟩ := List.getElem?_eq_some_iff.1 ha
      obtain ⟨hj, rfl⟩ := List.getElem?_eq_some_iff.1 hb
      have hpos := List.length_pos_iff.2 hne
      exact List.pairwise_iff_getElem.1 (ascending_sorted l) _ _ hi hj (by omega)
    exact ⟨⟨a, mem_of_ascending_getElem? ha, by omega⟩, b, mem_of_ascending_getElem? hb, by omega⟩
  · have hMem := mem_of_ascending_getElem? (median_of_odd hOdd)
    exact ⟨⟨_, hMem, Int.le_refl _⟩, _, hMem, Int.le_refl _⟩

/-- Settles O39: the list sorted is the witness, its middle is read off by the parity of the count. -/
theorem medianIsTheMiddleValue : Obligations.MedianIsTheMiddleValue := by
  refine ⟨fun l hne => ?_, fun x => ?_, fun l => rfl⟩
  · exact ⟨ascending l, ascending_perm l, ascending_sorted l, median_of_odd, median_of_even hne, median_bounds hne⟩
  · obtain ⟨hLow, hHigh⟩ : x ≤ median [x] ∧ median [x] ≤ x := by simpa using median_bounds (List.cons_ne_nil x [])
    exact Int.le_antisymm hHigh hLow

end Sys2Proof.Machine
end

section
/-! PROOF. The oldest notice leaves by NOTICE POP, and a posted notice joins a queue with room (R208, R209). -/

namespace Sys2Proof.Machine

/-! ## Postings to a queue with room (R208) -/

theorem hasRoom_of_empty {s : State} (h : s.port.notices = []) : HasRoom s := by
  simp [HasRoom, h, noticeCapacity]

theorem queueNotice_of_room {q : List Notice} (h : q.length < noticeCapacity) (overflow : Bool) (n : Notice) :
    queueNotice q overflow n = (q ++ [n], overflow) := if_pos h

theorem post_of_room {s : State} (h : HasRoom s) (b : NoticeBody) :
    post b s = s.setPort (setNotices s.port (s.port.notices ++ [noticeNow b s]) s.port.overflow) := by
  rw [post, queueNotice_of_room h]
  rfl

theorem posted_post_of_room {s : State} (h : HasRoom s) (b : NoticeBody) : Posted b s (post b s) := by
  rw [Posted, post_of_room h]
  rfl

/-! ## NOTICE POP (R209, R210) -/

theorem exec_noticePop (s : State) : exec .noticePop s = .next (popNotice s) := rfl

theorem popNotice_of_cons {s : State} {n : Notice} {rest : List Notice} (h : s.port.notices = n :: rest) :
    popNotice s = s.setPort { s.port with
      notices := rest, attn := attnOf s.cfg.attnMask rest
      reply := some ⟨.ok, .notice n rest.length s.port.overflow⟩ } := by
  rw [popNotice, h]
  rfl

theorem popNotice_of_empty {s : State} (h : s.port.notices = []) :
    popNotice s = s.setPort { s.port with
      notices := [], overflow := false, attn := false, reply := some ⟨.ok, .empty s.port.overflow⟩ } := by
  rw [popNotice, h]
  rfl

/-! ## A posting and a pop at the same moment (R209) -/

/-- The posting goes first: the pop returns its notice and leaves the queue as empty as it was. -/
theorem popNotice_post_of_empty {s : State} (h : s.port.notices = []) (b : NoticeBody) :
    (popNotice (post b s)).port.notices = [] ∧ (popNotice (post b s)).port.overflow = s.port.overflow
      ∧ (popNotice (post b s)).port.reply = some ⟨.ok, .notice (noticeNow b s) 0 s.port.overflow⟩ := by
  have hPost := post_of_room (hasRoom_of_empty h) b
  have hQueue : (post b s).port.notices = [noticeNow b s] := by
    rw [hPost, h]
    rfl
  rw [popNotice_of_cons hQueue, hPost]
  exact ⟨rfl, rfl, rfl⟩

/-- The pop goes first: it returns EMPTY, and the notice joins the queue after it. -/
theorem post_popNotice_of_empty {s : State} (h : s.port.notices = []) (b : NoticeBody) :
    (popNotice s).port.reply = some ⟨.ok, .empty s.port.overflow⟩ ∧ Posted b (popNotice s) (post b (popNotice s)) := by
  rw [popNotice_of_empty h]
  exact ⟨rfl, posted_post_of_room (hasRoom_of_empty rfl) b⟩

/-- Settles O29: a queue that holds a notice, an empty one, and the two orders of a posting and a pop on an empty one. -/
theorem noticePopTakesTheOldest : Obligations.NoticePopTakesTheOldest := by
  refine fun s => ⟨fun n rest h => ?oldest, fun h => ?empty, fun b h => ?orders⟩
  case oldest => rw [exec_noticePop, popNotice_of_cons h]; rfl
  case empty => rw [exec_noticePop, popNotice_of_empty h, ← h]
  case orders =>
    obtain ⟨hQueue, hOverflow, hReply⟩ := popNotice_post_of_empty h b
    obtain ⟨hReplyEmpty, hPosted⟩ := post_popNotice_of_empty h b
    exact ⟨_, exec_noticePop _, hQueue, hOverflow, hReply, _, exec_noticePop s, hReplyEmpty, hPosted⟩

end Sys2Proof.Machine
end

section
/-! PROOF. One step of the station, and the invariants that follow from what the acts of a command keep (R60, R83, R127, R163, R167). -/

namespace Sys2Proof.Machine

/-! ## A step with a command waiting and without one (R1; log entries 1 and 2) -/

theorem step_of_pending {s : State} {c : Instr} {rest : List Instr} (h : s.pending = c :: rest) :
    step s = exec c (s.setPending rest) := by rw [step, h]

theorem step_of_idle {s : State} (h : s.pending = []) : step s = .next (idle s) := by rw [step, h]

/-- Settles O1. -/
theorem stepTakesFrontCommand : Obligations.StepTakesFrontCommand := fun _ _ _ => step_of_pending rfl

/-- What an empty queue does: a due event is queued, or a millisecond passes. -/
theorem idle_cases (s : State) :
    (dueEvents s = [] ∧ idle s = tick s) ∨ ∃ c ∈ dueEvents s, ∃ n, idle s = (s.setPending [c]).setChoices n := by
  cases h : dueEvents s with
  | nil => exact .inl ⟨rfl, by rw [idle, h]⟩
  | cons c rest =>
    refine .inr ?_
    cases rest with
    | nil => exact ⟨c, List.mem_cons_self .., s.choices, by rw [idle, h]; rfl⟩
    | cons d rest =>
      have hlt := Nat.mod_lt (Config.dueChoice s.choices) (show 0 < (c :: d :: rest).length by simp)
      refine ⟨(c :: d :: rest).getD (Config.dueChoice s.choices % (c :: d :: rest).length) c, ?_, s.choices + 1,
        by rw [idle, h]⟩
      rw [List.getD_eq_getElem?_getD, List.getElem?_eq_getElem hlt, Option.getD_some]
      exact List.getElem_mem hlt

/-! ## A tick raises the accumulators and nothing else (R166) -/

/-- One channel's accumulator after a millisecond. -/
def raised (s : State) (ch : Channel) : Nat :=
  chGet s.out.acc ch + if heading s.cfg s.out ch = 0 then 0 else chGet s.cfg.outputs.slew ch

theorem chSet_chGet {α : Type} (p : PerChannel α) (ch : Channel) : chSet p ch (chGet p ch) = p := by cases ch <;> rfl

theorem accumulate_eq (ch : Channel) (s : State) :
    accumulate ch s = s.setOut { s.out with acc := chSet s.out.acc ch (raised s ch) } := by
  unfold accumulate raised
  by_cases h : heading s.cfg s.out ch = 0
  · simp [h, chSet_chGet]; rfl
  · simp [h]

/-- No channel's heading rests on the accumulators. -/
theorem heading_acc (c : Settings) (o : OutputUnit) (a : PerChannel Nat) (ch : Channel) :
    heading c { o with acc := a } ch = heading c o ch := rfl

theorem tick_eq (s : State) :
    tick s = (s.setNow (s.now + 1)).setOut { s.out with acc := ⟨raised s .oda, raised s .byp, raised s .whl⟩ } := by
  rw [tick, accumulate_eq, accumulate_eq, accumulate_eq]
  rfl

/-- Settles O2: the due event is one of the list, and a tick is written out channel by channel. -/
theorem emptyQueueTakesDueEventOrMillisecond : Obligations.EmptyQueueTakesDueEventOrMillisecond := by
  intro s hEmpty
  rw [step_of_idle hEmpty]
  rcases idle_cases s with ⟨hNone, hTick⟩ | ⟨c, hc, n, hQueued⟩
  · refine ⟨fun h => absurd hNone h, fun _ => ⟨_, rfl, ?_, fun ch => ?_⟩⟩
    · rw [hTick, tick_eq]; rfl
    · rw [hTick, tick_eq]; cases ch <;> rfl
  · exact ⟨fun _ => ⟨c, hc, n, by rw [hQueued]⟩, fun h => absurd hc (by simp [h])⟩

/-! ## What a command can do, POWER_ON_RESET and the configuration included -/

/-- The state with another configuration record and closed flag. -/
def recast (c : Settings) (closed : Bool) (s : State) : State := s.setPort { s.port with cfg := c, closed := closed }

theorem execCfgWrite_acts {P : Part → Bool} (hp : Whole P) (w : CfgWrite) (s : State) :
    ∃ t c, exec (.cfgWrite w) s = .next t ∧ (s.port.closed = true → c = s.cfg) ∧ Acts P (recast c s.port.closed s) t := by
  have hSame : recast s.cfg s.port.closed s = s := rfl
  by_cases hw : w = .unknown
  · exact ⟨_, s.cfg, rfl, fun _ => rfl, by rw [if_pos hw, hSame]; exact Acts.refl.reply _ hp.reply⟩
  by_cases hc : s.port.closed = true
  · exact ⟨_, s.cfg, rfl, fun _ => rfl, by rw [if_neg hw, if_pos hc, hSame]; exact Acts.refl.reply _ hp.reply⟩
  cases hStore : storeItem s.cfg w with
  | none => exact ⟨_, s.cfg, rfl, fun _ => rfl, by rw [if_neg hw, if_neg hc, hStore, hSame]; exact Acts.refl.reply _ hp.reply⟩
  | some x =>
    exact ⟨_, x.1, rfl, fun h => absurd h hc, by rw [if_neg hw, if_neg hc, hStore]; exact Acts.refl.reply _ hp.reply⟩

theorem execCfgClose_acts {P : Part → Bool} (hp : Whole P) (s : State) :
    ∃ t c b, exec .cfgClose s = .next t ∧ (s.port.closed = true → c = s.cfg ∧ b = true) ∧ Acts P (recast c b s) t := by
  have hSame : recast s.cfg s.port.closed s = s := rfl
  by_cases hc : s.port.closed = true
  · exact ⟨_, s.cfg, s.port.closed, rfl, fun h => ⟨rfl, h⟩, by rw [if_pos hc, hSame]; exact Acts.refl.reply _ hp.reply⟩
  by_cases hid : (s.cfg.ident.addr.isNone || s.cfg.ident.level.isNone || s.cfg.ident.shaft.isNone) = true
  · exact ⟨_, s.cfg, s.port.closed, rfl, fun h => ⟨rfl, h⟩, by rw [if_neg hc, if_pos hid, hSame]; exact Acts.refl.reply _ hp.reply⟩
  · exact ⟨_, (closeChecks s.cfg).1, true, rfl, fun h => absurd h hc, by rw [if_neg hc, if_neg hid]; exact closeConfig_acts s hp⟩

/-- Every command but POWER_ON_RESET answers a next state that acts reach from the present one with, before close, another configuration
record and closed flag. -/
theorem exec_recast_acts {P : Part → Bool} (hp : Whole P) {c : Instr} (hOn : c ≠ .powerOnReset)
    (hnum : P .number = true ∨ ((∀ f, c ≠ .frameReceived f) ∧ c ≠ .transmitSuccess))
    (hpins : P .pins = true ∨ ((∀ l, c ≠ .firePinChange l) ∧ ∀ l, c ≠ .rotPinChange l)) (s : State) :
    ∃ t cfg closed, exec c s = .next t ∧ (s.port.closed = true → cfg = s.cfg ∧ closed = true) ∧ Acts P (recast cfg closed s) t := by
  by_cases hWrite : ∃ w, c = .cfgWrite w
  · obtain ⟨w, rfl⟩ := hWrite
    obtain ⟨t, cfg, hExec, hCfg, hActs⟩ := execCfgWrite_acts hp w s
    exact ⟨t, cfg, s.port.closed, hExec, fun h => ⟨hCfg h, h⟩, hActs⟩
  by_cases hClose : c = .cfgClose
  · subst hClose; exact execCfgClose_acts hp s
  · obtain ⟨t, hExec, hActs⟩ := exec_acts hp c hOn (.inr ⟨fun w h => hWrite ⟨w, h⟩, hClose⟩) hnum hpins
    exact ⟨t, s.cfg, s.port.closed, hExec, fun h => ⟨rfl, h⟩, hActs⟩

/-- Every command answers a next state: POWER_ON_RESET the power-on state, and every other one a state that acts reach. -/
theorem exec_cases (c : Instr) (s : State) :
    ∃ t, exec c s = .next t ∧ (t = powerOn s ∨ ∃ cfg closed, (s.port.closed = true → cfg = s.cfg ∧ closed = true)
      ∧ Acts Part.any (recast cfg closed s) t) := by
  by_cases hOn : c = .powerOnReset
  · subst hOn; exact ⟨_, rfl, .inl rfl⟩
  · obtain ⟨t, cfg, closed, hExec, hCfg, hActs⟩ := exec_recast_acts whole_any hOn (.inl rfl) (.inl rfl) s
    exact ⟨t, hExec, .inr ⟨cfg, closed, hCfg, hActs⟩⟩

/-- Settles O3. -/
theorem everyCommandGoesOnAndKeepsTheQueue : Obligations.EveryCommandGoesOnAndKeepsTheQueue := by
  intro c s
  obtain ⟨t, hExec, rfl | ⟨cfg, closed, _, hActs⟩⟩ := exec_cases c s
  · exact ⟨_, hExec, rfl⟩
  · exact ⟨t, hExec, hActs.pending⟩

/-! ## Invariants of a step -/

/-- An invariant that does not see the queue, the time base, the accumulators and the count of free values, and that every command keeps,
is kept by every step. -/
theorem step_keeps {I : State → Prop} (hPending : ∀ s q, I s → I (s.setPending q)) (hChoices : ∀ s n, I s → I (s.setChoices n))
    (hTick : ∀ s, I s → I (tick s)) (hExec : ∀ c s t, I s → exec c s = .next t → I t) {s t : State} (hs : I s)
    (h : step s = .next t) : I t := by
  cases hq : s.pending with
  | nil =>
    rw [step_of_idle hq] at h
    cases h
    rcases idle_cases s with ⟨_, hIdle⟩ | ⟨c, _, n, hIdle⟩
    · rw [hIdle]; exact hTick s hs
    · rw [hIdle]; exact hChoices _ _ (hPending _ _ hs)
  | cons c rest =>
    rw [step_of_pending hq] at h
    exact hExec c _ t (hPending _ _ hs) h

/-- An invariant that power-on meets and that acts keep, whatever the configuration record, is kept by every command. -/
theorem exec_keeps {I : State → Prop} (hOn : ∀ s, I (powerOn s)) (hCast : ∀ c b s, I s → I (recast c b s))
    (hActs : ∀ s t, I s → Acts Part.any s t → I t) (c : Instr) (s t : State) (hs : I s) (h : exec c s = .next t) : I t := by
  obtain ⟨u, hu, hCases⟩ := exec_cases c s
  cases h.symm.trans hu
  rcases hCases with rfl | ⟨cfg, closed, _, hReach⟩
  · exact hOn s
  · exact hActs _ _ (hCast cfg closed s hs) hReach

/-- Settles O8: acts keep the Peer Table sound. -/
theorem peerTableStaysSound : Obligations.PeerTableStaysSound := fun _ _ hs h =>
  step_keeps (I := fun s => PeersSound s.peers) (fun _ _ h => h) (fun _ _ h => h) (fun s h => by rw [tick_eq]; exact h)
    (exec_keeps (fun _ => peersSound_nil rfl) (fun _ _ _ h => h) fun _ _ hs h => h.peersSound hs) hs h

/-- Settles O9: acts keep the Claim Unit sound. -/
theorem claimListAndFreezeStaySound : Obligations.ClaimListAndFreezeStaySound := fun _ _ hs h =>
  step_keeps (I := fun s => ClaimsSound s.claims) (fun _ _ h => h) (fun _ _ h => h) (fun s h => by rw [tick_eq]; exact h)
    (exec_keeps (fun _ => claimsSound_start defaults) (fun _ _ _ h => h) fun _ _ hs h => h.claimsSound hs) hs h

/-- Settles O10: acts keep the wheel-run output with the WHL output. -/
theorem wheelRunFollowsWheelOutput : Obligations.WheelRunFollowsWheelOutput := fun _ _ hs h =>
  step_keeps (I := fun s => WheelSound s.out) (fun _ _ h => h) (fun _ _ h => h) (fun s h => by rw [tick_eq]; exact h)
    (exec_keeps (fun _ => rfl) (fun _ _ _ h => h) fun _ _ hs h => h.wheelSound hs) hs h

/-! ## Time, pins, sequence and configuration (R93, R94, R97, R200) -/

/-- Every part but the pins. -/
def Part.unpinned : Part → Bool := fun p => p != .pins

theorem whole_unpinned : Whole Part.unpinned :=
  ⟨⟨⟨⟨rfl, rfl, rfl, rfl, rfl, rfl⟩, rfl, rfl⟩, rfl, rfl, rfl⟩, rfl, rfl, rfl, rfl, rfl, rfl⟩

/-- Every part but the numbering of frames. -/
def Part.unnumbered : Part → Bool := fun p => p != .number

theorem whole_unnumbered : Whole Part.unnumbered :=
  ⟨⟨⟨⟨rfl, rfl, rfl, rfl, rfl, rfl⟩, rfl, rfl⟩, rfl, rfl, rfl⟩, rfl, rfl, rfl, rfl, rfl, rfl⟩

/-- The pins after a command: each stands but for the one that the command names (R173, R190). -/
theorem exec_pins {c : Instr} {s t : State} (hOn : c ≠ .powerOnReset) (h : exec c s = .next t) :
    t.firePin = (match (generalizing := false) c with | .firePinChange level => level | _ => s.firePin)
      ∧ t.rotPin = (match (generalizing := false) c with | .rotPinChange level => level | _ => s.rotPin) := by
  by_cases hFire : ∃ l, c = .firePinChange l
  · obtain ⟨l, rfl⟩ := hFire; cases h; exact ⟨rfl, rfl⟩
  by_cases hRot : ∃ l, c = .rotPinChange l
  · obtain ⟨l, rfl⟩ := hRot; cases h; exact ⟨rfl, rfl⟩
  · obtain ⟨u, cfg, closed, hu, _, hActs⟩ := exec_recast_acts whole_unpinned hOn (.inl rfl)
      (.inr ⟨fun l h => hFire ⟨l, h⟩, fun l h => hRot ⟨l, h⟩⟩) s
    cases h.symm.trans hu
    constructor
    · rw [hActs.firePin_eq rfl]; split
      · exact absurd ⟨_, rfl⟩ hFire
      · rfl
    · rw [hActs.rotPin_eq rfl]; split
      · exact absurd ⟨_, rfl⟩ hRot
      · rfl

/-- A processed frame is numbered and nothing after that numbers another (R93, R94). -/
theorem processFrame_sequence (f : RiserFrame) (s : State) : (processFrame f s).link.sequence = s.link.sequence + 1 := by
  have hs := whole_unnumbered.toSequences
  have hActs : Acts Part.unnumbered (numberFrame s) (processFrame f s) :=
    ite_acts (ite_acts .refl (enterClashed_acts _ _ .refl hs)) (ite_acts .refl (handOn_acts f .refl hs rfl))
  exact hActs.sequence_eq rfl

theorem receiveFrame_sequence (f : LineFrame) (s : State) :
    (receiveFrame f s).link.sequence = if (readRiser f).isSome = true ∧ s.port.closed = true ∧ s.link.state ≠ .offline
      then s.link.sequence + 1 else s.link.sequence := by
  unfold receiveFrame
  cases hRead : readRiser f with
  | none => simp
  | some x =>
    by_cases hp : processing s = true
    · have hOpen : s.port.closed = true ∧ s.link.state ≠ .offline := by simpa [processing] using hp
      simp [hp, hOpen, processFrame_sequence]
    · have hOpen : ¬(s.port.closed = true ∧ s.link.state ≠ .offline) := by simpa [processing] using hp
      simp [hp, hOpen]

/-- An own frame sent takes one number (R97). -/
theorem transmitted_sequence (s : State) :
    (transmitted s).link.sequence = if s.link.attempt.isSome = true then s.link.sequence + 1 else s.link.sequence := by
  unfold transmitted
  cases hAttempt : s.link.attempt with
  | none => rfl
  | some a =>
    have hs := whole_unnumbered.toSequences
    exact Acts.sequence_eq (P := Part.unnumbered) (settleRamps_acts (reported_acts (takeOwnFrame_acts _ _
      (followUp_acts _ _ _ .refl rfl) rfl rfl) hs) hs) rfl

/-- Settles O4: the parts that no act touches, and the two events that number a frame taken by themselves. -/
theorem timePinsSequenceAndClosedConfigurationStand : Obligations.TimePinsSequenceAndClosedConfigurationStand := by
  intro c s t h
  refine ⟨fun hOn => ?others, ?sequence⟩
  case others =>
    obtain ⟨u, cfg, closed, hu, hClosed, hActs⟩ := exec_recast_acts whole_any hOn (.inl rfl) (.inl rfl) s
    cases h.symm.trans hu
    obtain ⟨hFire, hRot⟩ := exec_pins hOn h
    refine ⟨hActs.now, hFire, hRot, fun hc => ?_⟩
    obtain ⟨rfl, rfl⟩ := hClosed hc
    exact ⟨hActs.closed, hActs.cfg⟩
  case sequence =>
    by_cases hOn : c = .powerOnReset
    · subst hOn; cases h; rfl
    by_cases hFrame : ∃ f, c = .frameReceived f
    · obtain ⟨f, rfl⟩ := hFrame; cases h; exact receiveFrame_sequence f s
    by_cases hSuccess : c = .transmitSuccess
    · subst hSuccess; cases h; exact transmitted_sequence s
    · obtain ⟨u, cfg, closed, hu, _, hActs⟩ := exec_recast_acts whole_unnumbered hOn (.inr ⟨fun f h => hFrame ⟨f, h⟩, hSuccess⟩)
        (.inl rfl) s
      cases h.symm.trans hu
      rw [hActs.sequence_eq rfl]
      split
      · exact absurd rfl hOn
      · exact absurd ⟨_, rfl⟩ hFrame
      · exact absurd rfl hSuccess
      · rfl

end Sys2Proof.Machine
end

section
/-! PROOF. Invariants of what drives the outputs: an invariant that survives each way in which demands, outputs and evaluation records
come about is kept by every operation of the station. -/

namespace Sys2Proof.Machine

/-! ## What such an invariant survives -/

/-- Two states of the Output Unit with the same outputs and the same demands. -/
structure SameDrive (a b : OutputUnit) : Prop where
  present : a.present = b.present
  seqSet : a.seqSet = b.seqSet
  guard : a.guard = b.guard
  manual : a.manual = b.manual
  fire : a.fire = b.fire

theorem sameDrive_rfl (a : OutputUnit) : SameDrive a a := ⟨rfl, rfl, rfl, rfl, rfl⟩

/-- An invariant of the configuration, the latest evaluation record, the demands and the outputs that survives each way in which one of
them changes (R7 to R25, R39, R42, R53, R166 to R177, R187). -/
structure DriveInvariant (I : State → Prop) : Prop where
  same : ∀ {s t : State}, I s → t.cfg = s.cfg → t.decision.last = s.decision.last → t.seq.demands = s.seq.demands →
    SameDrive t.out s.out → I t
  noDemands : ∀ {s : State} {q : Sequencer}, I s → q.demands = none → I (s.setSeq q)
  ramp : ∀ {s : State} (m : Mode), I s → I (postSet (rampSet s.cfg s.decision.last m) s)
  speed : ∀ {s : State} {d : DemandSet} {v : Nat}, I s → s.seq.demands = some d → s.decision.last.speed = some v →
    I (postSet { d with whl := v } s)
  mixing : ∀ {s : State} {d : DemandSet} {v : Nat}, I s → s.seq.demands = some d → s.decision.last.mixing = some v →
    I (postSet { d with oda := v } s)
  again : ∀ {s : State} {d : DemandSet}, I s → s.seq.demands = some d → I (postSet d s)
  guards : ∀ {s : State} (l : Limits), I s → I (setGuards (combinedGuards s.cfg l) s)
  noGuards : ∀ {s : State}, I s → I (setGuards ⟨none, none, none⟩ s)
  manual : ∀ {s : State} (ch : Channel) (m : Option Manual), I s → (∀ x, m = some x → x.value ≤ 1000) → I (setManual ch m s)
  noManuals : ∀ {s : State}, I s → I (dropManual s)
  fire : ∀ {s : State}, I s → I (changeDemands (fun o => { o with fire := s.cfg.outputs.fire }) s)
  noFire : ∀ {s : State}, I s → I (changeDemands (fun o => { o with fire := ⟨none, none, none⟩ }) s)
  slew : ∀ {s : State} (ch : Channel), I s → I (slewOnce ch s)
  record : ∀ {s : State} (n : Word16) (i : EvalInputs) (d : Decision), I s → d.last = evalRecord s.cfg n i → I (s.setDecision d)

/-- Every part that no such invariant sees. -/
def Part.aside : Part → Bool := fun p => p != .decision && p != .seq && p != .out

section
variable {I : State → Prop} {s t : State}

/-- Acts on the other parts keep such an invariant. -/
theorem DriveInvariant.acts (hI : DriveInvariant I) (hs : I s) (h : Acts Part.aside s t) : I t := by
  refine hI.same hs h.cfg ?_ ?_ ?_
  · rw [h.decision_eq rfl]
  · rw [h.seq_eq rfl]
  · rw [h.out_eq rfl]; exact sameDrive_rfl _

theorem DriveInvariant.ite (_ : DriveInvariant I) {c : Prop} [Decidable c] {a b : State} (ha : I a) (hb : I b) :
    I (if c then a else b) := by split <;> assumption

/-- A change of the Sequencer that leaves its demand set keeps such an invariant. -/
theorem DriveInvariant.seq (hI : DriveInvariant I) (hs : I s) (q : Sequencer) (h : q.demands = s.seq.demands) : I (s.setSeq q) :=
  hI.same hs rfl rfl h (sameDrive_rfl _)

theorem DriveInvariant.limits (hI : DriveInvariant I) (hs : I s) (l : Limits) : I (s.setLimits l) :=
  hI.acts hs (Acts.refl.limits l rfl)

theorem DriveInvariant.post (hI : DriveInvariant I) (hs : I s) (b : NoticeBody) : I (post b s) := hI.acts hs (Acts.refl.post b rfl)

theorem DriveInvariant.reply (hI : DriveInvariant I) (hs : I s) (st : ReplyStatus) (d : ReplyData) : I (reply st d s) :=
  hI.acts hs (Acts.refl.reply _ rfl)

theorem DriveInvariant.decision (hI : DriveInvariant I) (hs : I s) (d : Decision) (h : d.last = s.decision.last) :
    I (s.setDecision d) := hI.same hs rfl h rfl (sameDrive_rfl _)

/-- A change of the Output Unit's other fields keeps such an invariant. -/
theorem DriveInvariant.out (hI : DriveInvariant I) (hs : I s) (o : OutputUnit) (h : SameDrive o s.out) : I (s.setOut o) :=
  hI.same hs rfl rfl rfl h

/-! ## The Mode Sequencer (R26 to R55) -/

theorem setMode_drive (hI : DriveInvariant I) (m : Mode) (hs : I s) : I (setMode m s) :=
  hI.ite hs (hI.acts (hI.seq hs { s.seq with mode := some m } rfl) (queueBeacon_acts .refl rfl))

theorem setPhase_drive (hI : DriveInvariant I) (p : Phase) (hs : I s) : I (setPhase p s) :=
  hI.ite hs (hI.acts (hI.seq hs { s.seq with phase := some p } rfl) (queueBeacon_acts .refl rfl))

theorem endWait_drive (hI : DriveInvariant I) (hs : I s) : I (endWait s) := hI.seq hs _ rfl

theorem enterRamping_drive (hI : DriveInvariant I) (m : Mode) (hs : I s) : I (enterRamping m s) :=
  hI.seq (hI.ramp m (setPhase_drive hI _ (endWait_drive hI hs))) _ rfl

theorem enterWaitOrRamp_drive (hI : DriveInvariant I) (m : Mode) (f : Bool) (hs : I s) : I (enterWaitOrRamp m f s) :=
  hI.ite (enterRamping_drive hI m hs) (setPhase_drive hI _ (hI.seq hs _ rfl))

theorem enterFirstPhase_drive (hI : DriveInvariant I) (m : Mode) (f : Bool) (hs : I s) : I (enterFirstPhase m f s) := by
  unfold enterFirstPhase; (repeat' split)
  · exact enterWaitOrRamp_drive hI m f hs
  · exact hI.acts (setPhase_drive hI _ hs) (requestClaim_acts _ .refl rfl rfl)
  · exact enterWaitOrRamp_drive hI m f hs

theorem beginTransition_drive (hI : DriveInvariant I) (m : Mode) (f : Bool) (hs : I s) : I (beginTransition m f s) :=
  enterFirstPhase_drive hI m f (hI.seq hs _ rfl)

theorem startTest_drive (hI : DriveInvariant I) (hs : I s) : I (startTest s) := by
  unfold startTest; split
  · exact hs
  · exact hI.ite (beginTransition_drive hI _ _ hs) hs

theorem exitTest_drive (hI : DriveInvariant I) (hs : I s) : I (exitTest s) := hI.ite (beginTransition_drive hI _ _ hs) hs

theorem afterSettled_drive (hI : DriveInvariant I) (hs : I s) : I (afterSettled s) := exitTest_drive hI (startTest_drive hI hs)

theorem releaseUnneeded_drive (hI : DriveInvariant I) (m : Option Mode) (hs : I s) : I (releaseUnneeded m s) :=
  hI.acts hs (forBoth_acts (fun _ _ h => ite_acts (releaseClaim_acts _ h rfl rfl) h) .refl)

theorem cancelRequest_drive (hI : DriveInvariant I) (hs : I s) : I (cancelRequest s) := by
  unfold cancelRequest; (repeat' split)
  · exact hs
  · exact hs
  · exact hI.acts hs (cancelClaim_acts _ .refl rfl rfl)

theorem toSettled_drive (hI : DriveInvariant I) (hs : I s) : I (toSettled s) := setPhase_drive hI _ (hI.seq hs _ rfl)

theorem cancelTransition_drive (hI : DriveInvariant I) (hs : I s) : I (cancelTransition s) :=
  toSettled_drive hI (endWait_drive hI (releaseUnneeded_drive hI _ (cancelRequest_drive hI hs)))

theorem abandon_drive (hI : DriveInvariant I) (m : Mode) (hs : I s) : I (abandon m s) :=
  afterSettled_drive hI (hI.post (toSettled_drive hI (endWait_drive hI hs)) _)

theorem abortToSafe_drive (hI : DriveInvariant I) (hs : I s) : I (abortToSafe s) :=
  enterRamping_drive hI _ (hI.seq (endWait_drive hI (hI.acts hs (forBoth_acts (fun _ _ h => cancelClaim_acts _ h rfl rfl) .refl))) _ rfl)

theorem runningUpdate_drive (hI : DriveInvariant I) (hs : I s) : I (runningUpdate s) := by
  unfold runningUpdate
  split
  · exact hs
  next d hd =>
    split
    · split
      next v hv => exact hI.speed hs hd hv
      · exact hs
    · split
      · split
        next v hv => exact hI.mixing hs hd hv
        · exact hs
      · exact hs

theorem updateCandidate_drive (hI : DriveInvariant I) (m : Mode) (hs : I s) : I (updateCandidate m s) :=
  hI.ite (hI.seq hs _ rfl) (hI.seq hs _ rfl)

theorem desireAgainst_drive (hI : DriveInvariant I) (x : Transition) (hs : I s) : I (desireAgainst x s) := by
  unfold desireAgainst; split
  · exact hs
  · exact hI.ite hs (hI.ite (abortToSafe_drive hI hs) (hI.ite hs (afterSettled_drive hI (cancelTransition_drive hI hs))))

theorem takeRecord_drive (hI : DriveInvariant I) (hs : I s) : I (takeRecord s) := by
  unfold takeRecord; split
  · exact hs
  next m _ =>
    have hc := updateCandidate_drive hI m hs
    refine hI.ite hs ?_
    dsimp only
    split
    · exact startTest_drive hI (runningUpdate_drive hI hc)
    · exact hc
    · exact desireAgainst_drive hI _ hc
    · exact hc

theorem leaveNow_drive (hI : DriveInvariant I) (m : Mode) (hs : I s) : I (leaveNow m s) := by
  have hc : I (clearCandidate (s.setSeq { s.seq with forcedPending := none })) := hI.seq (hI.seq hs _ rfl) _ rfl
  exact hI.ite (beginTransition_drive hI _ _ hc) (afterSettled_drive hI hc)

theorem leaveLater_drive (hI : DriveInvariant I) (m : Mode) (hs : I s) : I (leaveLater m s) := hI.seq (hI.seq hs _ rfl) _ rfl

theorem forceLeave_drive (hI : DriveInvariant I) (m : Mode) (hs : I s) : I (forceLeave m s) := by
  have hWaiting : I (if s.seq.mode = some m then leaveNow m (endWait (cancelRequest s))
      else if targetOf s = some m then afterSettled (clearCandidate (cancelTransition s)) else s) :=
    hI.ite (leaveNow_drive hI m (endWait_drive hI (cancelRequest_drive hI hs)))
      (hI.ite (afterSettled_drive hI (hI.seq (cancelTransition_drive hI hs) _ rfl)) hs)
  unfold forceLeave
  refine hI.ite hs ?_
  dsimp only
  split
  · exact hI.ite (leaveNow_drive hI m hs) hs
  · exact hWaiting
  · exact hWaiting
  · exact hI.ite (leaveLater_drive hI m hs) hs
  · exact hI.ite (leaveLater_drive hI m hs) hs
  · exact hs

theorem linkLost_drive (hI : DriveInvariant I) (hs : I s) : I (linkLost s) :=
  hI.ite (forceLeave_drive hI _ (forceLeave_drive hI _ hs)) (forceLeave_drive hI _ (forceLeave_drive hI _ hs))

theorem enterMode_drive (hI : DriveInvariant I) (m : Mode) (hs : I s) : I (enterMode m s) := by
  have h1 := hI.seq hs { s.seq with dwellStart := some s.now, dwellTimer := some (s.now + secs s.cfg.decision.tDWELL) } rfl
  exact hI.post (setMode_drive hI m h1) _

theorem defrostTimers_drive (hI : DriveInvariant I) (old : Option Mode) (m : Mode) (hs : I s) : I (defrostTimers old m s) :=
  hI.ite (hI.seq hs _ rfl) (hI.ite (hI.seq hs _ rfl) hs)

theorem rampCompleted_drive (hI : DriveInvariant I) (m : Mode) (hs : I s) : I (rampCompleted m s) := by
  unfold rampCompleted; dsimp only
  have hReleased := releaseUnneeded_drive hI (some m) (hI.ite (c := s.seq.mode = some m) hs (enterMode_drive hI m hs))
  have hSettled := toSettled_drive hI (hI.ite (c := s.seq.mode = some m) hReleased (defrostTimers_drive hI s.seq.mode m hReleased))
  split
  · exact leaveNow_drive hI _ hSettled
  · exact afterSettled_drive hI hSettled

theorem takeCompletion_drive (hI : DriveInvariant I) (n : Nat) (hs : I s) : I (takeCompletion n s) := by
  unfold takeCompletion; split
  · exact hs
  · exact hI.ite (rampCompleted_drive hI _ hs) hs

theorem reportOnce_drive (hI : DriveInvariant I) (hs : I s) : I (reportOnce s) :=
  hI.ite (takeCompletion_drive hI _ (hI.out hs _ ⟨rfl, rfl, rfl, rfl, rfl⟩)) hs

theorem settleRamps_drive (hI : DriveInvariant I) (hs : I s) : I (settleRamps s) := by
  suffices h : ∀ n s, I s → I (reportAll n s) from h 8 s hs
  intro n
  induction n with
  | zero => exact fun _ h => h
  | succ n ih => exact fun s h => hI.ite (ih _ (reportOnce_drive hI h)) h

theorem takeClaimReports_drive (hI : DriveInvariant I) (l : List ClaimReport) (hs : I s) : I (takeClaimReports l s) := by
  induction l generalizing s with
  | nil => exact hs
  | cons x rest ih =>
    refine ih ?_
    unfold takeClaimReport
    refine hI.ite hs ?_
    dsimp only
    split
    · split
      · exact enterWaitOrRamp_drive hI _ _ hs
      · exact hs
    · split
      · exact abandon_drive hI _ hs
      · exact hs
    · exact forceLeave_drive hI _ hs
    · exact hs
    · exact startTest_drive hI hs

theorem reported_drive (hI : DriveInvariant I) {x : Reported} (hs : I s) (h : ReportedActs Part.aside s x) : I (reported x) :=
  takeClaimReports_drive hI _ (hI.acts hs h)

theorem takePeerReports_drive (hI : DriveInvariant I) (l : List PeerReport) (hs : I s) : I (takePeerReports l s) := by
  have hTest : ∀ {u}, I u → I (waitTest u) := fun {u} hu => by
    unfold waitTest; split
    · exact hI.ite (enterRamping_drive hI _ hu) hu
    · exact hu
  induction l generalizing s with
  | nil => exact hs
  | cons x rest ih =>
    refine ih ?_
    unfold takePeerReport
    refine hI.ite hs ?_
    cases x with
    | updated a => exact hI.ite (hTest hs) hs
    | gone a => exact hI.ite (hTest (hI.seq hs _ rfl)) hs

/-! ## FIRE and the Sequencer (R51 to R54) -/

theorem suspend_drive (hI : DriveInvariant I) (hs : I s) : I (suspend s) :=
  hI.ite hs (setPhase_drive hI _ (hI.seq (endWait_drive hI hs) _ rfl))

theorem dropRecord_drive (hI : DriveInvariant I) (x : Suspension) (hs : I s) : I (dropRecord x s) :=
  hI.post (hI.seq hs { s.seq with record := none } rfl) _

theorem resume_drive (hI : DriveInvariant I) (x : Suspension) (hs : I s) : I (resume x s) := by
  have h1 := hI.post (hI.seq hs { s.seq with record := none, transition := some { target := x.target, forced := x.forced } } rfl)
    (.resumed x.target)
  have hFirst := enterFirstPhase_drive hI x.target x.forced h1
  unfold resume; dsimp only; split
  · exact hI.ite (abandon_drive hI _ hFirst) hFirst
  · exact enterWaitOrRamp_drive hI _ _ h1
  · exact enterRamping_drive hI _ h1

theorem rampBack_drive (hI : DriveInvariant I) (hs : I s) : I (rampBack s) := by
  unfold rampBack; split
  · exact hs
  · exact enterRamping_drive hI _ (hI.seq hs _ rfl)

theorem releaseSettled_drive (hI : DriveInvariant I) (hs : I s) : I (releaseSettled s) := by
  have h1 := setPhase_drive hI .settled hs
  have h2 : I (match (setPhase .settled s).seq.demands with
      | none => setPhase .settled s
      | some d => postSet d (setPhase .settled s)) := by
    split
    · exact h1
    next d hd => exact hI.again h1 hd
  unfold releaseSettled; dsimp only
  refine hI.ite (exitTest_drive hI h2) ?_
  split
  · exact leaveNow_drive hI _ h2
  · exact startTest_drive hI h2

theorem resumeOrSettle_drive (hI : DriveInvariant I) (hs : I s) : I (resumeOrSettle s) := by
  unfold resumeOrSettle
  refine hI.ite hs (hI.ite ?_ ?_)
  · refine beginTransition_drive hI _ _ ?_
    split
    · exact dropRecord_drive hI _ hs
    · exact hs
  · split
    · exact releaseSettled_drive hI hs
    next x _ =>
      have hBack := rampBack_drive hI (dropRecord_drive hI x hs)
      exact hI.ite hBack (hI.ite (resume_drive hI x hs) hBack)

theorem sequencerStart_drive (hI : DriveInvariant I) (hs : I s) : I (sequencerStart s) :=
  hI.ramp .safe (hI.noDemands hs rfl)

theorem sequencerRestart_drive (hI : DriveInvariant I) (hs : I s) : I (sequencerRestart s) :=
  hI.ramp .safe (hI.seq (endWait_drive hI hs) _ rfl)

/-! ## The Limit Supervisor (R179 to R195) -/

theorem moveLimit_drive (hI : DriveInvariant I) (n : LimitName) (v : LimitState) (b : NoticeBody) (hs : I s) :
    I (moveLimit n v b s) := by
  have h1 := hI.limits hs (setLimit n v s.limits)
  have h2 := hI.ite (c := actionOf s.cfg n = .ignore) h1 (hI.post h1 b)
  have hGuards : ∀ {u}, I u → I (postGuards u) := fun {u} hu => by
    refine hI.ite hu ?_
    exact hI.guards (s := u.setLimits _) u.limits (hI.limits hu _)
  have hHold : ∀ {u}, I u → I (followHold u) := fun {u} hu =>
    hI.ite (startTest_drive hI (hI.limits hu _)) (hI.limits hu _)
  exact hHold (hGuards h2)

theorem judge_drive (hI : DriveInvariant I) (n : LimitName) (trip v : Int) (src : TripSource) (hs : I s) :
    I (judge n trip v src s) := by
  unfold judge; split
  · exact hI.ite (moveLimit_drive hI _ _ _ hs) hs
  · exact hI.ite (moveLimit_drive hI _ _ _ hs) hs

theorem takeEstimate_drive (hI : DriveInvariant I) (hs : I s) : I (takeEstimate s) := by
  unfold takeEstimate; split
  · exact hs
  · exact hI.ite hs (judge_drive hI _ _ _ _ hs)

theorem stallFound_drive (hI : DriveInvariant I) (hs : I s) : I (stallFound s) := moveLimit_drive hI _ _ _ (hI.limits hs _)

theorem clearStall_drive (hI : DriveInvariant I) (hs : I s) : I (clearStall s) :=
  hI.ite (hI.limits (moveLimit_drive hI _ _ _ hs) _) (moveLimit_drive hI _ _ _ hs)

theorem limitsRestart_drive (hI : DriveInvariant I) (hs : I s) : I (limitsRestart s) :=
  hI.limits (hI.noGuards (hI.limits hs _)) _

/-! ## Evaluations, the link and the start (R5 to R25, R105 to R111, R174, R203, R212, R213) -/

theorem makeRecord_drive (hI : DriveInvariant I) (hs : I s) : I (makeRecord s) := by
  have h1 := hI.acts hs (estimate_acts (P := Part.aside) .refl rfl rfl)
  exact hI.record _ _ _ h1 rfl

theorem evaluate_drive (hI : DriveInvariant I) (hs : I s) : I (evaluate s) := by
  have hSeq : ∀ {u}, I u → I (handToSequencer u) := fun hu => settleRamps_drive hI (takeRecord_drive hI hu)
  have hLim : ∀ {u}, I u → I (handToLimits u) := fun hu => settleRamps_drive hI (takeEstimate_drive hI hu)
  have hMade := makeRecord_drive hI hs
  exact hI.ite (hLim (hSeq hMade)) (hI.ite (hI.acts (hLim (hSeq hMade)) (Acts.refl.choices _ rfl))
    (hI.acts (hSeq (hLim hMade)) (Acts.refl.choices _ rfl)))

theorem requestEvaluation_drive (hI : DriveInvariant I) (hs : I s) : I (requestEvaluation s) := hI.ite (evaluate_drive hI hs) hs

theorem assertFire_drive (hI : DriveInvariant I) (hs : I s) : I (assertFire s) := by
  have h1 : I (if running s then forBoth fireProc (suspend s) else s) :=
    hI.ite (hI.acts (suspend_drive hI hs) (forBoth_acts (fun _ _ h => fireProc_acts _ h rfl rfl) .refl)) hs
  exact settleRamps_drive hI (hI.post (hI.fire h1) _)

theorem releaseFire_drive (hI : DriveInvariant I) (hs : I s) : I (releaseFire s) := by
  have h1 : I (settleRamps (outputsFireReleased s)) := settleRamps_drive hI (hI.post (hI.noFire hs) _)
  refine hI.ite (requestEvaluation_drive hI (settleRamps_drive hI (resumeOrSettle_drive hI ?_))) h1
  exact hI.acts h1 (forBoth_acts (fun _ _ h => takeWaiting_acts _ h rfl rfl) .refl)

theorem fireChanges_drive (hI : DriveInvariant I) (level : Bool) (hs : I s) : I (fireChanges level s) := by
  have h1 := hI.out hs { s.out with fireFiltered := level, fireSince := none } ⟨rfl, rfl, rfl, rfl, rfl⟩
  have h2 := hI.acts h1 (queueAlert_acts (P := Part.aside) .refl rfl)
  exact hI.ite h1 (hI.ite (assertFire_drive hI h2) (releaseFire_drive hI h2))

theorem assertIfFire_drive (hI : DriveInvariant I) (hs : I s) : I (assertIfFire s) := hI.ite (assertFire_drive hI hs) hs

theorem startBlocks_drive (hI : DriveInvariant I) (hs : I s) : I (startBlocks s) := by
  have h1 : I (linkStart s) := hI.acts hs (linkStart_acts (P := Part.aside) .refl rfl)
  have h2 := hI.decision h1 { (linkStart s).decision with timer := evalFromNow (linkStart s) } rfl
  unfold startBlocks
  refine settleRamps_drive hI (sequencerStart_drive hI (hI.acts h2 ?_))
  exact ((Acts.refl.claims _ rfl fun _ => claimsSound_start _).band _ rfl).peers _ rfl fun h => h

theorem closeConfig_drive (hI : DriveInvariant I) (hs : I (recast (closeChecks s.cfg).1 true s)) : I (closeConfig s) := by
  unfold closeConfig
  refine hI.reply (hI.acts (assertIfFire_drive hI (startBlocks_drive hI hs)) (postAll_acts _ .refl rfl)) _ _

theorem acceptRestart_drive (hI : DriveInvariant I) (hs : I s) : I (acceptRestart s) := by
  have h1 := hI.acts hs (forBoth_acts (f := restartProc) (P := Part.aside) (fun _ _ h => restartProc_acts _ h rfl rfl)
    ((Acts.refl.restarting true rfl).link (linkRestart s.link) rfl (by simp)))
  have h2 := hI.decision h1 { (forBoth restartProc _).decision with timer := none } rfl
  exact settleRamps_drive hI (sequencerRestart_drive hI (hI.noManuals (hI.acts h2 (Acts.refl.band _ rfl))))

theorem completeRestart_drive (hI : DriveInvariant I) (hs : I s) : I (completeRestart s) := by
  have h1 := hI.acts hs (portRestart_acts (P := Part.aside) .refl rfl rfl)
  have h2 := hI.decision h1 { (portRestart s).decision with setpoint := none, timer := evalFromNow (portRestart s) } rfl
  have h3 := hI.acts h2 (((Acts.refl.peers { records := [], lastFull := none } rfl fun _ => peersSound_nil rfl).claims
    (claimsStart s.cfg) rfl fun _ => claimsSound_start _).band { Band.reset with source := s.cfg.band.source } rfl)
  exact assertIfFire_drive hI (settleRamps_drive hI (hI.acts (sequencerStart_drive hI (limitsRestart_drive hI h3))
    ((linkRestarted_acts .refl rfl).restarting false rfl)))

theorem finishRestart_drive (hI : DriveInvariant I) (hs : I s) : I (finishRestart s) := hI.ite (completeRestart_drive hI hs) hs

theorem enterOffline_drive (hI : DriveInvariant I) (hs : I s) : I (enterOffline s) := by
  refine settleRamps_drive hI (linkLost_drive hI (hI.acts hs ?_))
  exact disturbFrom_acts _ (Acts.refl.link _ rfl (by simp)) rfl

theorem enterQuiet_drive (hI : DriveInvariant I) (k : FrameKind) (hs : I s) : I (enterQuiet k s) := by
  refine settleRamps_drive hI (reported_drive hI hs ?_)
  exact thenReport_acts (quietProc_acts _ (disturbFrom_acts _ ((Acts.refl.link _ rfl (by simp)).post _ rfl) rfl) rfl rfl rfl)
    fun _ h => quietProc_acts _ h rfl rfl rfl

theorem enterClashed_drive (hI : DriveInvariant I) (k : FrameKind) (shaft : Nat) (hs : I s) : I (enterClashed k shaft s) := by
  refine settleRamps_drive hI (linkLost_drive hI (reported_drive hI hs ?_))
  exact thenReport_acts (clashProc_acts _ (disturbFrom_acts _ ((Acts.refl.link _ rfl (by simp)).post _ rfl) rfl) rfl)
    fun _ h => clashProc_acts _ h rfl

theorem handToClaims_drive (hI : DriveInvariant I) (a : Nat) (b : FrameBody) (hs : I s) : I (handToClaims a b s) := by
  unfold handToClaims
  cases b with
  | claim m => exact settleRamps_drive hI (reported_drive hI hs (takeClaimFrame_acts _ _ _ .refl rfl rfl))
  | beacon x =>
    exact settleRamps_drive hI (reported_drive hI hs (thenReport_acts (takeBeaconClaims_acts _ _ _ .refl rfl rfl)
      fun _ h => takeFire_acts _ _ h rfl rfl rfl))
  | alert x => exact hI.acts hs (takeFire_acts _ _ .refl rfl rfl rfl)

theorem handToFilters_drive (hI : DriveInvariant I) (a shaft : Nat) (b : FrameBody) (hs : I s) : I (handToFilters a shaft b s) := by
  unfold handToFilters
  cases b with
  | claim m => exact hs
  | beacon x =>
    exact hI.ite (settleRamps_drive hI (takePeerReports_drive hI _ (hI.acts hs (peerBeacon_acts _ _ _ .refl rfl rfl)))) hs
  | alert x => exact hI.ite (hI.acts hs (peerAlert_acts _ _ .refl rfl)) hs

theorem receiveFrame_drive (hI : DriveInvariant I) (f : LineFrame) (hs : I s) : I (receiveFrame f s) := by
  have hNumbered : I (numberFrame s) := hI.acts hs (numberFrame_acts .refl rfl)
  have hHanded : ∀ x, I (handOn x (numberFrame s)) := fun x => by
    unfold handOn; split
    · exact hNumbered
    · exact hI.ite (handToFilters_drive hI _ _ _ (handToClaims_drive hI _ _ hNumbered)) (handToFilters_drive hI _ _ _ hNumbered)
  unfold receiveFrame; split
  · exact hs
  · exact hI.ite (hI.ite (hI.ite hNumbered (enterClashed_drive hI _ _ hNumbered)) (hI.ite hNumbered (hHanded _))) hs

theorem transmitted_drive (hI : DriveInvariant I) (hs : I s) : I (transmitted s) := by
  unfold transmitted; split
  · exact hs
  · exact settleRamps_drive hI (reported_drive hI hs
      (takeOwnFrame_acts _ _ (followUp_acts _ _ _ (Acts.refl.number _ rfl) rfl) rfl rfl))

theorem transmitFailed_drive (hI : DriveInvariant I) (hs : I s) : I (transmitFailed s) := by
  unfold transmitFailed; split
  · exact hs
  · exact hI.ite (enterQuiet_drive hI _ hs) (hI.acts hs (Acts.refl.number _ rfl))

/-! ## Every command -/

theorem admit_drive (hI : DriveInvariant I) {f : State → State} (hs : I s) (hf : I (f s)) : I (admitOperating f s) :=
  hI.ite (hI.reply hs _ _) (hI.ite (hI.reply hs _ _) hf)

theorem writeMeas_drive (hI : DriveInvariant I) (ch : MeasChannel) (v : Option Int) (hs : I s) : I (writeMeas ch v s) := by
  unfold writeMeas
  cases v with
  | none =>
    have hStored : I (storeNone ch s) := hI.acts hs (Acts.refl.meas _ rfl)
    have hVerdict : I (clearVerdict (storeNone ch s)) := hI.ite (hI.acts hStored (Acts.refl.band _ rfl)) hStored
    refine hI.reply ?_ _ _
    cases ch with
    | probeT | probeW => exact hVerdict
    | _ => exact hStored
  | some x =>
    have hStored : I (storeValue ch x s) := hI.acts hs (Acts.refl.meas _ rfl)
    refine hI.reply (settleRamps_drive hI ?_) _ _
    cases ch with
    | supplyT => exact judge_drive hI _ _ _ _ hStored
    | exhaustT => exact judge_drive hI _ _ _ _ hStored
    | _ => exact hStored

/-- Such an invariant is kept by every command, if power-on meets it and it survives what CFG WRITE and CFG CLOSE do to the
configuration before close. -/
theorem exec_drive (hI : DriveInvariant I) (c : Instr) (hOn : I (powerOn s))
    (hWrite : ∀ w x, s.port.closed = false → storeItem s.cfg w = some x → I (recast x.1 false s))
    (hClose : s.port.closed = false → I (recast (closeChecks s.cfg).1 true s)) (hs : I s) (h : exec c s = .next t) : I t := by
  have hActs : ∀ {u}, Acts Part.aside s u → I u := fun hu => hI.acts hs hu
  cases c <;> cases h
  case powerOnReset => exact hOn
  case transactionDiscarded | badCommand | statusRead | identRead => exact hActs (Acts.refl.reply _ rfl)
  case cfgWrite w =>
    by_cases hc : s.port.closed = true
    · exact hI.ite (hI.reply hs _ _) (by rw [if_pos hc]; exact hI.reply hs _ _)
    · refine hI.ite (hI.reply hs _ _) ?_
      rw [if_neg hc]
      have hOpen : s.port.closed = false := by simpa using hc
      split
      next c k hk =>
        have := hWrite w _ hOpen hk
        rw [← hOpen] at this
        exact hI.reply this _ _
      · exact hI.reply hs _ _
  case cfgRead item => split <;> exact hI.reply hs _ _
  case cfgClose =>
    by_cases hc : s.port.closed = true
    · rw [if_pos hc]; exact hI.reply hs _ _
    · rw [if_neg hc]; exact hI.ite (hI.reply hs _ _) (closeConfig_drive hI (hClose (by simpa using hc)))
  case measWrite ch v =>
    refine hI.ite (hI.reply hs _ _) ?_
    cases ch with
    | none => exact hI.reply hs _ _
    | some ch => exact writeMeas_drive hI ch v hs
  case setpointWrite v => exact admit_drive hI hs (hI.reply
    (hI.decision hs { s.decision with setpoint := some (setpointClamp v) } rfl) _ _)
  case sourceSelect src =>
    refine admit_drive hI hs ?_
    cases src with
    | none => exact hI.reply hs _ _
    | some x => exact hI.ite (hActs (Acts.reply _ (Acts.refl.band _ rfl) rfl)) (hI.reply hs _ _)
  case manualPost ch position duration =>
    refine admit_drive hI hs ?_
    cases ch with
    | none => exact hI.reply hs _ _
    | some ch =>
      by_cases hOk : manualOk position duration = true
      · have hLow : position ≤ 1000 := by
          simp only [manualOk, Bool.and_eq_true, decide_eq_true_eq] at hOk
          exact hOk.1.1
        dsimp only
        rw [if_neg (by simp [hOk])]
        exact hI.ite (hI.reply hs _ _) (hI.reply (settleRamps_drive hI (hI.manual ch _ hs fun x hx => by cases hx; exact hLow)) _ _)
      · dsimp only
        rw [if_pos (by simpa using hOk)]
        exact hI.reply hs _ _
  case manualCancel ch =>
    refine admit_drive hI hs ?_
    cases ch with
    | none => exact hI.reply hs _ _
    | some ch => exact hI.ite (hI.reply hs _ _) (hI.reply (settleRamps_drive hI (hI.manual ch none hs nofun)) _ _)
  case limitClear =>
    exact admit_drive hI hs (hI.ite (hI.reply hs _ _) (hI.reply (settleRamps_drive hI (clearStall_drive hI hs)) _ _))
  case linkOn =>
    refine hI.ite (hActs (Acts.reply _ (Acts.refl.link _ rfl rfl) rfl)) (hI.ite (hI.reply hs _ _) (hI.ite ?_ (hI.reply hs _ _)))
    exact hI.reply (settleRamps_drive hI (startTest_drive hI (hActs (enterJoining_acts .refl rfl)))) _ _
  case linkOff =>
    refine hI.ite (hActs (Acts.reply _ (Acts.refl.link _ rfl rfl) rfl)) (hI.ite (hI.reply hs _ _) (hI.ite (hI.reply hs _ _)
      (hI.ite (hI.reply hs _ _) (hI.ite (hI.reply hs _ _) ?_))))
    exact hI.reply (enterOffline_drive hI hs) _ _
  case evalRead => exact hActs (admitClosed_acts .refl rfl (Acts.refl.reply _ rfl))
  case peerRead i => exact hActs (admitClosed_acts .refl rfl (answerPeer_acts i .refl rfl))
  case claimRead i => exact hActs (admitClosed_acts .refl rfl (answerClaim_acts i .refl rfl))
  case noticePop => exact hActs (popNotice_acts .refl rfl rfl)
  case restart => exact admit_drive hI hs (finishRestart_drive hI (hI.reply (acceptRestart_drive hI hs) _ _))
  case restartCompletion => exact finishRestart_drive hI hs
  case evalTimerExpiry => exact hI.ite (evaluate_drive hI (hI.decision hs _ rfl)) hs
  case bandHoldExpiry => exact hI.ite (hActs (loseBand_acts .refl rfl rfl)) hs
  case slewStep ch => exact hI.ite (settleRamps_drive hI (hI.slew ch hs)) hs
  case dwellExpiry => exact hI.ite (settleRamps_drive hI (startTest_drive hI (hI.seq hs _ rfl))) hs
  case defrostCycleExpiry => exact hI.ite (settleRamps_drive hI (exitTest_drive hI (hI.seq hs _ rfl))) hs
  case followTimeout =>
    refine hI.ite ?_ hs
    unfold followGivenUp; split
    · exact settleRamps_drive hI (enterRamping_drive hI _ (hI.post hs _))
    · exact hs
  case firePinChange level => exact hI.out (hActs (Acts.refl.firePin level rfl)) _ ⟨rfl, rfl, rfl, rfl, rfl⟩
  case fireFilterExpiry => exact hI.ite (fireChanges_drive hI _ hs) hs
  case frameReceived f => exact receiveFrame_drive hI f hs
  case receiveError => exact hActs (receiveFault_acts .refl rfl)
  case transmitAttemptStart => exact hActs (beginTransmit_acts .refl rfl)
  case transmitSuccess => exact transmitted_drive hI hs
  case waitingRequestTaken x => exact hI.ite (hActs (takeWaiting_acts x .refl rfl rfl)) hs
  case deferredIntentQueue x => exact hI.ite (hActs (queueIntent_acts x .refl rfl)) hs
  case arbitrationLost => exact hActs (Acts.refl.number _ rfl)
  case transmitFailure => exact transmitFailed_drive hI hs
  case quietTimerExpiry => exact hI.ite (hActs (leaveQuiet_acts .refl rfl rfl)) hs
  case joiningTimerExpiry =>
    refine hI.ite (requestEvaluation_drive hI (hActs (queueBeacon_acts (Acts.refl.number _ rfl) rfl))) hs
  case beaconTimerExpiry => exact hI.ite (hActs (beaconPeriod_acts .refl rfl)) hs
  case claimHoldoffExpiry x =>
    exact hI.ite (settleRamps_drive hI (reported_drive hI hs (decideAttempt_acts x .refl rfl rfl rfl))) hs
  case backoffExpiry x =>
    exact hI.ite (hActs (ite_acts (toIdle_acts _ _ .refl rfl) (beginAttempt_acts _ _ .refl rfl rfl))) hs
  case lockoutExpiry x =>
    exact hI.ite (settleRamps_drive hI (takeClaimReports_drive hI _ (hActs (toIdle_acts _ _ .refl rfl)))) hs
  case claimRecordExpiry a x => exact hI.ite (hActs (removeRecord_acts a x .refl rfl)) hs
  case fireSetExpiry a => exact hI.ite (hActs (fireGone_acts a .refl rfl rfl rfl)) hs
  case peerStale a =>
    exact hI.ite (settleRamps_drive hI (takePeerReports_drive hI _ (hActs (peerGoesStale_acts a .refl rfl)))) hs
  case peerLost a =>
    exact hI.ite (settleRamps_drive hI (takePeerReports_drive hI _ (hActs (losePeer_acts a _ .refl rfl rfl)))) hs
  case measurementStale ch => exact hI.ite (hActs (lapse_acts ch .refl rfl rfl)) hs
  case manualExpired ch =>
    split
    · exact settleRamps_drive hI (hI.manual ch none (hI.post hs _) nofun)
    · exact hs
  case stallTimerExpiry => exact hI.ite (settleRamps_drive hI (stallFound_drive hI hs)) hs
  case rotPinChange level => exact hActs (Acts.limits _ (Acts.refl.rotPin level rfl) rfl)
  case rotFilterExpiry =>
    refine hI.ite (hActs ?_) hs
    exact ite_acts (rotationPulse_acts (Acts.refl.limits _ rfl) rfl) (Acts.refl.limits _ rfl)

end

end Sys2Proof.Machine
end

section
/-! PROOF. The station before close and the notice queue (R28, R105, R162, R201, R208, R210, R212). -/

namespace Sys2Proof.Machine

/-! ## Before close nothing is due and nothing is taken (R28, R94, R197) -/

theorem running_of_open {s : State} (h : s.port.closed = false) : running s = false := by simp [running, h]

theorem processing_of_open {s : State} (h : s.port.closed = false) : processing s = false := by simp [processing, h]

/-- No source has a demand on an Output Unit that stands at its power-on values. -/
theorem aim_of_reset (c : Settings) (f : Bool) (x : Option Time) (ch : Channel) :
    aim c { OutputUnit.reset with fireFiltered := f, fireSince := x } ch = none := by cases ch <;> rfl

theorem heading_of_no_aim {c : Settings} {o : OutputUnit} {ch : Channel} (h : aim c o ch = none) : heading c o ch = 0 := by
  rw [heading, h]

theorem admitOperating_of_open {s : State} (h : s.port.closed = false) (f : State → State) :
    admitOperating f s = refuse .notClosed s := by simp [admitOperating, h]

theorem admitClosed_of_open {s : State} (h : s.port.closed = false) (f : State → State) :
    admitClosed f s = refuse .notClosed s := by simp [admitClosed, h]

theorem receiveFrame_of_open {s : State} (h : s.port.closed = false) (f : LineFrame) : receiveFrame f s = s := by
  unfold receiveFrame; split
  · rfl
  · rw [processing_of_open h]; rfl

theorem beginTransmit_of_open {s : State} (h : s.port.closed = false) : beginTransmit s = s := by
  simp [beginTransmit, attemptReady, h]

/-- The link, the stores and the demands of a station that is open: nothing of them can become due. -/
structure OpenAndQuiet (s : State) : Prop where
  running : running s = false
  headings : ∀ ch, heading s.cfg s.out ch = 0
  manual : s.out.manual = ⟨none, none, none⟩
  attempt : s.link.attempt = none
  offline : s.link.state = .offline
  beaconTimer : s.link.beaconTimer = none
  list : s.claims.list = []
  fireSet : s.claims.fireSet = []
  peers : s.peers.records = []
  meas : s.port.meas = .empty
  notices : s.port.notices = []
  stallTimer : s.limits.stallTimer = none

theorem BeforeClose.quiet {s : State} (hs : BeforeClose s) (ho : s.port.closed = false) : OpenAndQuiet s := by
  obtain ⟨-, hMeas, hNotices, -, -, hLink, hPeers, -, -, hClaims, -, hOut, hLimits⟩ := hs ho
  have hAim : ∀ ch, aim s.cfg s.out ch = none := fun ch => by rw [hOut]; exact aim_of_reset ..
  exact {
    running := running_of_open ho
    headings := fun ch => heading_of_no_aim (hAim ch)
    manual := by rw [hOut]; rfl
    attempt := by rw [hLink]; rfl
    offline := by rw [hLink]; rfl
    beaconTimer := by rw [hLink]; rfl
    list := by rw [hClaims]; rfl
    fireSet := by rw [hClaims]; rfl
    peers := by rw [hPeers]; rfl
    meas := hMeas
    notices := hNotices
    stallTimer := by rw [hLimits]; rfl }

theorem beforeClose_of_closed {s : State} (h : s.port.closed = true) : BeforeClose s := fun ho => absurd (h.symm.trans ho) (by decide)

theorem beforeClose_powerOn (s : State) : BeforeClose (powerOn s) :=
  fun _ => ⟨rfl, rfl, rfl, rfl, rfl, rfl, rfl, rfl, rfl, rfl, rfl, rfl, rfl⟩

/-- The rotation monitor counts a pulse before close and starts no stall timer (R190 to R193). -/
theorem rotChanges_beforeClose {s : State} (hs : BeforeClose s) (hOpen : s.port.closed = false) : BeforeClose (rotChanges s) := by
  obtain ⟨hRestart, hMeas, hNotices, hOver, hAttn, hLink, hPeers, hBand, hDecision, hClaims, hSeq, hOut, hLimits⟩ := hs hOpen
  have hKeep : ∀ l : Limits, l = { Limits.reset with
      rotFiltered := l.rotFiltered, rotSince := l.rotSince, ring := l.ring
      revCount := l.revCount, revPeriod := l.revPeriod, lastWrap := l.lastWrap } → BeforeClose (s.setLimits l) :=
    fun l hl _ => ⟨hRestart, hMeas, hNotices, hOver, hAttn, hLink, hPeers, hBand, hDecision, hClaims, hSeq, hOut, hl⟩
  unfold rotChanges rotationPulse
  dsimp only
  split
  · split
    · exact hKeep _ (by rw [hLimits]; rfl)
    · exact hKeep _ (by rw [hLimits]; rfl)
  · exact hKeep _ (by rw [hLimits])

/-- A FIRE filter that expires before close hands its level to no block (R173, R174). -/
theorem fireChanges_of_open {s : State} (hOpen : s.port.closed = false) (level : Bool) :
    fireChanges level s = s.setOut { s.out with fireFiltered := level, fireSince := none } := by
  simp [fireChanges, hOpen]

theorem popNotice_beforeClose {s : State} (hs : BeforeClose s) (hEmpty : s.port.notices = []) : BeforeClose (popNotice s) := by
  rw [popNotice_of_empty hEmpty]
  intro hOpen
  obtain ⟨hRestart, hMeas, -, -, -, hRest⟩ := hs hOpen
  exact ⟨hRestart, hMeas, rfl, rfl, rfl, hRest⟩

theorem linkWish_beforeClose {s : State} (hs : BeforeClose s) (b : Bool) : BeforeClose (s.setLink { s.link with offlineWish := b }) := by
  intro hOpen
  obtain ⟨hRestart, hMeas, hNotices, hOver, hAttn, hLink, hRest⟩ := hs hOpen
  exact ⟨hRestart, hMeas, hNotices, hOver, hAttn, by rw [State.setLink_link, hLink], hRest⟩

theorem fireFilter_beforeClose {s : State} (hs : BeforeClose s) (b : Bool) (x : Option Time) :
    BeforeClose (s.setOut { s.out with fireFiltered := b, fireSince := x }) := by
  intro hOpen
  obtain ⟨hRestart, hMeas, hNotices, hOver, hAttn, hLink, hPeers, hBand, hDecision, hClaims, hSeq, hOut, hLimits⟩ := hs hOpen
  exact ⟨hRestart, hMeas, hNotices, hOver, hAttn, hLink, hPeers, hBand, hDecision, hClaims, hSeq,
    by rw [State.setOut_out, hOut], hLimits⟩

theorem rotFilter_beforeClose {s : State} (hs : BeforeClose s) (x : Option Time) :
    BeforeClose (s.setLimits { s.limits with rotSince := x }) := by
  intro hOpen
  obtain ⟨hRestart, hMeas, hNotices, hOver, hAttn, hLink, hPeers, hBand, hDecision, hClaims, hSeq, hOut, hLimits⟩ := hs hOpen
  exact ⟨hRestart, hMeas, hNotices, hOver, hAttn, hLink, hPeers, hBand, hDecision, hClaims, hSeq, hOut,
    by rw [State.setLimits_limits, hLimits]⟩

/-- The events of a station that is open: the filters of its pins run on, and no other event is due (R94, R173, R190). -/
theorem event_beforeClose {c : Instr} {s t : State} (hs : BeforeClose s) (hOpen : s.port.closed = false) (h : exec c s = .next t) :
    t = s ∨ BeforeClose t := by
  have hq := hs.quiet hOpen
  have hrun := hq.running
  cases c <;> cases h
  case powerOnReset => exact .inr (beforeClose_powerOn s)
  case transactionDiscarded | badCommand | statusRead | identRead => exact .inr hs
  case cfgRead item => right; split <;> exact hs
  case cfgWrite w =>
    right
    split
    · exact hs
    · rw [if_neg (by simp [hOpen])]
      split <;> exact hs
  case cfgClose =>
    right
    rw [if_neg (by simp [hOpen])]
    split
    · exact hs
    · exact beforeClose_of_closed (closeConfig_acts s whole_any).closed
  case setpointWrite | sourceSelect | manualPost | manualCancel | limitClear | restart =>
    right; rw [admitOperating_of_open hOpen]; exact hs
  case measWrite | evalRead | peerRead | claimRead => right; rw [admitClosed_of_open hOpen]; exact hs
  case linkOn | linkOff => right; rw [if_pos (by simp [hOpen])]; exact linkWish_beforeClose hs _
  case noticePop => exact .inr (popNotice_beforeClose hs hq.notices)
  case restartCompletion => left; simp [finishRestart, restartDone, hOpen]
  case evalTimerExpiry => left; simp [evalDue, hrun]
  case bandHoldExpiry => left; simp [bandHoldDue, hrun]
  case slewStep ch => left; simp [slewDue, hq.headings]
  case dwellExpiry => left; simp [dwellDue, hrun]
  case defrostCycleExpiry => left; simp [defrostDue, hrun]
  case followTimeout => left; simp [followDue, hrun]
  case firePinChange level => exact .inr (fireFilter_beforeClose (s := s.setFirePin level) hs _ _)
  case fireFilterExpiry =>
    right; split
    · rw [fireChanges_of_open hOpen]; exact fireFilter_beforeClose hs _ _
    · exact hs
  case frameReceived f => exact .inl (receiveFrame_of_open hOpen f)
  case receiveError => left; simp [receiveFault, processing_of_open hOpen]
  case transmitAttemptStart => exact .inl (beginTransmit_of_open hOpen)
  case transmitSuccess => left; simp [transmitted, hq.attempt]
  case waitingRequestTaken x => left; simp [waitingDue, hrun]
  case deferredIntentQueue x => left; simp [intentDue, hrun]
  case arbitrationLost => left; simp [abortAttempt, hq.attempt]; rfl
  case transmitFailure => left; simp [transmitFailed, hq.attempt]
  case quietTimerExpiry => left; simp [quietDue, hq.offline]
  case joiningTimerExpiry => left; simp [joiningDue, hq.offline]
  case beaconTimerExpiry => left; simp [beaconDue, hq.beaconTimer, due]
  case claimHoldoffExpiry x => left; simp [procDue, hrun]
  case backoffExpiry x => left; simp [procDue, hrun]
  case lockoutExpiry x => left; simp [procDue, hrun]
  case claimRecordExpiry a x => left; simp [recordAged, findRecord, hq.list]
  case fireSetExpiry a => left; simp [fireAged, hq.fireSet]
  case peerStale a => left; simp [staleDue, findPeer, hq.peers]
  case peerLost a => left; simp [lostDue, findPeer, hq.peers]
  case measurementStale ch => left; rw [if_neg]; cases ch <;> simp [lapseDue, hq.meas, MeasStore.empty, measOf, Meas.empty]
  case manualExpired ch => left; cases ch <;> simp [expiredManual, hq.manual, chGet]
  case stallTimerExpiry => left; simp [stallDue, hq.stallTimer, due]
  case rotPinChange level => exact .inr (rotFilter_beforeClose (s := s.setRotPin level) hs _)
  case rotFilterExpiry =>
    right; split
    · exact rotChanges_beforeClose hs hOpen
    · exact hs

/-- Every command leaves the station quiet while it is open. -/
theorem exec_beforeClose (c : Instr) (s t : State) (hs : BeforeClose s) (h : exec c s = .next t) : BeforeClose t := by
  by_cases hOpen : s.port.closed = false
  · rcases event_beforeClose hs hOpen h with rfl | ht
    · exact hs
    · exact ht
  · by_cases hOn : c = .powerOnReset
    · subst hOn; cases h; exact beforeClose_powerOn s
    · obtain ⟨u, cfg, closed, hu, hClosed, hActs⟩ := exec_recast_acts whole_any hOn (.inl rfl) (.inl rfl) s
      cases h.symm.trans hu
      exact beforeClose_of_closed (hActs.closed.trans (hClosed (by simpa using hOpen)).2)

theorem tick_beforeClose {s : State} (hs : BeforeClose s) : BeforeClose (tick s) := by
  rw [tick_eq]
  intro hOpen
  have hq := hs.quiet hOpen
  have hRaised : (⟨raised s .oda, raised s .byp, raised s .whl⟩ : PerChannel Nat) = s.out.acc := by
    simp [raised, hq.headings, chGet]
  rw [hRaised]
  exact hs hOpen

/-- Settles O6: no command but a close leaves a state of the open station, and no event of it is due. -/
theorem stationIsQuietBeforeClose : Obligations.StationIsQuietBeforeClose := fun _ _ hs h =>
  step_keeps (I := BeforeClose) (fun _ _ h => h) (fun _ _ h => h) (fun _ => tick_beforeClose)
    exec_beforeClose hs h

/-! ## The notice queue (R201, R208, R210, R212) -/

theorem noticesSound_of_beforeClose {s : State} (hs : BeforeClose s) (hOpen : s.port.closed = false) : NoticesSound s.port := by
  obtain ⟨hRestart, -, hNotices, -, hAttn, -⟩ := hs hOpen
  exact ⟨by simp [hNotices], by rw [hAttn, hNotices]; rfl, fun h => absurd (hRestart.symm.trans h) (by decide)⟩

/-- Settles O7: an open station's queue is empty, and acts keep the queue of a closed one. -/
theorem noticeQueueStaysSound : Obligations.NoticeQueueStaysSound := by
  intro s t hBefore hs h
  refine (step_keeps (I := fun s => BeforeClose s ∧ NoticesSound s.port) (fun _ _ h => h) (fun _ _ h => h)
    (fun s h => ⟨tick_beforeClose h.1, by rw [tick_eq]; exact h.2⟩) (fun c s t hs h => ?_) ⟨hBefore, hs⟩ h).2
  obtain ⟨hBefore, hs⟩ := hs
  have ht := exec_beforeClose c s t hBefore h
  refine ⟨ht, ?_⟩
  by_cases hOpen : t.port.closed = false
  · exact noticesSound_of_beforeClose ht hOpen
  obtain ⟨u, hu, rfl | ⟨cfg, closed, hClosed, hActs⟩⟩ := exec_cases c s <;> cases h.symm.trans hu
  · exact absurd rfl hOpen
  · obtain ⟨hLength, hAttn, -⟩ := hs
    have hStart : s.port.attn = attnOf cfg.attnMask s.port.notices := by
      by_cases hc : s.port.closed = true
      · rw [(hClosed hc).1]; exact hAttn
      · obtain ⟨-, -, hNotices, -, hAttn, -⟩ := hBefore (by simpa using hc)
        rw [hAttn, hNotices]; rfl
    obtain ⟨hLength', hAttn'⟩ := hActs.queueSound hLength hStart
    exact ⟨hLength', hAttn', fun _ => by simpa using hOpen⟩

end Sys2Proof.Machine
end

section
/-! PROOF. The channels that jump stand at their demands, and outputs and demands stay in 0 to 1000 per-mille (R161, R164 to R167). -/

namespace Sys2Proof.Machine

/-! ## What a channel's aim rests on (R164, R165) -/

theorem demandOf_congr {a b : OutputUnit} (h : SameDrive a b) (ch : Channel) (src : DemandSource) :
    demandOf a ch src = demandOf b ch src := by
  obtain ⟨-, hSet, hGuard, hManual, hFire⟩ := h
  cases src <;> simp [demandOf, hSet, hGuard, hManual, hFire]

theorem aim_congr {a b : OutputUnit} (h : SameDrive a b) (c : Settings) (ch : Channel) : aim c a ch = aim c b ch := by
  have hWinner : winner c a ch = winner c b ch := by simp only [winner, List.foldl, better, demandOf_congr h]
  have hJumps : ∀ src, jumps a ch src = jumps b ch src := fun src => by cases src <;> simp [jumps, h.guard]
  simp only [aim, hWinner, demandOf_congr h, hJumps]

/-- A channel's aim is a demand that some source has on it. -/
theorem demandOf_of_aim {c : Settings} {o : OutputUnit} {ch : Channel} {d : Nat} {j : Bool} (h : aim c o ch = some (d, j)) :
    ∃ src, demandOf o ch src = some d := by
  unfold aim at h
  split at h
  · cases h
  next src _ =>
    obtain ⟨x, hx, hd⟩ := Option.map_eq_some_iff.1 h
    cases hd
    exact ⟨src, hx⟩

theorem aim_of_open {s : State} (hs : BeforeClose s) (hOpen : s.port.closed = false) (c : Settings) (ch : Channel) :
    aim c s.out ch = none := by
  obtain ⟨-, -, -, -, -, -, -, -, -, -, -, hOut, -⟩ := hs hOpen
  rw [hOut]
  exact aim_of_reset ..

/-! ## The channels that jump (R167) -/

theorem jumpsMade_of_no_aims {s : State} (h : ∀ ch, aim s.cfg s.out ch = none) : JumpsMade s :=
  fun ch _ hv => absurd ((h ch).symm.trans hv) (by simp)

theorem jumpsMade_drive : DriveInvariant JumpsMade where
  same hs hCfg _ _ hOut ch v hv := by
    rw [hCfg, aim_congr hOut] at hv
    rw [hOut.present]
    exact hs ch v hv
  noDemands hs _ := hs
  ramp _ _ := changeDemands_jumps _ _
  speed _ _ _ := changeDemands_jumps _ _
  mixing _ _ _ := changeDemands_jumps _ _
  again _ _ := changeDemands_jumps _ _
  guards _ _ := changeDemands_jumps _ _
  noGuards _ := changeDemands_jumps _ _
  manual _ _ _ _ := changeDemands_jumps _ _
  noManuals _ := changeDemands_jumps _ _
  fire _ := changeDemands_jumps _ _
  noFire _ := changeDemands_jumps _ _
  slew ch hs := slewOnce_jumps ch hs
  record _ _ _ hs _ := hs

/-- Settles O11: demands change by `changeDemands` alone, slewing moves no channel that jumps, and an open station has no demands. -/
theorem jumpedChannelsStandAtTheirDemand : Obligations.JumpedChannelsStandAtTheirDemand := by
  intro s t hBefore hs h
  refine (step_keeps (I := fun s => BeforeClose s ∧ JumpsMade s) (fun _ _ h => h) (fun _ _ h => h)
    (fun s hs => ⟨tick_beforeClose hs.1, ?tick⟩) (fun c s t hs h => ⟨exec_beforeClose c s t hs.1 h, ?exec⟩) ⟨hBefore, hs⟩ h).2
  case tick => exact accumulate_jumps .whl (accumulate_jumps .byp (accumulate_jumps .oda (s := s.setNow (s.now + 1)) hs.2))
  case exec =>
    refine exec_drive jumpsMade_drive c (jumpsMade_of_no_aims fun ch => aim_of_reset ..) (fun w x hOpen _ => ?_) (fun hOpen => ?_) hs.2 h
    all_goals exact jumpsMade_of_no_aims fun ch => aim_of_open hs.1 hOpen _ ch

/-! ## Ranges of demands and outputs (R161) -/

theorem setInRange_iff (d : DemandSet) : SetInRange d ↔ ∀ ch, chGet d ch ≤ 1000 :=
  ⟨fun ⟨ho, hb, hw⟩ ch => by cases ch <;> assumption, fun h => ⟨h .oda, h .byp, h .whl⟩⟩

theorem atMost1000_none : AtMost1000 none := nofun

theorem atMost1000_some {v : Nat} (h : v ≤ 1000) : AtMost1000 (some v) := fun _ hx => by cases hx; exact h

theorem atMost1000_map {α : Type} {o : Option α} {f : α → Nat} (h : ∀ x, o = some x → f x ≤ 1000) : AtMost1000 (o.map f) :=
  fun _ hv => by
    obtain ⟨x, hx, rfl⟩ := Option.map_eq_some_iff.1 hv
    exact h x hx

/-- Every demand that an Output Unit holds lies in range. -/
abbrev DemandsInRange (o : OutputUnit) : Prop := ∀ ch src, AtMost1000 (demandOf o ch src)

theorem seqSet_inRange {o : OutputUnit} (h : DemandsInRange o) (d : DemandSet) (hd : o.seqSet = some d) : SetInRange d :=
  (setInRange_iff d).2 fun ch => h ch .sequencer _ (by rw [demandOf, hd]; rfl)

theorem demandsInRange_of {o : OutputUnit} (hFire : ∀ ch, AtMost1000 (demandOf o ch .fire))
    (hGuard : ∀ ch, AtMost1000 (demandOf o ch .guard)) (hManual : ∀ ch, AtMost1000 (demandOf o ch .manual))
    (hSeq : ∀ ch, AtMost1000 (demandOf o ch .sequencer)) : DemandsInRange o := fun ch src => by
  cases src with
  | fire => exact hFire ch
  | guard => exact hGuard ch
  | manual => exact hManual ch
  | sequencer => exact hSeq ch

theorem OutputsInRange.cfg {s : State} (h : OutputsInRange s) : ConfigInRange s.cfg := h.1

theorem OutputsInRange.demands {s : State} (h : OutputsInRange s) : DemandsInRange s.out := h.2.2.2.2.2.2

theorem setPresent_demandOf (ch x : Channel) (v acc : Nat) (s : State) (src : DemandSource) :
    demandOf (setPresent ch v acc s).out x src = demandOf s.out x src := by
  unfold setPresent wheelFollows; dsimp only; repeat' split
  all_goals rfl

theorem setPresent_inRange {s : State} (ch : Channel) {v : Nat} (acc : Nat) (hv : v ≤ 1000) (hs : OutputsInRange s) :
    OutputsInRange (setPresent ch v acc s) := by
  obtain ⟨hCfg, hSpeed, hMixing, hDemands, -, hPresent, hOut⟩ := hs
  have hOut' : DemandsInRange (setPresent ch v acc s).out := fun x src => by rw [setPresent_demandOf]; exact hOut x src
  refine ⟨by simpa [State.cfg] using hCfg, by simpa using hSpeed, by simpa using hMixing, by simpa using hDemands,
    seqSet_inRange hOut', (setInRange_iff _).2 fun x => ?_, hOut'⟩
  rw [setPresent_present, chGet_chSet]
  split
  · exact hv
  · exact (setInRange_iff _).1 hPresent x

theorem aim_inRange {s : State} (hs : OutputsInRange s) {ch : Channel} {d : Nat} {j : Bool}
    (h : aim s.cfg s.out ch = some (d, j)) : d ≤ 1000 := by
  obtain ⟨src, hSrc⟩ := demandOf_of_aim h
  exact hs.demands ch src d hSrc

theorem settleChannel_inRange {s : State} (old : OutputUnit) (ch : Channel) (hs : OutputsInRange s) :
    OutputsInRange (settleChannel old ch s) := by
  unfold settleChannel
  split
  · exact hs
  next d hd => exact setPresent_inRange ch 0 (aim_inRange hs hd) hs
  · dsimp only; split
    · exact hs
    · exact hs

theorem changeDemands_inRange {s : State} {f : OutputUnit → OutputUnit} (hs : OutputsInRange s) (hf : DemandsInRange (f s.out))
    (hPresent : (f s.out).present = s.out.present) : OutputsInRange (changeDemands f s) := by
  obtain ⟨hCfg, hSpeed, hMixing, hDemands, -, hp, -⟩ := hs
  have hSet : OutputsInRange (s.setOut (f s.out)) :=
    ⟨hCfg, hSpeed, hMixing, hDemands, seqSet_inRange hf, by rw [State.setOut_out, hPresent]; exact hp, hf⟩
  exact settleChannel_inRange _ _ (settleChannel_inRange _ _ (settleChannel_inRange _ _ hSet))

theorem postSet_inRange {s : State} {d : DemandSet} (hs : OutputsInRange s) (hd : SetInRange d) : OutputsInRange (postSet d s) := by
  obtain ⟨hCfg, hSpeed, hMixing, -, hSeqSet, hp, hOut⟩ := hs
  have hSeq : OutputsInRange (s.setSeq { s.seq with demands := some d }) :=
    ⟨hCfg, hSpeed, hMixing, fun x hx => by cases hx; exact hd, hSeqSet, hp, hOut⟩
  exact changeDemands_inRange hSeq (demandsInRange_of (fun ch => hOut ch .fire) (fun ch => hOut ch .guard)
    (fun ch => hOut ch .manual) fun ch => atMost1000_some ((setInRange_iff d).1 hd ch)) rfl

/-- The demand set of every ramp lies in range (R23, R39). -/
theorem rampSet_inRange {c : Settings} {e : EvalRecord} (hCfg : ConfigInRange c) (hSpeed : AtMost1000 e.speed)
    (hMixing : AtMost1000 e.mixing) (m : Mode) : SetInRange (rampSet c e m) := by
  obtain ⟨hMin, hSafe, hWheel, hCap, -⟩ := hCfg
  cases m with
  | safe => exact ⟨hMin, Nat.zero_le _, hSafe⟩
  | recover =>
    refine ⟨hMin, Nat.zero_le _, ?_⟩
    unfold rampSet
    dsimp only
    split
    next v hv => have := hSpeed v hv; split <;> omega
    · exact hWheel
  | neutral => exact ⟨hMin, Nat.le_refl _, Nat.zero_le _⟩
  | free =>
    refine ⟨?_, Nat.le_refl _, Nat.zero_le _⟩
    cases hm : e.mixing with
    | none => simpa [rampSet, hm] using hMin
    | some v => simpa [rampSet, hm] using hMixing v hm
  | defrost => exact ⟨hMin, Nat.le_refl _, Nat.le_refl _⟩

/-- Every guard demand lies in range (R186, R187). -/
theorem combinedGuard_inRange {c : Settings} (hCfg : ConfigInRange c) (l : Limits) (ch : Channel) (g : Guard)
    (h : combinedGuard c l ch = some g) : g.value ≤ 1000 := by
  have hLimit : ∀ n, limitGuard c l n ch = some g → g.value ≤ 1000 := by
    intro n hn
    unfold limitGuard at hn
    split at hn
    · cases hn
    · obtain ⟨_, _, hm⟩ := Option.bind_eq_some_iff.1 hn
      obtain ⟨v, hv, rfl⟩ := Option.map_eq_some_iff.1 hm
      have hMin := hCfg.1
      cases n <;> cases ch <;> cases hv <;> first | exact hMin | exact Nat.zero_le _ | exact Nat.le_refl _
  unfold combinedGuard at h
  rw [Option.or_eq_some_iff, Option.or_eq_some_iff] at h
  obtain (hn | ⟨-, hn⟩) | ⟨-, hn⟩ := h <;> exact hLimit _ hn

/-- The speed that an evaluation finds lies in range (R16, R17). -/
theorem evalRecord_speed_inRange {c : Settings} (hCfg : ConfigInRange c) (n : Word16) (i : EvalInputs) :
    AtMost1000 (evalRecord c n i).speed := by
  have hWheel : c.decision.wheelMin ≤ 1000 := hCfg.2.2.1
  have hCapped : ∀ risk inDefrost share, cappedSpeed c.decision risk inDefrost share ≤ 1000 := fun risk inDefrost share => by
    unfold cappedSpeed wheelSpeed; dsimp only; split <;> omega
  have hRecovery : ∀ left risk tO tR hO hR, AtMost1000 (recovery c i left risk tO tR hO hR).2.2.2.2 := fun left risk tO tR hO hR => by
    unfold recovery; dsimp only
    split
    · exact atMost1000_none
    · split
      · exact atMost1000_none
      · split <;> exact atMost1000_some (hCapped ..)
  unfold evalRecord; dsimp only
  split
  · split
    · exact atMost1000_none
    · intro v hv; exact hRecovery _ _ _ _ _ _ v hv
  all_goals exact atMost1000_none

theorem evalRecord_mixing_inRange {c : Settings} (hCfg : ConfigInRange c) (n : Word16) (i : EvalInputs) :
    AtMost1000 (evalRecord c n i).mixing := by
  obtain ⟨tO, tR, -, -, -, hMix, -⟩ | ⟨m, -, -, hMix, -⟩ := evalRecord_free_or_other c n i
  · rw [hMix]; exact atMost1000_some (mixingPosition_bounds hCfg.1 ..).2
  · rw [hMix]; exact atMost1000_none

theorem slewOnce_inRange {s : State} (ch : Channel) (hs : OutputsInRange s) : OutputsInRange (slewOnce ch s) := by
  unfold slewOnce
  split
  next d hd =>
    have hAim := aim_inRange hs hd
    have hAt := (setInRange_iff _).1 hs.2.2.2.2.2.1 ch
    refine setPresent_inRange ch _ ?_ hs
    split <;> omega
  · exact hs

theorem outputsInRange_drive : DriveInvariant OutputsInRange where
  same hs hCfg hLast hDemands hOut := by
    obtain ⟨hc, hSpeed, hMixing, hd, hSet, hp, ho⟩ := hs
    exact ⟨by rwa [hCfg], by rwa [hLast], by rwa [hLast], by rwa [hDemands], by rwa [hOut.seqSet], by rwa [hOut.present],
      fun ch src => by rw [demandOf_congr hOut]; exact ho ch src⟩
  noDemands hs h := by
    obtain ⟨hc, hSpeed, hMixing, hd, hRest⟩ := hs
    exact ⟨hc, hSpeed, hMixing, fun d hd => absurd (h.symm.trans hd) (by simp), hRest⟩
  ramp m hs := postSet_inRange hs (rampSet_inRange hs.1 hs.2.1 hs.2.2.1 m)
  speed hs hd hv := by
    obtain ⟨hOda, hByp, -⟩ := hs.2.2.2.1 _ hd
    exact postSet_inRange hs ⟨hOda, hByp, hs.2.1 _ hv⟩
  mixing hs hd hv := by
    obtain ⟨-, hByp, hWhl⟩ := hs.2.2.2.1 _ hd
    exact postSet_inRange hs ⟨hs.2.2.1 _ hv, hByp, hWhl⟩
  again hs hd := postSet_inRange hs (hs.2.2.2.1 _ hd)
  guards l hs := changeDemands_inRange hs (demandsInRange_of (fun ch => hs.demands ch .fire)
    (fun ch => by cases ch <;> exact atMost1000_map (combinedGuard_inRange hs.cfg l _)) (fun ch => hs.demands ch .manual)
    fun ch => hs.demands ch .sequencer) rfl
  noGuards hs := changeDemands_inRange hs (demandsInRange_of (fun ch => hs.demands ch .fire)
    (fun ch => by cases ch <;> exact atMost1000_none) (fun ch => hs.demands ch .manual) fun ch => hs.demands ch .sequencer) rfl
  manual ch m hs hm := changeDemands_inRange hs (demandsInRange_of (fun ch => hs.demands ch .fire) (fun ch => hs.demands ch .guard)
    (fun x => by
      dsimp only [demandOf]
      rw [chGet_chSet]
      split
      · exact atMost1000_map hm
      · exact hs.demands x .manual) fun ch => hs.demands ch .sequencer) rfl
  noManuals hs := changeDemands_inRange hs (demandsInRange_of (fun ch => hs.demands ch .fire) (fun ch => hs.demands ch .guard)
    (fun ch => by cases ch <;> exact atMost1000_none) fun ch => hs.demands ch .sequencer) rfl
  fire hs := changeDemands_inRange hs (demandsInRange_of hs.cfg.2.2.2.2 (fun ch => hs.demands ch .guard)
    (fun ch => hs.demands ch .manual) fun ch => hs.demands ch .sequencer) rfl
  noFire hs := changeDemands_inRange hs (demandsInRange_of (fun ch => by cases ch <;> exact atMost1000_none)
    (fun ch => hs.demands ch .guard) (fun ch => hs.demands ch .manual) fun ch => hs.demands ch .sequencer) rfl
  slew ch hs := slewOnce_inRange ch hs
  record n i d hs h := by
    obtain ⟨hc, -, -, hRest⟩ := hs
    exact ⟨hc, by rw [State.setDecision_decision, h]; exact evalRecord_speed_inRange hc n i,
      by rw [State.setDecision_decision, h]; exact evalRecord_mixing_inRange hc n i, hRest⟩

/-! ## The configuration's ranges (R199, R202) -/

theorem clampInt_bounds {lo hi : Int} (h : lo ≤ hi) (v : Int) : lo ≤ clampInt lo hi v ∧ clampInt lo hi v ≤ hi := by
  unfold clampInt; split
  · omega
  · split <;> omega

/-- A CFG WRITE leaves the items that demands are made of in their ranges (R199). -/
theorem storeItem_inRange {c : Settings} (hc : ConfigInRange c) (w : CfgWrite) (x : Settings × Bool) (h : storeItem c w = some x) :
    ConfigInRange x.1 := by
  obtain ⟨hMin, hSafe, hWheel, hCap, hFire⟩ := hc
  cases w with
  | numeric i v =>
    have hTop : ∀ n : Nat, (itemRange i).2 ≤ n → (clampInt (itemRange i).1 (itemRange i).2 v).toNat ≤ n := fun n hn =>
      Int.toNat_le.2 (Int.le_trans (clampInt_bounds (by cases i <;> decide) v).2 hn)
    cases h
    cases i
    case oaMin => exact ⟨hTop 1000 (by decide), hSafe, hWheel, hCap, hFire⟩
    case whlSafe => exact ⟨hMin, hTop 1000 (by decide), hWheel, hCap, hFire⟩
    case wheelMin => exact ⟨hMin, hSafe, hTop 1000 (by decide), hCap, hFire⟩
    case frostCap => exact ⟨hMin, hSafe, hWheel, hTop 1000 (by decide), hFire⟩
    all_goals exact ⟨hMin, hSafe, hWheel, hCap, hFire⟩
  | listed i v => cases h; cases i <;> exact ⟨hMin, hSafe, hWheel, hCap, hFire⟩
  | firePosition ch v =>
    cases v <;> cases h <;> refine ⟨hMin, hSafe, hWheel, hCap, fun y => ?_⟩ <;> rw [chGet_chSet] <;> split
    · exact atMost1000_none
    · exact hFire y
    · exact atMost1000_some (Nat.min_le_right ..)
    · exact hFire y
  | bandShaft v | source v | basis v | follow v | attnMask v =>
    obtain ⟨_, -, rfl⟩ := Option.map_eq_some_iff.1 h
    exact ⟨hMin, hSafe, hWheel, hCap, hFire⟩
  | action l v =>
    obtain ⟨_, -, rfl⟩ := Option.map_eq_some_iff.1 h
    cases l <;> exact ⟨hMin, hSafe, hWheel, hCap, hFire⟩
  | followList as =>
    simp only [storeItem] at h
    split at h <;> cases h
    exact ⟨hMin, hSafe, hWheel, hCap, hFire⟩
  | filter n f =>
    cases h
    revert n; intro n
    unfold setFilter; split <;> exact ⟨hMin, hSafe, hWheel, hCap, hFire⟩
  | unknown => cases h

/-- What every close-time step keeps, their run keeps (R202). -/
theorem runSteps_keeps {I : Settings → Prop} {steps : List (Settings → Settings × List Adjustment)}
    (h : ∀ f ∈ steps, ∀ c, I c → I (f c).1) : ∀ {c}, I c → I (runSteps steps c).1 := by
  induction steps with
  | nil => exact fun hc => hc
  | cons f rest ih =>
    exact fun hc => ih (fun g hg => h g (.tail _ hg)) (h f (.head _) _ hc)

theorem adjustNum_keeps {I : Settings → Prop} {cond : Bool} {i : NumItem} {old new : Int} {c : Settings} (hc : I c)
    (h : cond = true → I (setNum c i new)) : I (adjustNum cond i old new c).1 := by
  unfold adjustNum; split
  next hCond => exact h hCond
  · exact hc

theorem adjustFollowList_keeps {I : Settings → Prop} {c : Settings} (hc : I c)
    (h : ∀ l, I { c with follow.followList := l }) : I (adjustFollowList c).1 := by
  unfold adjustFollowList; split
  · exact hc
  · split
    · exact h _
    · exact hc

theorem adjustFilter_keeps {I : Settings → Prop} {c : Settings} {n : Fin 4} (hc : I c) (h : ∀ f, I (setFilter c n f)) :
    I (adjustFilter n c).1 := by
  unfold adjustFilter; dsimp only; split
  · split
    · exact h _
    · exact hc
  · exact hc

theorem closeChecks_inRange {c : Settings} (hc : ConfigInRange c) : ConfigInRange (closeChecks c).1 := by
  refine runSteps_keeps (fun f hf c hc => ?_) hc
  simp only [closeSteps, List.mem_cons, List.not_mem_nil, or_false] at hf
  have hKeep := hc
  obtain ⟨hMin, hSafe, hWheel, hCap, hFire⟩ := hc
  rcases hf with rfl | rfl | rfl | rfl | rfl | rfl | rfl | rfl | rfl | rfl | rfl | rfl | rfl
  case inr.inr.inr.inr.inr.inl => exact adjustNum_keeps hKeep fun _ => ⟨hMin, hSafe, hWheel, hWheel, hFire⟩
  case inr.inr.inr.inr.inr.inr.inr.inr.inl => exact adjustFollowList_keeps hKeep fun _ => hKeep
  all_goals first
    | exact adjustNum_keeps hKeep fun _ => hKeep
    | exact adjustFilter_keeps hKeep fun _ => hKeep

theorem defaults_inRange : ConfigInRange defaults :=
  ⟨by decide, by decide, by decide, by decide, fun ch => by cases ch <;> intro x hx <;> cases hx <;> decide⟩

theorem powerOn_inRange (s : State) : OutputsInRange (powerOn s) :=
  ⟨defaults_inRange, nofun, nofun, nofun, nofun, ⟨Nat.zero_le _, Nat.zero_le _, Nat.zero_le _⟩,
    fun ch src => by cases ch <;> cases src <;> exact nofun⟩

theorem tick_inRange {s : State} (hs : OutputsInRange s) : OutputsInRange (tick s) := by
  rw [tick_eq]
  obtain ⟨hCfg, hSpeed, hMixing, hDemands, hSet, hPresent, hOut⟩ := hs
  exact ⟨hCfg, hSpeed, hMixing, hDemands, hSet, hPresent, demandsInRange_of (fun ch => hOut ch .fire) (fun ch => hOut ch .guard)
    (fun ch => hOut ch .manual) fun ch => hOut ch .sequencer⟩

theorem recast_inRange {s : State} {c : Settings} (hc : ConfigInRange c) (closed : Bool) (hs : OutputsInRange s) :
    OutputsInRange (recast c closed s) := ⟨hc, hs.2⟩

theorem exec_inRange (c : Instr) (s t : State) (hs : OutputsInRange s) (h : exec c s = .next t) : OutputsInRange t :=
  exec_drive outputsInRange_drive c (powerOn_inRange s)
    (fun w x _ hx => recast_inRange (storeItem_inRange hs.cfg w x hx) false hs)
    (fun _ => recast_inRange (closeChecks_inRange hs.cfg) true hs) hs h

/-- Settles O12: every demand is made of configured and evaluated values that lie in range, and an output moves toward one. -/
theorem outputsAndDemandsStayInRange : Obligations.OutputsAndDemandsStayInRange := fun _ _ hs h =>
  step_keeps (I := OutputsInRange) (fun _ _ h => h) (fun _ _ h => h) (fun _ => tick_inRange) exec_inRange hs h

end Sys2Proof.Machine
end

section
/-! PROOF. What a change of demands, the posting of a demand set and the entry into a phase do, field by field (R27, R36, R39, R163 to
R170). -/

namespace Sys2Proof.Machine

/-! ## Outputs moved (R163, R166, R167, R184, R192) -/

/-- The state with outputs, accumulators and the wheel-run output replaced, and the stall timer and last wrap time that follow them. -/
def moved (present : DemandSet) (acc : PerChannel Nat) (run : Bool) (stall wrap : Option Time) (s : State) : State :=
  (s.setOut { s.out with present := present, acc := acc, wheelRun := run }).setLimits
    { s.limits with stallTimer := stall, lastWrap := wrap }

/-- `t` is `s` with outputs moved and nothing else changed but what the wheel-run output starts and stops. -/
def Moved (s t : State) : Prop := ∃ present acc run stall wrap, t = moved present acc run stall wrap s

theorem Moved.refl (s : State) : Moved s s := ⟨_, _, _, _, _, rfl⟩

theorem Moved.trans {s t u : State} (h : Moved s t) (h' : Moved t u) : Moved s u := by
  obtain ⟨_, _, _, _, _, rfl⟩ := h
  obtain ⟨p, a, r, x, y, rfl⟩ := h'
  exact ⟨p, a, r, x, y, rfl⟩

section
variable {s t : State}

theorem Moved.port (h : Moved s t) : t.port = s.port := by obtain ⟨_, _, _, _, _, rfl⟩ := h; rfl
theorem Moved.cfg (h : Moved s t) : t.cfg = s.cfg := by obtain ⟨_, _, _, _, _, rfl⟩ := h; rfl
theorem Moved.link (h : Moved s t) : t.link = s.link := by obtain ⟨_, _, _, _, _, rfl⟩ := h; rfl
theorem Moved.peers (h : Moved s t) : t.peers = s.peers := by obtain ⟨_, _, _, _, _, rfl⟩ := h; rfl
theorem Moved.band (h : Moved s t) : t.band = s.band := by obtain ⟨_, _, _, _, _, rfl⟩ := h; rfl
theorem Moved.decision (h : Moved s t) : t.decision = s.decision := by obtain ⟨_, _, _, _, _, rfl⟩ := h; rfl
theorem Moved.claims (h : Moved s t) : t.claims = s.claims := by obtain ⟨_, _, _, _, _, rfl⟩ := h; rfl
theorem Moved.seq (h : Moved s t) : t.seq = s.seq := by obtain ⟨_, _, _, _, _, rfl⟩ := h; rfl
theorem Moved.now (h : Moved s t) : t.now = s.now := by obtain ⟨_, _, _, _, _, rfl⟩ := h; rfl
theorem Moved.firePin (h : Moved s t) : t.firePin = s.firePin := by obtain ⟨_, _, _, _, _, rfl⟩ := h; rfl

/-- The demands and everything else of the Output Unit that is no output. -/
theorem Moved.out (h : Moved s t) :
    t.out = { s.out with present := t.out.present, acc := t.out.acc, wheelRun := t.out.wheelRun } := by
  obtain ⟨_, _, _, _, _, rfl⟩ := h; rfl

theorem Moved.limits (h : Moved s t) : t.limits = { s.limits with stallTimer := t.limits.stallTimer, lastWrap := t.limits.lastWrap } := by
  obtain ⟨_, _, _, _, _, rfl⟩ := h; rfl

theorem Moved.demandOf (h : Moved s t) (ch : Channel) (src : DemandSource) : demandOf t.out ch src = demandOf s.out ch src := by
  obtain ⟨_, _, _, _, _, rfl⟩ := h; cases src <;> rfl

theorem Moved.aim (h : Moved s t) (c : Settings) (ch : Channel) : aim c t.out ch = aim c s.out ch := by
  obtain ⟨_, _, _, _, _, rfl⟩ := h; rfl

theorem Moved.winner (h : Moved s t) (c : Settings) (ch : Channel) : winner c t.out ch = winner c s.out ch := by
  obtain ⟨_, _, _, _, _, rfl⟩ := h; rfl

/-- A state moved from one that differs in the Output Unit only differs in the actuators only. -/
theorem onlyOutputs_of_moved {o : OutputUnit} (h : Moved (s.setOut o) t) : OnlyOutputs s t := by
  obtain ⟨_, _, _, _, _, rfl⟩ := h; rfl

end

theorem wheelFollows_moved (s : State) : Moved s (wheelFollows s) := by
  unfold wheelFollows; dsimp only
  split
  · exact Moved.refl s
  · split <;> exact ⟨_, _, _, _, _, rfl⟩

theorem setPresent_moved (ch : Channel) (v acc : Nat) (s : State) : Moved s (setPresent ch v acc s) :=
  Moved.trans ⟨_, _, _, _, _, rfl⟩ (wheelFollows_moved _)

theorem settleChannel_moved (old : OutputUnit) (ch : Channel) (s : State) : Moved s (settleChannel old ch s) := by
  unfold settleChannel
  split
  · exact Moved.refl s
  · exact setPresent_moved ..
  · dsimp only; split
    · exact Moved.refl s
    · exact ⟨s.out.present, chSet s.out.acc ch 0, s.out.wheelRun, s.limits.stallTimer, s.limits.lastWrap, rfl⟩

theorem slewOnce_moved (ch : Channel) (s : State) : Moved s (slewOnce ch s) := by
  unfold slewOnce; split
  · exact setPresent_moved ..
  · exact Moved.refl s

/-- A change of demands changes the demands as asked and moves outputs (R165 to R167). -/
theorem changeDemands_moved (f : OutputUnit → OutputUnit) (s : State) : Moved (s.setOut (f s.out)) (changeDemands f s) :=
  ((settleChannel_moved s.out .oda _).trans (settleChannel_moved s.out .byp _)).trans (settleChannel_moved s.out .whl _)

theorem changeDemands_onlyOutputs (f : OutputUnit → OutputUnit) (s : State) : OnlyOutputs s (changeDemands f s) :=
  onlyOutputs_of_moved (changeDemands_moved f s)

theorem changeDemands_out (f : OutputUnit → OutputUnit) (s : State) :
    (changeDemands f s).out = { f s.out with
      present := (changeDemands f s).out.present, acc := (changeDemands f s).out.acc
      wheelRun := (changeDemands f s).out.wheelRun } := (changeDemands_moved f s).out

/-! ## Where the channels stand after a change of demands (R167) -/

/-- Where a channel stands once its demand is taken, if that is a jump. -/
def settledAt (c : Settings) (o : OutputUnit) (ch : Channel) : Nat :=
  match aim c o ch with
  | some (d, true) => d
  | _ => chGet o.present ch

theorem settledAt_of_slewed {c : Settings} {o : OutputUnit} {ch : Channel} (h : ∀ d, aim c o ch ≠ some (d, true)) :
    settledAt c o ch = chGet o.present ch := by
  unfold settledAt; split
  next d hd => exact absurd hd (h d)
  · rfl

theorem settledAt_of_jump {c : Settings} {o : OutputUnit} {ch : Channel} {d : Nat} (h : aim c o ch = some (d, true)) :
    settledAt c o ch = d := by rw [settledAt, h]

theorem settleChannel_present (old : OutputUnit) (ch x : Channel) (s : State) :
    chGet (settleChannel old ch s).out.present x = if x = ch then settledAt s.cfg s.out ch else chGet s.out.present x := by
  have hSame : x = ch → chGet s.out.present ch = chGet s.out.present x := fun h => by rw [h]
  unfold settleChannel settledAt
  rcases hAim : aim s.cfg s.out ch with _ | ⟨d, _ | _⟩ <;> dsimp only
  · split <;> simp_all
  · have hKeep : ∀ acc, (s.setOut { s.out with acc := acc }).out.present = s.out.present := fun _ => rfl
    split <;> split <;> simp_all
  · rw [setPresent_present, chGet_chSet]

theorem settledAt_moved {s t : State} (h : Moved s t) {ch : Channel} (hp : chGet t.out.present ch = chGet s.out.present ch) :
    settledAt t.cfg t.out ch = settledAt s.cfg s.out ch := by simp only [settledAt, h.cfg, h.aim, hp]

theorem changeDemands_present (f : OutputUnit → OutputUnit) (s : State) (ch : Channel) :
    chGet (changeDemands f s).out.present ch = settledAt s.cfg (f s.out) ch := by
  have h1 := settleChannel_moved s.out .oda (s.setOut (f s.out))
  have h2 := h1.trans (settleChannel_moved s.out .byp _)
  unfold changeDemands; dsimp only
  rw [settleChannel_present]
  cases ch
  · rw [if_neg (by decide), settleChannel_present, if_neg (by decide), settleChannel_present, if_pos rfl]; rfl
  · rw [if_neg (by decide), settleChannel_present, if_pos rfl]
    exact settledAt_moved h1 (by rw [settleChannel_present, if_neg (by decide)])
  · rw [if_pos rfl]
    exact settledAt_moved h2 (by rw [settleChannel_present, if_neg (by decide), settleChannel_present, if_neg (by decide)])

/-! ## The Output Unit's state is its own (R161 to R170) -/

theorem wheelFollows_out (s : State) : (wheelFollows s).out = { s.out with wheelRun := decide (0 < s.out.present.whl) } := by
  unfold wheelFollows; dsimp only
  split
  next h => rw [h]
  · split <;> rfl

theorem settleChannel_out_congr {s t : State} (hc : s.cfg = t.cfg) (ho : s.out = t.out) (old : OutputUnit) (ch : Channel) :
    (settleChannel old ch s).out = (settleChannel old ch t).out := by
  unfold settleChannel
  rw [hc, ho]
  rcases aim t.cfg t.out ch with _ | ⟨d, _ | _⟩ <;> dsimp only
  · exact ho
  · split
    · exact ho
    · rfl
  · simp only [setPresent, wheelFollows_out, State.setOut_out, ho]
    rfl

/-- What a change of demands makes of the Output Unit rests on the configuration and the Output Unit alone. -/
theorem changeDemands_out_congr {s t : State} (hc : s.cfg = t.cfg) (ho : s.out = t.out) (f : OutputUnit → OutputUnit) :
    (changeDemands f s).out = (changeDemands f t).out := by
  have hSet : ∀ old ch {s t : State}, s.cfg = t.cfg ∧ s.out = t.out →
      (settleChannel old ch s).cfg = (settleChannel old ch t).cfg ∧ (settleChannel old ch s).out = (settleChannel old ch t).out :=
    fun old ch _ _ h => ⟨by rw [(settleChannel_moved ..).cfg, (settleChannel_moved ..).cfg, h.1],
      settleChannel_out_congr h.1 h.2 old ch⟩
  unfold changeDemands; dsimp only
  rw [ho]
  exact (hSet _ _ (hSet _ _ (hSet t.out .oda (s := s.setOut (f t.out)) (t := t.setOut (f t.out)) ⟨hc, rfl⟩))).2

/-! ## Winners (R165) -/

theorem demandOf_of_winner {c : Settings} {o : OutputUnit} {ch : Channel} {src : DemandSource} (h : winner c o ch = some src) :
    (demandOf o ch src).isSome = true := by
  have hBetter : ∀ best x, (∀ y, best = some y → (demandOf o ch y).isSome = true) →
      ∀ y, better c o ch best x = some y → (demandOf o ch y).isSome = true := by
    intro best x hb y hy
    unfold better at hy
    split at hy
    · exact hb y hy
    next hx =>
      split at hy
      · cases hy; exact Option.isSome_iff_ne_none.2 (by simpa using hx)
      · split at hy
        · cases hy; exact Option.isSome_iff_ne_none.2 (by simpa using hx)
        · cases hy; exact hb _ rfl
  have hNone : ∀ y, (none : Option DemandSource) = some y → (demandOf o ch y).isSome = true := nofun
  exact hBetter _ .sequencer (hBetter _ .manual (hBetter _ .guard (hBetter none .fire hNone))) _ h

/-- The winner rests on which sources have a demand, not on what they demand. -/
theorem winner_congr {a b : OutputUnit} {ch : Channel} (h : ∀ src, (demandOf a ch src).isNone = (demandOf b ch src).isNone)
    (c : Settings) : winner c a ch = winner c b ch := by simp only [winner, List.foldl, better, h]

/-! ## Ramp completion (R168, R170) -/

theorem completionDue_congr {s t : State} (hc : t.cfg = s.cfg) (ho : t.out = s.out) : completionDue t = completionDue s := by
  simp only [completionDue, hc, ho]

theorem completionDue_of_not_pending {s : State} (h : s.out.completionPending = false) : completionDue s = false := by
  simp [completionDue, h]

theorem completionDue_of_incomplete {s : State} {ch : Channel} (h : channelComplete s.cfg s.out ch = false) :
    completionDue s = false := by
  cases ch <;> simp [completionDue, h]

/-- The posting of a set that has somewhere to go does not complete at once. -/
theorem completionDue_postSet {s : State} {d : DemandSet} (h : RampsAway s d) : completionDue (postSet d s) = false := by
  obtain ⟨ch, hWins, hAway⟩ := h
  have hMoved := changeDemands_moved (fun o => { o with seqSet := some d, posting := nextPosting o.posting, completionPending := true })
    (s.setSeq { s.seq with demands := some d })
  have hSome := demandOf_of_winner hWins
  have hPosted : winner s.cfg { s.out with seqSet := some d, posting := nextPosting s.out.posting, completionPending := true } ch
      = some .sequencer := by
    rw [← hWins]
    refine winner_congr (fun src => ?_) _
    cases src <;> try rfl
    obtain ⟨x, hx⟩ := Option.isSome_iff_exists.1 hSome
    rw [hx]; rfl
  have hSlewed : ∀ v, aim s.cfg { s.out with seqSet := some d, posting := nextPosting s.out.posting, completionPending := true } ch
      ≠ some (v, true) := fun v hv => by
    rw [aim, hPosted] at hv
    simp [jumps] at hv
  refine completionDue_of_incomplete (ch := ch) ?_
  have hw := (hMoved.winner s.cfg ch).trans hPosted
  have hd : demandOf (postSet d s).out ch .sequencer = some (chGet d ch) := hMoved.demandOf ch .sequencer
  have hp : chGet (postSet d s).out.present ch = chGet s.out.present ch :=
    (changeDemands_present _ _ ch).trans (settledAt_of_slewed hSlewed)
  have hc : (postSet d s).cfg = s.cfg := hMoved.cfg
  rw [channelComplete, hc, hd, hp, show winner s.cfg (postSet d s).out ch = some .sequencer from hw]
  simp [Ne.symm hAway]

theorem settleRamps_of_not_due {s : State} (h : completionDue s = false) : settleRamps s = s := by
  simp [settleRamps, reportAll, h]

/-! ## What a posting does (R168) -/

section
variable (d : DemandSet) (s : State)

theorem postSet_moved : Moved ((s.setSeq { s.seq with demands := some d }).setOut
    { s.out with seqSet := some d, posting := nextPosting s.out.posting, completionPending := true }) (postSet d s) :=
  changeDemands_moved ..

@[simp] theorem postSet_seq : (postSet d s).seq = { s.seq with demands := some d } := (postSet_moved d s).seq
@[simp] theorem postSet_port : (postSet d s).port = s.port := (postSet_moved d s).port
@[simp] theorem postSet_link : (postSet d s).link = s.link := (postSet_moved d s).link
@[simp] theorem postSet_claims : (postSet d s).claims = s.claims := (postSet_moved d s).claims
@[simp] theorem postSet_peers : (postSet d s).peers = s.peers := (postSet_moved d s).peers
@[simp] theorem postSet_decision : (postSet d s).decision = s.decision := (postSet_moved d s).decision
@[simp] theorem postSet_band : (postSet d s).band = s.band := (postSet_moved d s).band
@[simp] theorem postSet_now : (postSet d s).now = s.now := (postSet_moved d s).now
@[simp] theorem postSet_cfg : (postSet d s).cfg = s.cfg := (postSet_moved d s).cfg

theorem postSet_out : (postSet d s).out = { s.out with
    seqSet := some d, posting := nextPosting s.out.posting, completionPending := true
    present := (postSet d s).out.present, acc := (postSet d s).out.acc, wheelRun := (postSet d s).out.wheelRun } :=
  (postSet_moved d s).out

@[simp] theorem postSet_seqSet : (postSet d s).out.seqSet = some d := by rw [postSet_out]
@[simp] theorem postSet_posting : (postSet d s).out.posting = nextPosting s.out.posting := by rw [postSet_out]
@[simp] theorem postSet_completionPending : (postSet d s).out.completionPending = true := by rw [postSet_out]
@[simp] theorem postSet_fire : (postSet d s).out.fire = s.out.fire := by rw [postSet_out]
@[simp] theorem postSet_guard : (postSet d s).out.guard = s.out.guard := by rw [postSet_out]
@[simp] theorem postSet_manual : (postSet d s).out.manual = s.out.manual := by rw [postSet_out]
@[simp] theorem postSet_fireFiltered : (postSet d s).out.fireFiltered = s.out.fireFiltered := by rw [postSet_out]

end

theorem postSet_out_congr {s t : State} (hc : s.cfg = t.cfg) (ho : s.out = t.out) (d : DemandSet) :
    (postSet d s).out = (postSet d t).out :=
  changeDemands_out_congr (s := s.setSeq { s.seq with demands := some d }) (t := t.setSeq { t.seq with demands := some d }) hc ho _

/-! ## Phases and the mode (R26, R27) -/

theorem queueBeacon_eq (s : State) : queueBeacon s = s.setLink (queueBeacon s).link := by
  unfold queueBeacon; dsimp only; repeat' split
  all_goals rfl

/-- The phase is replaced, and with it no more than what the Link Controller queues. -/
theorem setPhase_eq (p : Phase) (s : State) :
    setPhase p s = (s.setSeq { s.seq with phase := some p }).setLink (setPhase p s).link := by
  unfold setPhase; split
  next h => rw [show ({ s.seq with phase := some p } : Sequencer) = s.seq by rw [← h]]; rfl
  · exact queueBeacon_eq _

theorem setMode_eq (m : Mode) (s : State) :
    setMode m s = (s.setSeq { s.seq with mode := some m }).setLink (setMode m s).link := by
  unfold setMode; split
  next h => rw [show ({ s.seq with mode := some m } : Sequencer) = s.seq by rw [← h]]; rfl
  · exact queueBeacon_eq _

section
variable (p : Phase) (s : State)

@[simp] theorem setPhase_seq : (setPhase p s).seq = { s.seq with phase := some p } := by rw [setPhase_eq]; rfl
@[simp] theorem setPhase_out : (setPhase p s).out = s.out := by rw [setPhase_eq]; rfl
@[simp] theorem setPhase_port : (setPhase p s).port = s.port := by rw [setPhase_eq]; rfl
@[simp] theorem setPhase_claims : (setPhase p s).claims = s.claims := by rw [setPhase_eq]; rfl
@[simp] theorem setPhase_peers : (setPhase p s).peers = s.peers := by rw [setPhase_eq]; rfl
@[simp] theorem setPhase_decision : (setPhase p s).decision = s.decision := by rw [setPhase_eq]; rfl
@[simp] theorem setPhase_band : (setPhase p s).band = s.band := by rw [setPhase_eq]; rfl
@[simp] theorem setPhase_limits : (setPhase p s).limits = s.limits := by rw [setPhase_eq]; rfl
@[simp] theorem setPhase_now : (setPhase p s).now = s.now := by rw [setPhase_eq]; rfl
@[simp] theorem setPhase_cfg : (setPhase p s).cfg = s.cfg := by rw [setPhase_eq]; rfl

end

section
variable (m : Mode) (s : State)

@[simp] theorem setMode_seq : (setMode m s).seq = { s.seq with mode := some m } := by rw [setMode_eq]; rfl
@[simp] theorem setMode_out : (setMode m s).out = s.out := by rw [setMode_eq]; rfl
@[simp] theorem setMode_port : (setMode m s).port = s.port := by rw [setMode_eq]; rfl
@[simp] theorem setMode_claims : (setMode m s).claims = s.claims := by rw [setMode_eq]; rfl
@[simp] theorem setMode_decision : (setMode m s).decision = s.decision := by rw [setMode_eq]; rfl
@[simp] theorem setMode_now : (setMode m s).now = s.now := by rw [setMode_eq]; rfl
@[simp] theorem setMode_cfg : (setMode m s).cfg = s.cfg := by rw [setMode_eq]; rfl

end

/-! ## RAMPING is entered (R39) -/

section
variable (m : Mode) (s : State)

theorem enterRamping_eq :
    enterRamping m s = (postSet (rampSet s.cfg s.decision.last m) (setPhase .ramping (endWait s))).setSeq { s.seq with
      phase := some .ramping, waitSet := [], followTimer := none, demands := some (rampSet s.cfg s.decision.last m)
      rampPosting := some (nextPosting s.out.posting) } := by
  have hc : (setPhase .ramping (endWait s)).cfg = s.cfg := setPhase_cfg ..
  simp only [enterRamping, hc, setPhase_decision, postSet_posting, setPhase_out, postSet_seq, setPhase_seq]
  rfl

@[simp] theorem enterRamping_seq : (enterRamping m s).seq = { s.seq with
    phase := some .ramping, waitSet := [], followTimer := none, demands := some (rampSet s.cfg s.decision.last m)
    rampPosting := some (nextPosting s.out.posting) } := by rw [enterRamping_eq]; rfl

theorem enterRamping_out : (enterRamping m s).out = (postSet (rampSet s.cfg s.decision.last m) s).out := by
  rw [enterRamping_eq, State.setSeq_out]
  have hc : (setPhase .ramping (endWait s)).cfg = s.cfg := setPhase_cfg ..
  have ho : (setPhase .ramping (endWait s)).out = s.out := setPhase_out ..
  exact postSet_out_congr hc ho _

@[simp] theorem enterRamping_port : (enterRamping m s).port = s.port := by rw [enterRamping_eq]; simp; rfl
@[simp] theorem enterRamping_claims : (enterRamping m s).claims = s.claims := by rw [enterRamping_eq]; simp; rfl
@[simp] theorem enterRamping_peers : (enterRamping m s).peers = s.peers := by rw [enterRamping_eq]; simp; rfl
@[simp] theorem enterRamping_decision : (enterRamping m s).decision = s.decision := by rw [enterRamping_eq]; simp; rfl
@[simp] theorem enterRamping_band : (enterRamping m s).band = s.band := by rw [enterRamping_eq]; simp; rfl
@[simp] theorem enterRamping_now : (enterRamping m s).now = s.now := by rw [enterRamping_eq]; simp; rfl
@[simp] theorem enterRamping_cfg : (enterRamping m s).cfg = s.cfg := congrArg Port.cfg (enterRamping_port m s)

theorem enterRamping_completionDue (h : RampsAway s (rampSet s.cfg s.decision.last m)) :
    completionDue (enterRamping m s) = false := by
  rw [completionDue_congr (s := postSet (rampSet s.cfg s.decision.last m) s) (by simp) (enterRamping_out m s)]
  exact completionDue_postSet h

end

theorem enterRamping_rampingTo {target : Mode} {forced : Bool} {s : State} (h : s.seq.transition = some ⟨target, forced⟩) :
    RampingTo target forced s.seq (nextPosting s.out.posting) s (enterRamping target s) := by
  refine ⟨by rw [enterRamping_seq, ← h], ?_, ?_⟩ <;> rw [enterRamping_out] <;> simp

end Sys2Proof.Machine
end

section
/-! PROOF. Ramp completions: each one that brings another about leaves fewer causes for a next one, so an event reports them all (R30, R31,
R40, R46, R49, R50, R170). -/

namespace Sys2Proof.Machine

/-! ## What the Claim Unit's operations leave of the other blocks -/

/-- The parts that a claim request, a cancel and a release can change. -/
def Part.claiming : Part → Bool := fun p => p == .claims || p == .link

section
variable {s t : State}

theorem ClaimActs.seq (h : Acts Part.claiming s t) : t.seq = s.seq := h.seq_eq rfl
theorem ClaimActs.out (h : Acts Part.claiming s t) : t.out = s.out := h.out_eq rfl
theorem ClaimActs.peers (h : Acts Part.claiming s t) : t.peers = s.peers := h.peers_eq rfl
theorem ClaimActs.decision (h : Acts Part.claiming s t) : t.decision = s.decision := h.decision_eq rfl
theorem ClaimActs.band (h : Acts Part.claiming s t) : t.band = s.band := h.band_eq rfl
theorem ClaimActs.limits (h : Acts Part.claiming s t) : t.limits = s.limits := h.limits_all_eq rfl rfl

/-- Such acts leave the whole port. -/
theorem ClaimActs.port (h : Acts Part.claiming s t) : t.port = s.port := by
  induction h with
  | refl => rfl
  | link l _ _ _ ih | claims c _ _ _ ih => exact ih
  | _ => simp_all [Part.claiming]

end

theorem requestClaim_claimActs (r : Resource) (s : State) : Acts Part.claiming s (requestClaim r s).1 :=
  requestClaim_acts r .refl rfl rfl

theorem releaseUnless_claimActs (m : Option Mode) (r : Resource) {s t : State} (h : Acts Part.claiming s t) :
    Acts Part.claiming s (releaseUnless m r t) := ite_acts (releaseClaim_acts r h rfl rfl) h

theorem releaseUnneeded_claimActs (m : Option Mode) (s : State) : Acts Part.claiming s (releaseUnneeded m s) :=
  forBoth_acts (fun r _ h => releaseUnless_claimActs m r h) .refl

section
variable (m : Option Mode) (s : State)

@[simp] theorem releaseUnneeded_seq : (releaseUnneeded m s).seq = s.seq := ClaimActs.seq (releaseUnneeded_claimActs m s)
@[simp] theorem releaseUnneeded_out : (releaseUnneeded m s).out = s.out := ClaimActs.out (releaseUnneeded_claimActs m s)
@[simp] theorem releaseUnneeded_port : (releaseUnneeded m s).port = s.port := ClaimActs.port (releaseUnneeded_claimActs m s)
@[simp] theorem releaseUnneeded_decision : (releaseUnneeded m s).decision = s.decision :=
  ClaimActs.decision (releaseUnneeded_claimActs m s)
@[simp] theorem releaseUnneeded_now : (releaseUnneeded m s).now = s.now := (releaseUnneeded_claimActs m s).now
@[simp] theorem releaseUnneeded_cfg : (releaseUnneeded m s).cfg = s.cfg := (releaseUnneeded_claimActs m s).cfg

end

/-! ## What the start of a transition leaves of the Sequencer -/

/-- What the first phase of a transition leaves as it stands. -/
structure SameCourse (s t : State) : Prop where
  cfg : t.cfg = s.cfg
  mode : t.seq.mode = s.seq.mode
  candidate : t.seq.candidate = s.seq.candidate
  count : t.seq.count = s.seq.count
  transition : t.seq.transition = s.seq.transition
  forcedPending : t.seq.forcedPending = s.seq.forcedPending
  defrostExpired : t.seq.defrostExpired = s.seq.defrostExpired

theorem enterRamping_course (m : Mode) (s : State) : SameCourse s (enterRamping m s) := by
  constructor <;> simp

theorem enterWaitOrRamp_course (m : Mode) (f : Bool) (s : State) : SameCourse s (enterWaitOrRamp m f s) := by
  unfold enterWaitOrRamp; dsimp only; split
  · exact enterRamping_course m s
  · constructor
    case cfg => exact setPhase_cfg ..
    all_goals rw [setPhase_seq]; rfl

theorem enterFirstPhase_course (m : Mode) (f : Bool) (s : State) : SameCourse s (enterFirstPhase m f s) := by
  unfold enterFirstPhase
  split
  next r _ =>
    split
    · exact enterWaitOrRamp_course m f s
    · have h := requestClaim_claimActs r (setPhase .claiming s)
      constructor
      case cfg => exact h.cfg.trans (setPhase_cfg ..)
      all_goals rw [ClaimActs.seq h, setPhase_seq]
  · exact enterWaitOrRamp_course m f s

theorem confirmed_congr {s t : State} (hc : t.cfg = s.cfg) (hm : t.seq.candidate = s.seq.candidate) (hn : t.seq.count = s.seq.count) :
    confirmed t = confirmed s := by simp only [confirmed, hc, hm, hn]

/-! ## Causes of a further completion -/

/-- How many causes for another ramp an event still holds: a pending forced leave, the exit from DEFROST at the end of a ramp back to it,
and a confirmed desire for another mode than the present target. They weigh so that each one taken lowers the sum. -/
def unfinished (s : State) : Nat :=
  (if s.seq.forcedPending = none then 0 else 4)
    + (if s.seq.defrostExpired = true ∧ s.seq.mode = some .defrost ∧ s.seq.transition.map (·.target) = some .defrost then 2 else 0)
    + (if confirmed s = none ∨ confirmed s = s.seq.transition.map (·.target) then 0 else 1)

theorem unfinished_le (s : State) : unfinished s ≤ 7 := by
  unfold unfinished
  have h4 : (if s.seq.forcedPending = none then 0 else 4) ≤ 4 := by split <;> decide
  have h2 : (if s.seq.defrostExpired = true ∧ s.seq.mode = some .defrost ∧ s.seq.transition.map (·.target) = some .defrost
      then 2 else 0) ≤ 2 := by split <;> decide
  have h1 : (if confirmed s = none ∨ confirmed s = s.seq.transition.map (·.target) then 0 else 1) ≤ 1 := by split <;> decide
  omega

/-- The state in which a transition's first phase is entered. -/
def begun (target : Mode) (forced : Bool) (s : State) : State := s.setSeq { s.seq with
  transition := some { target := target, forced := forced }
  forcedPending := if target = .safe then none else s.seq.forcedPending }

theorem beginTransition_eq (target : Mode) (forced : Bool) (s : State) :
    beginTransition target forced s = enterFirstPhase target forced (begun target forced s) := rfl

theorem beginTransition_course (m : Mode) (f : Bool) (s : State) : SameCourse (begun m f s) (beginTransition m f s) :=
  enterFirstPhase_course m f _

/-- A transition that starts with no forced leave pending leaves the two lighter causes, each by its own test. -/
theorem unfinished_beginTransition {m : Mode} {f : Bool} {s : State} (hf : s.seq.forcedPending = none) :
    unfinished (beginTransition m f s) =
      (if s.seq.defrostExpired = true ∧ s.seq.mode = some .defrost ∧ m = .defrost then 2 else 0)
        + (if confirmed s = none ∨ confirmed s = some m then 0 else 1) := by
  obtain ⟨hCfg, hMode, hCand, hCount, hTrans, hForced, hExp⟩ := beginTransition_course m f s
  have hConf : confirmed (beginTransition m f s) = confirmed s := confirmed_congr hCfg hCand hCount
  have hNone : (begun m f s).seq.forcedPending = none := by
    show (if m = .safe then none else s.seq.forcedPending) = none
    rw [hf]; split <;> rfl
  have hTarget : (begun m f s).seq.transition.map (·.target) = some m := rfl
  unfold unfinished
  rw [hForced, hNone, hExp, hMode, hTrans, hTarget, hConf]
  simp [begun]

/-! ## The end of a ramp (R40) -/

/-- The state at the end of a ramp, the phase SETTLED, before what the settling brings about (R40). -/
def arrived (target : Mode) (s : State) : State :=
  if s.seq.mode = some target then toSettled (releaseUnneeded (some target) s)
  else toSettled (defrostTimers s.seq.mode target (releaseUnneeded (some target) (enterMode target s)))

theorem arrived_of_back {target : Mode} {s : State} (h : s.seq.mode = some target) :
    arrived target s = toSettled (releaseUnneeded (some target) s) := if_pos h

theorem arrived_of_new {target : Mode} {s : State} (h : s.seq.mode ≠ some target) :
    arrived target s = toSettled (defrostTimers s.seq.mode target (releaseUnneeded (some target) (enterMode target s))) := if_neg h

/-- A forced leave that is pending is acted on at the end of the ramp (R50). -/
theorem rampCompleted_of_forced {target m : Mode} {s : State} (hm : (arrived target s).seq.forcedPending = some m) :
    rampCompleted target s = leaveNow m (arrived target s) := by
  unfold arrived at hm ⊢
  unfold rampCompleted
  by_cases h : s.seq.mode = some target
  · simp only [if_pos h] at hm ⊢; simp only [hm]
  · simp only [if_neg h] at hm ⊢; simp only [hm]

theorem rampCompleted_of_free {target : Mode} {s : State} (hm : (arrived target s).seq.forcedPending = none) :
    rampCompleted target s = afterSettled (arrived target s) := by
  unfold arrived at hm ⊢
  unfold rampCompleted
  by_cases h : s.seq.mode = some target
  · simp only [if_pos h] at hm ⊢; simp only [hm]
  · simp only [if_neg h] at hm ⊢; simp only [hm]

theorem toSettled_seq (s : State) :
    (toSettled s).seq = { s.seq with phase := some .settled, transition := none, rampPosting := none } := by
  rw [toSettled, setPhase_seq]; rfl

@[simp] theorem toSettled_out (s : State) : (toSettled s).out = s.out := setPhase_out ..
@[simp] theorem toSettled_cfg (s : State) : (toSettled s).cfg = s.cfg := setPhase_cfg ..
@[simp] theorem toSettled_port (s : State) : (toSettled s).port = s.port := setPhase_port ..
@[simp] theorem toSettled_claims (s : State) : (toSettled s).claims = s.claims := setPhase_claims ..
@[simp] theorem toSettled_decision (s : State) : (toSettled s).decision = s.decision := setPhase_decision ..

theorem defrostTimers_eq (old : Option Mode) (m : Mode) (s : State) : defrostTimers old m s = s.setSeq (defrostTimers old m s).seq := by
  unfold defrostTimers; split
  · rfl
  · split <;> rfl

theorem post_eq (b : NoticeBody) (s : State) : post b s = s.setPort (post b s).port := rfl

theorem enterMode_seq (m : Mode) (s : State) : (enterMode m s).seq = { s.seq with
    mode := some m, dwellStart := some s.now, dwellTimer := some (s.now + secs s.cfg.decision.tDWELL) } := by
  rw [enterMode, post_eq, State.setPort_seq, setMode_seq]; rfl

theorem enterMode_out (m : Mode) (s : State) : (enterMode m s).out = s.out := by
  rw [enterMode, post_eq, State.setPort_out, setMode_out]; rfl

theorem post_cfg (b : NoticeBody) (s : State) : (post b s).cfg = s.cfg := rfl

theorem enterMode_cfg (m : Mode) (s : State) : (enterMode m s).cfg = s.cfg := by
  rw [enterMode, post_cfg, setMode_cfg]; rfl

/-- What the end of a ramp leaves for the tests that follow it. -/
structure Arrived (target : Mode) (s t : State) : Prop where
  out : t.out = s.out
  cfg : t.cfg = s.cfg
  mode : t.seq.mode = some target
  candidate : t.seq.candidate = s.seq.candidate
  count : t.seq.count = s.seq.count
  forcedPending : t.seq.forcedPending = s.seq.forcedPending
  defrostExpired : t.seq.defrostExpired = true → target = .defrost → s.seq.defrostExpired = true ∧ s.seq.mode = some .defrost

theorem arrived_spec (target : Mode) (s : State) : Arrived target s (arrived target s) := by
  by_cases h : s.seq.mode = some target
  · rw [arrived_of_back h]
    constructor
    case out => rw [toSettled_out, releaseUnneeded_out]
    case cfg => rw [toSettled_cfg, releaseUnneeded_cfg]
    case defrostExpired =>
      rw [toSettled_seq, releaseUnneeded_seq]
      exact fun hExp hT => ⟨hExp, by rw [h, hT]⟩
    all_goals rw [toSettled_seq, releaseUnneeded_seq]
    exact h
  · rw [arrived_of_new h]
    have hTimers : (defrostTimers s.seq.mode target (releaseUnneeded (some target) (enterMode target s))).seq =
        (defrostTimers s.seq.mode target (enterMode target s)).seq := by
      simp only [defrostTimers, releaseUnneeded_seq, releaseUnneeded_now, releaseUnneeded_cfg]
      split
      · rfl
      · split
        · rfl
        · rw [releaseUnneeded_seq]
    constructor
    case out => rw [toSettled_out, defrostTimers_eq, State.setSeq_out, releaseUnneeded_out, enterMode_out]
    case cfg =>
      have : (defrostTimers s.seq.mode target (releaseUnneeded (some target) (enterMode target s))).cfg
          = (releaseUnneeded (some target) (enterMode target s)).cfg := by rw [defrostTimers_eq]; rfl
      rw [toSettled_cfg, this, releaseUnneeded_cfg, enterMode_cfg]
    case defrostExpired =>
      rw [toSettled_seq, hTimers]
      intro hExp hT
      subst hT
      cases hExp
    all_goals
      rw [toSettled_seq, hTimers]
      unfold defrostTimers
      split
      · rw [State.setSeq_seq, enterMode_seq]
      · split
        · rw [State.setSeq_seq, enterMode_seq]
        · rw [enterMode_seq]

/-! ## Each completion leaves fewer causes -/

/-- No completion is outstanding, or fewer than `n` causes are left. -/
def Fewer (n : Nat) (s : State) : Prop := s.out.completionPending = false ∨ unfinished s < n

theorem exitTarget_ne_defrost (s : State) : exitTarget s ≠ .defrost := by
  unfold exitTarget
  split
  · exact nofun
  · exact nofun
  · split <;> exact nofun
  next m h1 h2 hm => exact h1

theorem exitTest_fewer {s : State} {n : Nat} (hp : s.out.completionPending = false) (hf : s.seq.forcedPending = none)
    (hn : s.seq.mode = some .defrost → s.seq.defrostExpired = true → 2 ≤ n) : Fewer n (exitTest s) := by
  unfold exitTest
  split
  next h =>
    simp only [Bool.and_eq_true, decide_eq_true_eq] at h
    obtain ⟨⟨-, hMode⟩, hExp⟩ := h
    have hTwo := hn hMode hExp
    right
    rw [unfinished_beginTransition hf, if_neg (fun h => exitTarget_ne_defrost s h.2.2)]
    split <;> omega
  · exact .inl hp

theorem beginTransition_phase (m : Mode) (f : Bool) (s : State) : (beginTransition m f s).seq.phase ≠ some .settled := by
  have hWait : ∀ u, (enterWaitOrRamp m f u).seq.phase ≠ some .settled := fun u => by
    unfold enterWaitOrRamp; dsimp only; split
    · rw [enterRamping_seq]; exact nofun
    · rw [setPhase_seq]; exact nofun
  rw [beginTransition_eq, enterFirstPhase]
  split
  next r _ =>
    split
    · exact hWait _
    · rw [ClaimActs.seq (requestClaim_claimActs r _), setPhase_seq]; exact nofun
  · exact hWait _

theorem exitTest_of_not_settled {s : State} (h : s.seq.phase ≠ some .settled) : exitTest s = s := by
  unfold exitTest settled; simp [h]

/-- The tests at the settling: a start takes the confirmed desire for its target, and the exit from DEFROST leaves no other. -/
theorem afterSettled_fewer {s : State} {n : Nat} (hp : s.out.completionPending = false) (hf : s.seq.forcedPending = none)
    (hConf : confirmed s ≠ none → confirmed s ≠ s.seq.mode → 1 ≤ n)
    (hn : s.seq.mode = some .defrost → s.seq.defrostExpired = true → 2 ≤ n) : Fewer n (afterSettled s) := by
  unfold afterSettled startTest
  split
  · exact exitTest_fewer hp hf hn
  next m hm =>
    split
    next h =>
      simp only [Bool.and_eq_true, bne_iff_ne, ne_eq] at h
      obtain ⟨⟨-, hMode⟩, -⟩ := h
      rw [exitTest_of_not_settled (beginTransition_phase m false s)]
      right
      have hOne := hConf (by rw [hm]; exact nofun) (by rw [hm]; exact fun h => hMode h.symm)
      rw [unfinished_beginTransition hf, if_neg (fun h => hMode (by rw [h.2.1, h.2.2])), if_pos (Or.inr hm)]
      omega
    · exact exitTest_fewer hp hf hn

theorem leaveNow_fewer {s : State} {affected : Mode} (hp : s.out.completionPending = false) : Fewer 4 (leaveNow affected s) := by
  have hNone : confirmed (clearCandidate (s.setSeq { s.seq with forcedPending := none })) = none := rfl
  unfold leaveNow; dsimp only; split
  · right
    rw [unfinished_beginTransition rfl, if_pos (Or.inl hNone)]
    split <;> omega
  · exact afterSettled_fewer hp rfl (fun _ _ => by omega) (fun _ _ => by omega)

theorem rampCompleted_fewer {s : State} {x : Transition} (hp : s.out.completionPending = false) (ht : s.seq.transition = some x) :
    Fewer (unfinished s) (rampCompleted x.target s) := by
  have hArr := arrived_spec x.target s
  have hPend : (arrived x.target s).out.completionPending = false := by rw [hArr.out]; exact hp
  have hConf : confirmed (arrived x.target s) = confirmed s := confirmed_congr hArr.cfg hArr.candidate hArr.count
  have hTarget : s.seq.transition.map (·.target) = some x.target := by rw [ht]; rfl
  cases hm : (arrived x.target s).seq.forcedPending with
  | some m =>
    rw [rampCompleted_of_forced hm]
    have h4 : 4 ≤ unfinished s := by
      rw [hArr.forcedPending] at hm
      unfold unfinished
      rw [hm, if_neg (by exact nofun)]
      omega
    rcases leaveNow_fewer (affected := m) hPend with h | h
    · exact .inl h
    · exact .inr (by omega)
  | none =>
    rw [rampCompleted_of_free hm]
    refine afterSettled_fewer hPend hm (fun hNe hMode => ?_) (fun hMode hExp => ?_)
    · rw [hConf] at hNe hMode
      rw [hArr.mode] at hMode
      unfold unfinished
      rw [if_neg (c := confirmed s = none ∨ _) (by rw [hTarget]; exact not_or.2 ⟨hNe, hMode⟩)]
      omega
    · have hT : x.target = .defrost := Option.some.inj (hArr.mode.symm.trans hMode)
      unfold unfinished
      obtain ⟨hExpired, hOld⟩ := hArr.defrostExpired hExp hT
      rw [if_pos (c := s.seq.defrostExpired = true ∧ _) ⟨hExpired, hOld, by rw [hTarget, hT]⟩]
      omega

theorem reportOnce_fewer (s : State) (h : completionDue s = true) : Fewer (unfinished s) (reportOnce s) := by
  unfold reportOnce takeCompletion
  rw [if_pos h]
  split
  · exact .inl rfl
  next x hx =>
    split
    · exact rampCompleted_fewer (s := s.setOut { s.out with completionPending := false }) rfl hx
    · exact .inl rfl

theorem reportAll_settles : ∀ (n : Nat) (s : State), s.out.completionPending = false ∨ unfinished s < n →
    completionDue (reportAll n s) = false
  | 0, _, h => completionDue_of_not_pending (h.resolve_right (Nat.not_lt_zero _))
  | n + 1, s, h => by
    unfold reportAll
    split
    next hDue =>
      have hLess : unfinished s < n + 1 := h.resolve_left fun hp => by
        rw [completionDue_of_not_pending hp] at hDue; cases hDue
      exact reportAll_settles n _ ((reportOnce_fewer s hDue).imp_right fun h => by omega)
    next hDue => simpa using hDue

/-- An event that reports its ramp completions leaves none outstanding (R170; log entry 9). -/
theorem completionDue_settleRamps (s : State) : completionDue (settleRamps s) = false :=
  reportAll_settles 8 s (.inr (Nat.lt_succ_of_le (unfinished_le s)))

/-! ## Every command (R170) -/

/-- Every part but the Output Unit. -/
def Part.outless : Part → Bool := fun p => p != .out

section
variable {s t : State}

theorem notDue_of_acts (hs : completionDue s = false) (h : Acts Part.outless s t) : completionDue t = false :=
  (completionDue_congr h.cfg (h.out_eq rfl)).trans hs

theorem notDue_ite {c : Prop} [Decidable c] {a b : State} (ha : completionDue a = false) (hb : completionDue b = false) :
    completionDue (if c then a else b) = false := by split <;> assumption

theorem notDue_reply (hs : completionDue s = false) (st : ReplyStatus) (d : ReplyData) : completionDue (reply st d s) = false := hs

theorem notDue_admit {f : State → State} (hs : completionDue s = false) (hf : completionDue (f s) = false) :
    completionDue (admitOperating f s) = false := notDue_ite hs (notDue_ite hs hf)

theorem evaluate_notDue (s : State) : completionDue (evaluate s) = false := by
  unfold evaluate unordered handToSequencer handToLimits; dsimp only
  split
  · exact completionDue_settleRamps _
  · split <;> exact completionDue_settleRamps _

theorem requestEvaluation_notDue (hs : completionDue s = false) : completionDue (requestEvaluation s) = false :=
  notDue_ite (evaluate_notDue s) hs

theorem assertFire_notDue (s : State) : completionDue (assertFire s) = false := completionDue_settleRamps _

theorem releaseFire_notDue (s : State) : completionDue (releaseFire s) = false := by
  unfold releaseFire; dsimp only; split
  · exact requestEvaluation_notDue (completionDue_settleRamps _)
  · exact completionDue_settleRamps _

theorem fireChanges_notDue (hs : completionDue s = false) (level : Bool) : completionDue (fireChanges level s) = false := by
  unfold fireChanges; dsimp only; split
  · exact hs
  · split
    · exact assertFire_notDue _
    · exact releaseFire_notDue _

theorem assertIfFire_notDue (hs : completionDue s = false) : completionDue (assertIfFire s) = false :=
  notDue_ite (assertFire_notDue s) hs

theorem closeConfig_notDue (s : State) : completionDue (closeConfig s) = false := by
  unfold closeConfig
  exact notDue_of_acts (assertIfFire_notDue (completionDue_settleRamps _)) (Acts.reply _ (postAll_acts _ .refl rfl) rfl)

theorem finishRestart_notDue (hs : completionDue s = false) : completionDue (finishRestart s) = false :=
  notDue_ite (assertIfFire_notDue (completionDue_settleRamps _)) hs

theorem handToClaims_notDue (hs : completionDue s = false) (a : Nat) (b : FrameBody) : completionDue (handToClaims a b s) = false := by
  cases b with
  | claim m => exact completionDue_settleRamps _
  | beacon x => exact completionDue_settleRamps _
  | alert y => exact notDue_of_acts hs (takeFire_acts a y.fireOn .refl rfl rfl rfl)

theorem handToFilters_notDue (hs : completionDue s = false) (a shaft : Nat) (b : FrameBody) :
    completionDue (handToFilters a shaft b s) = false := by
  cases b with
  | claim m => exact hs
  | beacon x => exact notDue_ite (completionDue_settleRamps _) hs
  | alert y => exact notDue_ite (notDue_of_acts hs (peerAlert_acts a y.fireOn .refl rfl)) hs

theorem receiveFrame_notDue (hs : completionDue s = false) (f : LineFrame) : completionDue (receiveFrame f s) = false := by
  have hNumbered : completionDue (numberFrame s) = false := hs
  unfold receiveFrame processFrame handOn
  split
  · exact hs
  · refine notDue_ite (notDue_ite (notDue_ite hNumbered (completionDue_settleRamps _)) (notDue_ite hNumbered ?_)) hs
    split
    · exact hNumbered
    · exact notDue_ite (handToFilters_notDue (handToClaims_notDue hNumbered _ _) _ _ _) (handToFilters_notDue hNumbered _ _ _)

theorem transmitted_notDue (hs : completionDue s = false) : completionDue (transmitted s) = false := by
  unfold transmitted; split
  · exact hs
  · exact completionDue_settleRamps _

theorem transmitFailed_notDue (hs : completionDue s = false) : completionDue (transmitFailed s) = false := by
  unfold transmitFailed; split
  · exact hs
  · exact notDue_ite (completionDue_settleRamps _) hs

theorem writeMeas_notDue (hs : completionDue s = false) (ch : MeasChannel) (v : Option Int) :
    completionDue (writeMeas ch v s) = false := by
  cases v with
  | none =>
    have hVerdict : completionDue (clearVerdict (storeNone ch s)) = false := notDue_ite hs hs
    cases ch with
    | probeT | probeW => exact hVerdict
    | _ => exact hs
  | some v => exact completionDue_settleRamps _

/-- No command leaves a completion outstanding: each ends with the completions it brings about reported, or moves no output and changes no
demand and, after close, no level. -/
theorem exec_notDue (c : Instr) (hBefore : BeforeClose s) (hs : completionDue s = false) (h : exec c s = .next t) :
    completionDue t = false := by
  have hActs : ∀ {u}, Acts Part.outless s u → completionDue u = false := fun hu => notDue_of_acts hs hu
  have hSettled : ∀ u, completionDue (settleRamps u) = false := completionDue_settleRamps
  cases c <;> cases h
  case powerOnReset => rfl
  case transactionDiscarded | badCommand | statusRead | identRead => exact hs
  case cfgWrite w =>
    by_cases hOpen : s.port.closed = false
    · obtain ⟨-, -, -, -, -, -, -, -, -, -, -, hOut, -⟩ := hBefore hOpen
      have hPending : s.out.completionPending = false := by rw [hOut]; rfl
      refine completionDue_of_not_pending ?_
      split
      · exact hPending
      · split
        · exact hPending
        · split <;> exact hPending
    · refine notDue_ite hs ?_
      rw [if_pos (by simpa using hOpen)]
      exact hs
  case cfgRead item => split <;> exact hs
  case cfgClose => exact notDue_ite hs (notDue_ite hs (closeConfig_notDue s))
  case measWrite ch v =>
    refine notDue_ite hs ?_
    cases ch with
    | none => exact hs
    | some ch => exact writeMeas_notDue hs ch v
  case setpointWrite v => exact notDue_admit hs hs
  case sourceSelect src =>
    refine notDue_admit hs ?_
    cases src with
    | none => exact hs
    | some x => exact notDue_ite hs hs
  case manualPost ch position duration =>
    refine notDue_admit hs ?_
    cases ch with
    | none => exact hs
    | some ch => exact notDue_ite hs (notDue_ite hs (hSettled _))
  case manualCancel ch =>
    refine notDue_admit hs ?_
    cases ch with
    | none => exact hs
    | some ch => exact notDue_ite hs (hSettled _)
  case limitClear => exact notDue_admit hs (notDue_ite hs (hSettled _))
  case linkOn => exact notDue_ite hs (notDue_ite hs (notDue_ite (hSettled _) hs))
  case linkOff => exact notDue_ite hs (notDue_ite hs (notDue_ite hs (notDue_ite hs (notDue_ite hs (hSettled _)))))
  case evalRead => exact notDue_ite hs hs
  case peerRead i => exact notDue_ite hs (hActs (answerPeer_acts i .refl rfl))
  case claimRead i => exact notDue_ite hs (hActs (answerClaim_acts i .refl rfl))
  case noticePop => exact hActs (popNotice_acts .refl rfl rfl)
  case restart => exact notDue_admit hs (finishRestart_notDue (notDue_reply (hSettled _) _ _))
  case restartCompletion => exact finishRestart_notDue hs
  case evalTimerExpiry => exact notDue_ite (evaluate_notDue _) hs
  case bandHoldExpiry => exact notDue_ite (hActs (loseBand_acts .refl rfl rfl)) hs
  case slewStep ch => exact notDue_ite (hSettled _) hs
  case dwellExpiry => exact notDue_ite (hSettled _) hs
  case defrostCycleExpiry => exact notDue_ite (hSettled _) hs
  case followTimeout =>
    refine notDue_ite ?_ hs
    unfold followGivenUp; split
    · exact hSettled _
    · exact hs
  case firePinChange level => exact hs
  case fireFilterExpiry => exact notDue_ite (fireChanges_notDue hs _) hs
  case frameReceived f => exact receiveFrame_notDue hs f
  case receiveError => exact hActs (receiveFault_acts .refl rfl)
  case transmitAttemptStart => exact hActs (beginTransmit_acts .refl rfl)
  case transmitSuccess => exact transmitted_notDue hs
  case waitingRequestTaken x => exact notDue_ite (hActs (takeWaiting_acts x .refl rfl rfl)) hs
  case deferredIntentQueue x => exact notDue_ite (hActs (queueIntent_acts x .refl rfl)) hs
  case arbitrationLost => exact hs
  case transmitFailure => exact transmitFailed_notDue hs
  case quietTimerExpiry => exact notDue_ite hs hs
  case joiningTimerExpiry =>
    exact notDue_ite (requestEvaluation_notDue (hActs (queueBeacon_acts (Acts.refl.number _ rfl) rfl))) hs
  case beaconTimerExpiry => exact notDue_ite (hActs (beaconPeriod_acts .refl rfl)) hs
  case claimHoldoffExpiry x => exact notDue_ite (hSettled _) hs
  case backoffExpiry x => exact notDue_ite (hActs (ite_acts (toIdle_acts _ _ .refl rfl) (beginAttempt_acts _ _ .refl rfl rfl))) hs
  case lockoutExpiry x => exact notDue_ite (hSettled _) hs
  case claimRecordExpiry a x => exact notDue_ite (hActs (removeRecord_acts a x .refl rfl)) hs
  case fireSetExpiry a => exact notDue_ite (hActs (fireGone_acts a .refl rfl rfl rfl)) hs
  case peerStale a => exact notDue_ite (hSettled _) hs
  case peerLost a => exact notDue_ite (hSettled _) hs
  case measurementStale ch => exact notDue_ite (hActs (lapse_acts ch .refl rfl rfl)) hs
  case manualExpired ch =>
    split
    · exact hSettled _
    · exact hs
  case stallTimerExpiry => exact notDue_ite (hSettled _) hs
  case rotPinChange level => exact hs
  case rotFilterExpiry =>
    refine notDue_ite (hActs ?_) hs
    exact ite_acts (rotationPulse_acts (Acts.refl.limits _ rfl) rfl) (Acts.refl.limits _ rfl)

end

/-- Settles O14: an event reports every completion it brings about, and every command is one event. -/
theorem completionsAreReportedWithinTheEvent : Obligations.CompletionsAreReportedWithinTheEvent := by
  intro s t hBefore hs h
  refine (step_keeps (I := fun s => BeforeClose s ∧ completionDue s = false) (fun _ _ h => h) (fun _ _ h => h)
    (fun s hs => ⟨tick_beforeClose hs.1, ?_⟩) (fun c s t hs h => ⟨exec_beforeClose c s t hs.1 h, exec_notDue c hs.1 hs.2 h⟩)
    ⟨hBefore, hs⟩ h).2
  have hDue := hs.2
  rw [tick_eq]
  exact hDue

end Sys2Proof.Machine
end

section
/-! PROOF. The own claim processes and the frames in their slots: what each operation of the Claim Unit leaves them as (R70 to R87, R102). -/

namespace Sys2Proof.Machine

/-! ## Reading after writing -/

theorem resGet_resSet {α : Type} (p : PerResource α) (r x : Resource) (v : α) :
    resGet (resSet p r v) x = if x = r then v else resGet p x := by cases r <;> cases x <;> rfl

theorem procOf_setProc (r x : Resource) (p : Process) (s : State) :
    procOf (setProc r p s) x = if x = r then p else procOf s x := resGet_resSet ..

@[simp] theorem procOf_setProc_same (r : Resource) (p : Process) (s : State) : procOf (setProc r p s) r = p := by
  rw [procOf_setProc, if_pos rfl]

theorem procOf_setProc_other {r x : Resource} (h : x ≠ r) (p : Process) (s : State) : procOf (setProc r p s) x = procOf s x := by
  rw [procOf_setProc, if_neg h]

theorem procOf_congr {s t : State} (h : t.claims = s.claims) (r : Resource) : procOf t r = procOf s r := by rw [procOf, procOf, h]

theorem procOf_congr_proc {s t : State} (h : t.claims.proc = s.claims.proc) (r : Resource) : procOf t r = procOf s r := by
  rw [procOf, procOf, h]

theorem claimIn_congr {s t : State} (h : t.link = s.link) (r : Resource) : claimIn t r = claimIn s r := by rw [claimIn, claimIn, h]

@[simp] theorem procOf_post (b : NoticeBody) (s : State) (r : Resource) : procOf (post b s) r = procOf s r := rfl
@[simp] theorem procOf_setClaimList (l : List ClaimRecord) (s : State) (r : Resource) : procOf (setClaimList l s) r = procOf s r := rfl
@[simp] theorem procOf_removeRecord (a : Nat) (r : Resource) (s : State) (x : Resource) :
    procOf (removeRecord a r s) x = procOf s x := rfl
@[simp] theorem procOf_changeRecord (a : Nat) (r : Resource) (f : ClaimRecord → ClaimRecord) (s : State) (x : Resource) :
    procOf (changeRecord a r f s) x = procOf s x := rfl

theorem procOf_disturb (s : State) (r : Resource) : procOf (disturb s) r = { procOf s r with disturbed := true } := by cases r <;> rfl

theorem procOf_toIdle (r x : Resource) (b : Bool) (s : State) : procOf (toIdle r b s) x =
    if x = r then { procOf s r with state := .idle, attempt := 0, request := b, timer := none, cause := none } else procOf s x :=
  procOf_setProc ..

/-! ## Frames and their slots (R100 to R104) -/

theorem dropFrame_slots (sl : Slot) (l : Link) : (dropFrame sl l).claimSlot = l.claimSlot ∧ (dropFrame sl l).state = l.state
    ∧ (dropFrame sl l).beaconSlot = l.beaconSlot ∧ (dropFrame sl l).alertSlot = l.alertSlot := by
  unfold dropFrame; dsimp only; (repeat' split) <;> exact ⟨rfl, rfl, rfl, rfl⟩

@[simp] theorem dropFrame_claimSlot (sl : Slot) (l : Link) : (dropFrame sl l).claimSlot = l.claimSlot := (dropFrame_slots sl l).1
@[simp] theorem dropFrame_state (sl : Slot) (l : Link) : (dropFrame sl l).state = l.state := (dropFrame_slots sl l).2.1

/-- A claim frame that is placed changes nothing but the link. -/
theorem placeClaim_eq (m : ClaimMsg) (s : State) : placeClaim m s = s.setLink (placeClaim m s).link := by
  unfold placeClaim; split <;> rfl

theorem removeIntent_eq (r : Resource) (s : State) : removeIntent r s = s.setLink (removeIntent r s).link := by
  unfold removeIntent; split <;> rfl

theorem queueIntent_eq (r : Resource) (s : State) : queueIntent r s = s.setLink (queueIntent r s).link := by
  unfold queueIntent; split
  · rfl
  · exact placeClaim_eq _ s

section
variable (m : ClaimMsg) (s : State)

@[simp] theorem placeClaim_claims : (placeClaim m s).claims = s.claims := by rw [placeClaim_eq]; rfl
@[simp] theorem placeClaim_seq : (placeClaim m s).seq = s.seq := by rw [placeClaim_eq]; rfl
@[simp] theorem placeClaim_out : (placeClaim m s).out = s.out := by rw [placeClaim_eq]; rfl
@[simp] theorem placeClaim_port : (placeClaim m s).port = s.port := by rw [placeClaim_eq]; rfl
@[simp] theorem procOf_placeClaim (r : Resource) : procOf (placeClaim m s) r = procOf s r := procOf_congr (placeClaim_claims m s) r

@[simp] theorem placeClaim_linkState : (placeClaim m s).link.state = s.link.state := by
  unfold placeClaim; split
  · rfl
  · exact dropFrame_state ..

theorem placeClaim_of_clashed (h : s.link.state = .clashed) : placeClaim m s = s := if_pos h

theorem claimIn_placeClaim (h : s.link.state ≠ .clashed) (r : Resource) :
    claimIn (placeClaim m s) r = if r = claimResource m then some m else claimIn s r := by
  rw [placeClaim, if_neg h]
  simp only [claimIn, State.setLink_link, resGet_resSet, dropFrame_claimSlot]
  split <;> rfl

end

section
variable (r : Resource) (s : State)

@[simp] theorem removeIntent_claims : (removeIntent r s).claims = s.claims := by rw [removeIntent_eq]; rfl
@[simp] theorem queueIntent_claims : (queueIntent r s).claims = s.claims := by rw [queueIntent_eq]; rfl
@[simp] theorem procOf_removeIntent (x : Resource) : procOf (removeIntent r s) x = procOf s x := procOf_congr (removeIntent_claims r s) x
@[simp] theorem procOf_queueIntent (x : Resource) : procOf (queueIntent r s) x = procOf s x := procOf_congr (queueIntent_claims r s) x

theorem claimIn_removeIntent (x : Resource) :
    claimIn (removeIntent r s) x = if x = r ∧ isIntent (claimIn s r) = true then none else claimIn s x := by
  have hSlot : claimIn (s.setLink (clearClaimSlot r s.link)) x = if x = r then none else claimIn s x := by
    simp only [claimIn, clearClaimSlot, State.setLink_link, resGet_resSet, dropFrame_claimSlot]
    split <;> rfl
  unfold removeIntent
  by_cases h : isIntent (claimIn s r) = true
  · rw [if_pos h, hSlot]; simp [h]
  · rw [if_neg h, if_neg fun hx => h hx.2]

end

/-! ## Claims that are held stay held -/

/-- Every own process that holds its claim in `s` holds it in `t`. -/
structure Holding (s t : State) : Prop where
  held : ∀ r, holds (procOf s r) = true → holds (procOf t r) = true

section
variable {s t u : State}

theorem Holding.refl (s : State) : Holding s s := ⟨fun _ h => h⟩

theorem Holding.trans (h : Holding s t) (h' : Holding t u) : Holding s u :=
  ⟨fun r hr => h'.held r (h.held r hr)⟩

theorem holding_of_claims (h : t.claims = s.claims) : Holding s t := ⟨fun r hr => by rwa [procOf_congr h]⟩

theorem holding_ite {c : Prop} [Decidable c] (ht : Holding s t) (hu : Holding s u) : Holding s (if c then t else u) := by
  split <;> assumption

theorem holding_setProc {r : Resource} {p : Process} (h : holds (procOf s r) = true → holds p = true) : Holding s (setProc r p s) :=
  ⟨fun x hx => by
    rw [procOf_setProc]; split
    next e => subst e; exact h hx
    · exact hx⟩

theorem holding_toIdle {r : Resource} {b : Bool} (h : holds (procOf s r) = false) : Holding s (toIdle r b s) :=
  holding_setProc fun h' => absurd (h.symm.trans h') (by decide)

theorem holds_of_state {p q : Process} (h : q.state = p.state) : holds q = holds p := by simp only [holds, h]

theorem holding_setState {r : Resource} {p : Process} (h : p.state = (procOf s r).state) : Holding s (setProc r p s) :=
  holding_setProc fun h' => (holds_of_state h).trans h'

theorem not_holds_of_state {p : Process} (h : p.state ≠ .held) (h' : p.state ≠ .yielding) : holds p = false := by simp [holds, h, h']

theorem holding_post (b : NoticeBody) (h : Holding s t) : Holding s (post b t) := h.trans ⟨fun _ h => h⟩

theorem holding_disturb (s : State) : Holding s (disturb s) :=
  ⟨fun r hr => by rw [procOf_disturb]; exact hr⟩

theorem holding_forBoth {f : Resource → State → State} (hf : ∀ r s, Holding s (f r s)) (s : State) : Holding s (forBoth f s) :=
  (hf .relief s).trans (hf .defrost _)

theorem holding_thenReport {x : Reported} {f : State → Reported} (hx : Holding s x.1) (hf : ∀ s, Holding s (f s).1) :
    Holding s (thenReport x f).1 := hx.trans (hf _)

end

section
variable (r : Resource) (s : State)

theorem holding_createRecord (e : ClaimRecord) (sender : Nat) : Holding s (createRecord e sender s) := by
  unfold createRecord; split
  · exact ⟨fun _ h => h⟩
  · split
    · exact ⟨fun _ h => h⟩
    · dsimp only; split
      · exact holding_disturb s
      · exact (holding_disturb s).trans ⟨fun _ h => h⟩

theorem holding_yieldProc : Holding s (yieldProc r s).1 :=
  holding_post _ (holding_setProc fun _ => rfl)

theorem holding_overcommitCheck : Holding s (overcommitCheck r s).1 := by
  unfold overcommitCheck; split
  · exact holding_yieldProc r s
  · exact Holding.refl s

theorem holding_checkEntered (a : Nat) : Holding s (checkEntered a r s).1 := by
  unfold checkEntered; split
  · exact holding_overcommitCheck r s
  · exact Holding.refl s

theorem holding_noteMismatch (cap a : Nat) : Holding s (noteMismatch r cap a s) := by
  unfold noteMismatch; dsimp only; split <;> exact ⟨fun _ h => h⟩

theorem holding_takeCapacity (cap a : Nat) : Holding s (takeCapacity r cap a s).1 := by
  have hNote := holding_noteMismatch r s cap a
  unfold takeCapacity; split
  · exact Holding.refl s
  · dsimp only
    generalize noteMismatch r cap a s = u at hNote ⊢
    split
    · exact hNote.trans (Holding.trans (t := u.setClaims { u.claims with capacity := resSet u.claims.capacity r (some cap) })
        ⟨fun _ h => h⟩ (holding_overcommitCheck r _))
    · exact hNote

theorem holding_listIntent (a : Nat) (n : Word32) (amount cls cap : Nat) : Holding s (listIntent a n r amount cls cap s) :=
  holding_ite ⟨fun _ h => h⟩ (holding_createRecord ..)

theorem holding_listHeld (a : Nat) (n : Word32) (amount cap : Nat) : Holding s (listHeld a n r amount cap s) :=
  holding_ite ⟨fun _ h => h⟩ (holding_createRecord ..)

theorem holding_takeClaimFrame (a : Nat) (n : Word32) (m : ClaimMsg) : Holding s (takeClaimFrame a n m s).1 := by
  cases m with
  | intent r amount cls k cap => exact holding_thenReport (holding_takeCapacity ..) fun s => holding_listIntent ..
  | held r amount cap =>
    exact holding_thenReport (holding_takeCapacity ..) fun s => (holding_listHeld r s a n amount cap).trans (holding_checkEntered ..)
  | withdraw | release => exact ⟨fun _ h => h⟩

theorem holding_reconcile (a : Nat) (n : Word32) (cls units : Nat) : Holding s (reconcile a n cls units r s).1 := by
  unfold reconcile; split
  · split
    · exact holding_ite ⟨fun _ h => h⟩ (Holding.refl s)
    · exact Holding.trans (t := changeRecord a r _ s) ⟨fun _ h => h⟩ (holding_checkEntered ..)
  · split
    · exact Holding.refl s
    · exact (holding_createRecord ..).trans (holding_checkEntered ..)

theorem holding_takeBeaconClaims (a : Nat) (n : Word32) (b : BeaconBody) : Holding s (takeBeaconClaims a n b s).1 := by
  unfold takeBeaconClaims
  exact holding_thenReport (Holding.trans (t := setClaimList _ s) ⟨fun _ h => h⟩ (holding_reconcile ..))
    fun s => holding_reconcile ..

theorem holding_beginAttempt {n : Nat} (h : holds (procOf s r) = false) : Holding s (beginAttempt r n s) :=
  (holding_setProc (r := r) (p := { procOf s r with state := .pending, attempt := n, request := false, timer := none, cause := none })
    fun h' => absurd (h.symm.trans h') (by decide)).trans (holding_of_claims (queueIntent_claims ..))

theorem holding_takeWaiting : Holding s (takeWaiting r s) := by
  unfold takeWaiting; dsimp only; split
  next h =>
    simp only [Bool.and_eq_true, decide_eq_true_eq] at h
    exact holding_beginAttempt r s (by rw [holds, h.1.1]; rfl)
  · exact Holding.refl s

theorem holding_placeClaim (m : ClaimMsg) : Holding s (placeClaim m s) := holding_of_claims (placeClaim_claims m s)

theorem holding_removeIntent : Holding s (removeIntent r s) := holding_of_claims (removeIntent_claims r s)

theorem holding_requestClaim : Holding s (requestClaim r s).1 := by
  unfold requestClaim; dsimp only
  cases hst : (procOf s r).state <;> dsimp only
  case idle =>
    have hNot : holds (procOf s r) = false := by rw [holds, hst]; rfl
    split
    · exact Holding.refl s
    · split
      · exact holding_setState hst.symm
      · exact holding_beginAttempt r s hNot
  case releasing | yielding => exact holding_setState hst.symm
  all_goals exact Holding.refl s

theorem holding_afterFailure (h : holds (procOf s r) = false) : Holding s (afterFailure r s).1 := by
  unfold afterFailure; dsimp only; split
  · exact holding_setProc fun h' => absurd (h.symm.trans h') (by decide)
  · exact holding_post _ (holding_setProc fun h' => absurd (h.symm.trans h') (by decide))

theorem holding_failAttempt (why : WithdrawReason) (h : holds (procOf s r) = false) : Holding s (failAttempt r why s).1 :=
  (holding_placeClaim s _).trans (holding_afterFailure r _ (by rwa [procOf_placeClaim]))

theorem holding_decideAttempt (h : holds (procOf s r) = false) : Holding s (decideAttempt r s).1 := by
  unfold decideAttempt; split
  · exact holding_failAttempt r s _ h
  · split
    · exact (holding_setProc fun h' => absurd (h.symm.trans h') (by decide)).trans (holding_placeClaim _ _)
    · exact holding_failAttempt r s _ h

theorem holding_cancelClaim : Holding s (cancelClaim r s) := by
  unfold cancelClaim; dsimp only
  cases hst : (procOf s r).state <;> dsimp only
  case held | yielding | starved => exact Holding.refl s
  case idle | releasing => exact holding_setState hst.symm
  case backoff => exact holding_toIdle (by rw [holds, hst]; rfl)
  case pending => exact (holding_removeIntent r s).trans (holding_toIdle (by rw [procOf_removeIntent, holds, hst]; rfl))
  case holdoff | committing => exact (holding_toIdle (by rw [holds, hst]; rfl)).trans (holding_placeClaim _ _)

theorem holding_ownIntentAppears : Holding s (ownIntentAppears r s) := by
  unfold ownIntentAppears; dsimp only; split
  next h => exact holding_setProc fun h' => absurd h' (by rw [holds, h]; decide)
  · exact Holding.refl s

theorem holding_ownHeldAppears : Holding s (ownHeldAppears r s).1 := by
  unfold ownHeldAppears; dsimp only; split
  · exact Holding.refl s
  · split
    · exact Holding.trans (t := setProc r _ s) (holding_setProc fun _ => rfl) ⟨fun _ h => h⟩
    · exact (holding_setProc fun _ => rfl).trans (holding_yieldProc ..)

theorem holding_ownReleaseAppears : Holding s (ownReleaseAppears r s) := by
  unfold ownReleaseAppears; split
  next h => exact holding_toIdle (by rw [holds, h]; rfl)
  · exact Holding.refl s

theorem holding_takeOwnFrame (n : Word32) (b : FrameBody) : Holding s (takeOwnFrame n b s).1 := by
  unfold takeOwnFrame; dsimp only; split
  · exact (holding_takeClaimFrame s _ n (.release _ _)).trans (holding_ownReleaseAppears ..)
  · split
    · exact Holding.refl s
    · exact (holding_ownIntentAppears ..).trans (holding_takeClaimFrame ..)
  · split
    · exact Holding.refl s
    · exact holding_thenReport (holding_takeClaimFrame ..) fun s => holding_ownHeldAppears ..
  · split
    · exact Holding.refl s
    · exact holding_takeClaimFrame ..
  · split
    · exact Holding.refl s
    · exact holding_takeBeaconClaims ..
  · exact Holding.refl s

theorem holding_freezeProc : Holding s (freezeProc r s) := by
  unfold freezeProc
  cases hst : (procOf s r).state <;> dsimp only
  case pending => exact (holding_removeIntent r s).trans (holding_toIdle (by rw [procOf_removeIntent, holds, hst]; rfl))
  case holdoff => exact (holding_toIdle (by rw [holds, hst]; rfl)).trans (holding_placeClaim _ _)
  all_goals exact Holding.refl s

theorem holding_fireReported (a : Nat) : Holding s (fireReported a s) := by
  have hJoined : Holding s (s.setClaims { s.claims with fireSet := fireJoin a s.now s.claims.fireSet, freeze := true }) :=
    ⟨fun _ h => h⟩
  unfold fireReported; dsimp only; split
  · exact ((holding_post _ hJoined).trans (holding_disturb _)).trans (holding_forBoth holding_freezeProc _)
  · exact hJoined

theorem holding_fireGone (a : Nat) : Holding s (fireGone a s) := by
  have hGone : Holding s (s.setClaims { s.claims with fireSet := [], freeze := false }) := ⟨fun _ h => h⟩
  unfold fireGone; dsimp only; split
  · exact ⟨fun _ h => h⟩
  · exact (holding_post _ hGone).trans (holding_forBoth holding_takeWaiting _)

theorem holding_takeFire (a : Nat) (b : Bool) : Holding s (takeFire a b s) :=
  holding_ite (holding_fireReported s a) (holding_fireGone s a)

theorem holding_fireProc : Holding s (fireProc r s) := by
  unfold fireProc; dsimp only
  cases hst : (procOf s r).state <;> dsimp only
  case held | yielding | starved => exact Holding.refl s
  case idle | releasing => exact holding_setState hst.symm
  case backoff => exact holding_toIdle (by rw [holds, hst]; rfl)
  case pending => exact (holding_removeIntent r s).trans (holding_toIdle (by rw [procOf_removeIntent, holds, hst]; rfl))
  case holdoff | committing => exact (holding_toIdle (by rw [holds, hst]; rfl)).trans (holding_placeClaim _ _)

theorem holding_quietProc : Holding s (quietProc r s).1 := by
  unfold quietProc; dsimp only; split
  next h => exact (holding_removeIntent r s).trans (holding_afterFailure r _ (by rw [holds, h]; rfl))
  · exact holding_removeIntent r s

theorem holding_clashProc : Holding s (clashProc r s).1 := by
  unfold clashProc; dsimp only
  cases hst : (procOf s r).state <;> dsimp only
  case held => exact holding_setProc fun _ => rfl
  case yielding | idle | starved => exact holding_setState hst.symm
  case releasing => exact Holding.trans (t := toIdle r false s) (holding_toIdle (by rw [holds, hst]; rfl)) ⟨fun _ h => h⟩
  all_goals exact holding_toIdle (by rw [holds, hst]; rfl)

end

/-! ## Grants are reported alone, and held (R78, R88) -/

/-- A report of a grant is the only one of its operation, and the process holds its claim. -/
def GrantsHeld (x : Reported) : Prop := ∀ r, .granted r ∈ x.2 → x.2 = [.granted r] ∧ holds (procOf x.1 r) = true

/-- An operation reports no grant. -/
structure NoGrant (x : Reported) : Prop where
  none : ∀ r, ClaimReport.granted r ∉ x.2

section
variable {x : Reported} {s : State} {r : Resource}

theorem NoGrant.grantsHeld (h : NoGrant x) : GrantsHeld x := fun r hr => absurd hr (h.none r)

theorem noGrant_quietly (s : State) : NoGrant (quietly s) := ⟨fun _ => List.not_mem_nil⟩

theorem noGrant_thenReport {f : State → Reported} (hx : NoGrant x) (hf : ∀ s, NoGrant (f s)) : NoGrant (thenReport x f) :=
  ⟨fun r hr => (List.mem_append.1 hr).elim (hx.none r) ((hf _).none r)⟩

theorem noGrant_overcommitCheck (r : Resource) (s : State) : NoGrant (overcommitCheck r s) := by
  unfold overcommitCheck; split
  · exact ⟨fun x hx => by simp [yieldProc] at hx⟩
  · exact noGrant_quietly s

theorem noGrant_checkEntered (a : Nat) (r : Resource) (s : State) : NoGrant (checkEntered a r s) := by
  unfold checkEntered; split
  · exact noGrant_overcommitCheck r s
  · exact noGrant_quietly s

theorem noGrant_takeCapacity (r : Resource) (cap a : Nat) (s : State) : NoGrant (takeCapacity r cap a s) := by
  unfold takeCapacity; split
  · exact noGrant_quietly s
  · dsimp only; split
    · exact noGrant_overcommitCheck ..
    · exact noGrant_quietly _

theorem noGrant_takeClaimFrame (a : Nat) (n : Word32) (m : ClaimMsg) (s : State) : NoGrant (takeClaimFrame a n m s) := by
  cases m with
  | intent => exact noGrant_thenReport (noGrant_takeCapacity ..) fun s => noGrant_quietly _
  | held => exact noGrant_thenReport (noGrant_takeCapacity ..) fun s => noGrant_checkEntered ..
  | withdraw | release => exact noGrant_quietly _

theorem noGrant_reconcile (a : Nat) (n : Word32) (cls units : Nat) (r : Resource) (s : State) :
    NoGrant (reconcile a n cls units r s) := by
  unfold reconcile; split
  · split
    · exact noGrant_quietly _
    · exact noGrant_checkEntered ..
  · split
    · exact noGrant_quietly _
    · exact noGrant_checkEntered ..

theorem noGrant_takeBeaconClaims (a : Nat) (n : Word32) (b : BeaconBody) (s : State) : NoGrant (takeBeaconClaims a n b s) := by
  unfold takeBeaconClaims
  exact noGrant_thenReport (noGrant_reconcile ..) fun s => noGrant_reconcile ..

theorem noGrant_afterFailure (r : Resource) (s : State) : NoGrant (afterFailure r s) := by
  unfold afterFailure; dsimp only; split
  · exact noGrant_quietly _
  · exact ⟨fun x hx => by simp [enterStarved] at hx⟩

theorem noGrant_decideAttempt (r : Resource) (s : State) : NoGrant (decideAttempt r s) := by
  unfold decideAttempt; split
  · exact noGrant_afterFailure ..
  · split
    · exact noGrant_quietly _
    · exact noGrant_afterFailure ..

theorem noGrant_quietProc (r : Resource) (s : State) : NoGrant (quietProc r s) := by
  unfold quietProc; dsimp only; split
  · exact noGrant_afterFailure ..
  · exact noGrant_quietly _

theorem noGrant_clashProc (r : Resource) (s : State) : NoGrant (clashProc r s) := by
  unfold clashProc; dsimp only; split
  · exact ⟨fun x hx => by simp at hx⟩
  all_goals exact noGrant_quietly _

/-- A process that is not HELD passes the overcommit check without a report. -/
theorem overcommitCheck_of_not_held {r : Resource} {s : State} (h : (procOf s r).state ≠ .held) : overcommitCheck r s = (s, []) := by
  simp [overcommitCheck, h, quietly]

/-- A HELD frame checks its own resource's process only: one that is not HELD makes it report nothing. -/
theorem takeClaimFrame_held_quiet {a : Nat} {n : Word32} {amount cap : Nat} (h : (procOf s r).state ≠ .held) :
    (takeClaimFrame a n (.held r amount cap) s).2 = [] ∧
      (procOf (takeClaimFrame a n (.held r amount cap) s).1 r).state = (procOf s r).state := by
  have hCreate : ∀ (e : ClaimRecord) (sender : Nat) u, (procOf (createRecord e sender u) r).state = (procOf u r).state := by
    intro e sender u
    unfold createRecord; split
    · rfl
    · split
      · rfl
      · have hState : (procOf (disturb u) r).state = (procOf u r).state := by rw [procOf_disturb]
        dsimp only; split <;> exact hState
  have hNote : (procOf (noteMismatch r cap a s) r).state = (procOf s r).state := by
    unfold noteMismatch; dsimp only; split <;> rfl
  have hCap : (takeCapacity r cap a s).2 = [] ∧ (procOf (takeCapacity r cap a s).1 r).state = (procOf s r).state := by
    unfold takeCapacity; split
    · exact ⟨rfl, rfl⟩
    · dsimp only; split
      · rw [overcommitCheck_of_not_held (by exact hNote ▸ h)]
        exact ⟨rfl, hNote⟩
      · exact ⟨rfl, hNote⟩
  have hList : ∀ u, (procOf (listHeld a n r amount cap u) r).state = (procOf u r).state := fun u => by
    unfold listHeld; split
    · rfl
    · exact hCreate ..
  have hCheck : ∀ u, (procOf u r).state ≠ .held → checkEntered a r u = (u, []) := fun u hu => by
    unfold checkEntered; split
    · exact overcommitCheck_of_not_held hu
    · rfl
  have hAfter : (procOf (listHeld a n r amount cap (takeCapacity r cap a s).1) r).state = (procOf s r).state := by
    rw [hList, hCap.2]
  show (takeCapacity r cap a s).2 ++ (checkEntered a r (listHeld a n r amount cap (takeCapacity r cap a s).1)).2 = [] ∧
    (procOf (checkEntered a r (listHeld a n r amount cap (takeCapacity r cap a s).1)).1 r).state = _
  rw [hCheck _ (hAfter ▸ h), hCap.1]
  exact ⟨rfl, hAfter⟩

/-- The appearance of an own HELD frame grants its claim alone: only a process that was not HELD before it is granted anything. -/
theorem grantsHeld_ownHeld (a : Nat) (n : Word32) (r : Resource) (amount cap : Nat) (s : State) :
    GrantsHeld (thenReport (takeClaimFrame a n (.held r amount cap) s) (ownHeldAppears r)) := by
  have hAppears : ∀ u, holds (procOf u r) = true → ownHeldAppears r u = quietly u := fun u hu => by
    have hNot : (procOf u r).state ≠ .committing := fun h => by simp [holds, h] at hu
    simp [ownHeldAppears, hNot]
  have hGrant : ∀ u, GrantsHeld (ownHeldAppears r u) := fun u => by
    unfold ownHeldAppears; dsimp only; split
    · exact (noGrant_quietly _).grantsHeld
    · split
      · intro x hx
        simp only [grantClaim, List.mem_singleton, ClaimReport.granted.injEq] at hx
        subst hx
        exact ⟨rfl, by rw [grantClaim, procOf_post, procOf_setProc_same]; rfl⟩
      · exact NoGrant.grantsHeld ⟨fun x hx => by simp [yieldProc] at hx⟩
  by_cases hHeld : (procOf s r).state = .held
  · have hFrame := noGrant_takeClaimFrame a n (.held r amount cap) s
    refine NoGrant.grantsHeld ⟨fun x hx => ?_⟩
    rcases List.mem_append.1 hx with h | h
    · exact hFrame.none x h
    · rw [hAppears _ ((holding_takeClaimFrame s a n _).held r (by rw [holds, hHeld]; rfl))] at h
      cases h
  · obtain ⟨hQuiet, -⟩ := takeClaimFrame_held_quiet (a := a) (n := n) (amount := amount) (cap := cap) hHeld
    intro x hx
    rw [thenReport, hQuiet, List.nil_append] at hx ⊢
    exact hGrant _ x hx

theorem grantsHeld_takeOwnFrame (n : Word32) (b : FrameBody) (s : State) : GrantsHeld (takeOwnFrame n b s) := by
  unfold takeOwnFrame; dsimp only; split
  · exact (noGrant_quietly _).grantsHeld
  · split
    · exact (noGrant_quietly _).grantsHeld
    · exact (noGrant_takeClaimFrame ..).grantsHeld
  next r amount cap =>
    split
    · exact (noGrant_quietly _).grantsHeld
    · exact grantsHeld_ownHeld _ n r amount cap s
  · split
    · exact (noGrant_quietly _).grantsHeld
    · exact (noGrant_takeClaimFrame ..).grantsHeld
  · split
    · exact (noGrant_quietly _).grantsHeld
    · exact (noGrant_takeBeaconClaims ..).grantsHeld
  · exact (noGrant_quietly _).grantsHeld

end

end Sys2Proof.Machine
end

section
/-! PROOF. FREE and DEFROST are backed by held claims: a mode is entered, and a ramp toward it started, only where its claim is held, and
the Sequencer releases no hold that the present mode needs (R33, R40, R41, R43, R49, R53). -/

namespace Sys2Proof.Machine

/-! ## The invariant, mode by mode -/

/-- Outside a RESTART the own process of what a mode needs holds its claim. -/
def HeldFor (s : State) (m : Mode) : Prop := s.port.restarting = false → ModeHeld s m

/-- `ModeBacked`, each of its parts under the premise that no RESTART waits. -/
structure Backed (s : State) : Prop where
  present : ∀ m, s.seq.mode = some m → HeldFor s m
  ahead : ∀ x p, s.seq.transition = some x → s.seq.phase = some p → pastClaiming p = true → HeldFor s x.target
  recorded : ∀ x, s.seq.record = some x → s.seq.phase = some .suspended → x.interrupted ≠ .claiming → HeldFor s x.target

theorem modeBacked_iff (s : State) : ModeBacked s ↔ Backed s := by
  constructor
  · exact fun h => ⟨fun m hm hr => (h hr).1 m hm, fun x p hx hp hpast hr => (h hr).2.1 x p hx hp hpast,
      fun x hx hp hi hr => (h hr).2.2 x hx hp hi⟩
  · exact fun h hr => ⟨fun m hm => h.present m hm hr, fun x p hx hp hpast => h.ahead x p hx hp hpast hr,
      fun x hx hp hi => h.recorded x hx hp hi hr⟩

/-- `t` has the Sequencer where it stood in `s`, and every claim held that was held there. -/
structure Keeps (s t : State) : Prop extends Holding s t where
  restarting : t.port.restarting = s.port.restarting
  mode : t.seq.mode = s.seq.mode
  phase : t.seq.phase = s.seq.phase
  transition : t.seq.transition = s.seq.transition
  record : t.seq.record = s.seq.record

/-- Every part but the claims, the Sequencer and the RESTART that waits. -/
def Part.elsewhere : Part → Bool := fun p => p != .claims && p != .seq && p != .restarting

/-- The parts that the Claim Unit's operations can change. -/
def Part.claimUnit : Part → Bool := fun p => p == .claims || p == .link || p == .notices

section
variable {s t u : State}

theorem Keeps.trans (h : Keeps s t) (h' : Keeps t u) : Keeps s u where
  toHolding := h.toHolding.trans h'.toHolding
  restarting := h'.restarting.trans h.restarting
  mode := h'.mode.trans h.mode
  phase := h'.phase.trans h.phase
  transition := h'.transition.trans h.transition
  record := h'.record.trans h.record

theorem keeps_of_acts (h : Acts Part.elsewhere s t) : Keeps s t := by
  have hSeq := h.seq_eq rfl
  exact ⟨holding_of_claims (h.claims_eq rfl), h.restarting_eq rfl, by rw [hSeq], by rw [hSeq], by rw [hSeq], by rw [hSeq]⟩

theorem keeps_of_claimUnit (h : Acts Part.claimUnit s t) (hh : Holding s t) : Keeps s t := by
  have hSeq := h.seq_eq rfl
  exact ⟨hh, h.restarting_eq rfl, by rw [hSeq], by rw [hSeq], by rw [hSeq], by rw [hSeq]⟩

theorem keeps_setSeq {q : Sequencer} (hm : q.mode = s.seq.mode) (hp : q.phase = s.seq.phase) (ht : q.transition = s.seq.transition)
    (hr : q.record = s.seq.record) : Keeps s (s.setSeq q) := ⟨⟨fun _ h => h⟩, rfl, hm, hp, ht, hr⟩

theorem keeps_post (b : NoticeBody) (s : State) : Keeps s (post b s) := keeps_of_acts (Acts.refl.post b rfl)

theorem keeps_postSet (d : DemandSet) (s : State) : Keeps s (postSet d s) :=
  ⟨holding_of_claims (postSet_claims d s), by rw [postSet_port], by rw [postSet_seq], by rw [postSet_seq], by rw [postSet_seq],
    by rw [postSet_seq]⟩

theorem keeps_setLink (l : Link) (s : State) : Keeps s (s.setLink l) := keeps_of_acts (Acts.refl.number l rfl)

theorem HeldFor.keeps {m : Mode} (h : HeldFor s m) (hk : Holding s t) (hr : t.port.restarting = s.port.restarting) : HeldFor t m :=
  fun hRun r hm => hk.held r (h (hr ▸ hRun) r hm)

theorem heldFor_of_unclaimed {m : Mode} (h : claimFor m = none) : HeldFor s m := fun _ r hr => absurd (h.symm.trans hr) (by simp)

theorem Backed.keeps (hs : Backed s) (h : Keeps s t) : Backed t where
  present m hm := (hs.present m (h.mode ▸ hm)).keeps h.toHolding h.restarting
  ahead x p hx hp hpast := (hs.ahead x p (h.transition ▸ hx) (h.phase ▸ hp) hpast).keeps h.toHolding h.restarting
  recorded x hx hp hi := (hs.recorded x (h.record ▸ hx) (h.phase ▸ hp) hi).keeps h.toHolding h.restarting

theorem Backed.acts (hs : Backed s) (h : Acts Part.elsewhere s t) : Backed t := hs.keeps (keeps_of_acts h)

theorem Backed.ite {c : Prop} [Decidable c] {a b : State} (ha : Backed a) (hb : Backed b) : Backed (if c then a else b) := by
  split <;> assumption

theorem Backed.reply (hs : Backed s) (st : ReplyStatus) (d : ReplyData) : Backed (reply st d s) := hs.acts (Acts.refl.reply _ rfl)

/-- The present mode's claim is held. -/
def PresentHeld (s : State) : Prop := ∀ m, s.seq.mode = some m → HeldFor s m

theorem PresentHeld.keeps (hs : PresentHeld s) (hk : Holding s t) (hr : t.port.restarting = s.port.restarting)
    (hm : t.seq.mode = s.seq.mode) : PresentHeld t := fun m h => (hs m (hm ▸ h)).keeps hk hr

theorem PresentHeld.seq (hs : PresentHeld s) (q : Sequencer) (h : q.mode = s.seq.mode) : PresentHeld (s.setSeq q) :=
  hs.keeps ⟨fun _ h => h⟩ rfl h

/-! ## Phases (R27, R33 to R36) -/

/-- A state at rest, with no transition under way and not suspended, is backed as soon as its present mode is. -/
theorem backed_of_still (hm : PresentHeld s) (ht : s.seq.transition = none ∨ ∀ p, s.seq.phase = some p → pastClaiming p = false)
    (hp : s.seq.phase ≠ some .suspended ∨ s.seq.record = none) : Backed s where
  present := hm
  ahead x p hx hphase hpast := by
    rcases ht with h | h
    · rw [h] at hx; cases hx
    · rw [h p hphase] at hpast; cases hpast
  recorded x hx hphase hi := by
    rcases hp with h | h
    · exact absurd hphase h
    · rw [h] at hx; cases hx

theorem enterRamping_backed {m : Mode} (hs : PresentHeld s) (ht : ∀ x, s.seq.transition = some x → x.target = m)
    (hm : HeldFor s m) : Backed (enterRamping m s) := by
  have hk : Holding s (enterRamping m s) := holding_of_claims (enterRamping_claims m s)
  have hr : (enterRamping m s).port.restarting = s.port.restarting := by rw [enterRamping_port]
  refine ⟨hs.keeps hk hr (by rw [enterRamping_seq]), fun x p hx _ _ => ?_, fun x _ hp _ => ?_⟩
  · rw [enterRamping_seq] at hx
    rw [ht x hx]
    exact hm.keeps hk hr
  · rw [enterRamping_seq] at hp
    cases hp

theorem setPhase_presentHeld (p : Phase) (hs : PresentHeld s) : PresentHeld (setPhase p s) :=
  hs.keeps (holding_of_claims (setPhase_claims p s)) (by rw [setPhase_port]) (by rw [setPhase_seq])

theorem enterWaitOrRamp_backed {m : Mode} (f : Bool) (hs : PresentHeld s) (ht : ∀ x, s.seq.transition = some x → x.target = m)
    (hm : HeldFor s m) : Backed (enterWaitOrRamp m f s) := by
  unfold enterWaitOrRamp; dsimp only; split
  · exact enterRamping_backed hs ht hm
  · generalize hq : ({ s.seq with waitSet := _, followTimer := _ } : Sequencer) = q
    have hMode : q.mode = s.seq.mode := by rw [← hq]
    have hTrans : q.transition = s.seq.transition := by rw [← hq]
    have hk : Holding s (setPhase .followWait (s.setSeq q)) := holding_of_claims (setPhase_claims ..)
    have hr : (setPhase .followWait (s.setSeq q)).port.restarting = s.port.restarting := by rw [setPhase_port]; rfl
    refine ⟨hs.keeps hk hr (by rw [setPhase_seq]; exact hMode), fun x p hx _ _ => ?_, fun x _ hp _ => ?_⟩
    · rw [setPhase_seq] at hx
      rw [ht x (hTrans ▸ hx)]
      exact hm.keeps hk hr
    · rw [setPhase_seq] at hp
      cases hp

theorem enterFirstPhase_backed {m : Mode} (f : Bool) (hs : PresentHeld s) (ht : ∀ x, s.seq.transition = some x → x.target = m) :
    Backed (enterFirstPhase m f s) := by
  unfold enterFirstPhase
  split
  next r hr =>
    split
    next hHeld =>
      refine enterWaitOrRamp_backed f hs ht fun _ x hx => ?_
      obtain rfl := Option.some.inj (hr.symm.trans hx)
      rw [holds, hHeld]; rfl
    · have hSeq := ClaimActs.seq (requestClaim_claimActs r (setPhase .claiming s))
      have hPort := ClaimActs.port (requestClaim_claimActs r (setPhase .claiming s))
      have hPresent : PresentHeld (requestClaim r (setPhase .claiming s)).1 :=
        (setPhase_presentHeld .claiming hs).keeps (holding_requestClaim r _) (by rw [hPort]) (by rw [hSeq])
      refine backed_of_still hPresent (.inr fun p hp => ?_) (.inl ?_)
      · rw [hSeq, setPhase_seq] at hp
        cases hp; rfl
      · rw [hSeq, setPhase_seq]; exact nofun
  next hNone => exact enterWaitOrRamp_backed f hs ht (heldFor_of_unclaimed hNone)

theorem beginTransition_backed (m : Mode) (f : Bool) (hs : PresentHeld s) : Backed (beginTransition m f s) :=
  enterFirstPhase_backed f (hs.seq _ rfl) fun x hx => by cases hx; rfl

theorem startTest_backed (hs : Backed s) : Backed (startTest s) := by
  unfold startTest; split
  · exact hs
  · exact Backed.ite (beginTransition_backed _ _ hs.present) hs

theorem exitTest_backed (hs : Backed s) : Backed (exitTest s) := Backed.ite (beginTransition_backed _ _ hs.present) hs

theorem afterSettled_backed (hs : Backed s) : Backed (afterSettled s) := exitTest_backed (startTest_backed hs)

/-! ## Releases, cancels and aborts (R41, R43, R45) -/

/-- A hold is released only where the mode named does not need it. -/
theorem releaseUnless_holds {m : Option Mode} {r x : Resource} (hx : m.bind claimFor = some x) (h : holds (procOf s x) = true) :
    holds (procOf (releaseUnless m r s) x) = true := by
  have hOther : ∀ y, x ≠ y → procOf (releaseClaim y s) x = procOf s x := fun y hy => by
    unfold releaseClaim; dsimp only; split
    · rw [procOf_placeClaim, procOf_setProc_other hy]
    · split
      · rw [procOf_removeRecord, procOf_toIdle, if_neg hy]
      · rw [procOf_placeClaim, procOf_setProc_other hy]
    · rfl
  unfold releaseUnless; split
  next hc =>
    simp only [Bool.and_eq_true, bne_iff_ne, ne_eq] at hc
    rw [hOther r fun e => hc.2 (e ▸ hx)]
    exact h
  · exact h

theorem releaseUnneeded_holds {m : Option Mode} {x : Resource} (hx : m.bind claimFor = some x) (h : holds (procOf s x) = true) :
    holds (procOf (releaseUnneeded m s) x) = true := releaseUnless_holds hx (releaseUnless_holds hx h)

theorem releaseUnneeded_heldFor {m : Mode} (h : HeldFor s m) : HeldFor (releaseUnneeded (some m) s) m := fun hr x hx =>
  releaseUnneeded_holds (m := some m) hx (h (by rwa [releaseUnneeded_port] at hr) x hx)

theorem releaseUnneeded_presentHeld (hs : PresentHeld s) : PresentHeld (releaseUnneeded s.seq.mode s) := fun m hm => by
  rw [releaseUnneeded_seq] at hm
  rw [hm]
  exact releaseUnneeded_heldFor (hs m hm)

theorem toSettled_backed (hs : PresentHeld s) : Backed (toSettled s) := by
  have hPresent : PresentHeld (toSettled s) :=
    hs.keeps (holding_of_claims (toSettled_claims s)) (by rw [toSettled_port]) (by rw [toSettled_seq])
  refine backed_of_still hPresent (.inl ?_) (.inl ?_) <;> rw [toSettled_seq]
  exact nofun

theorem keeps_cancelRequest (s : State) : Keeps s (cancelRequest s) := by
  unfold cancelRequest; split
  · exact keeps_of_acts .refl
  · split
    · exact keeps_of_acts .refl
    · exact keeps_of_claimUnit (cancelClaim_acts _ .refl rfl rfl) (holding_cancelClaim ..)

theorem cancelTransition_backed (hs : PresentHeld s) : Backed (cancelTransition s) := by
  have hk := keeps_cancelRequest s
  have hCancelled : PresentHeld (cancelRequest s) := hs.keeps hk.toHolding hk.restarting hk.mode
  have hReleased : PresentHeld (releaseUnneeded s.seq.mode (cancelRequest s)) := by
    rw [← hk.mode]; exact releaseUnneeded_presentHeld hCancelled
  exact toSettled_backed (hReleased.seq _ rfl)

theorem abandon_backed (m : Mode) (hs : PresentHeld s) : Backed (abandon m s) := by
  have h1 : PresentHeld (endWait s) := hs.seq _ rfl
  exact afterSettled_backed ((toSettled_backed h1).keeps (keeps_post _ _))

theorem abortToSafe_backed (hs : PresentHeld s) : Backed (abortToSafe s) := by
  have hk : Keeps s (forBoth cancelClaim s) :=
    keeps_of_claimUnit (forBoth_acts (fun _ _ h => cancelClaim_acts _ h rfl rfl) .refl) (holding_forBoth holding_cancelClaim s)
  have h1 : PresentHeld (endWait (forBoth cancelClaim s)) := (hs.keeps hk.toHolding hk.restarting hk.mode).seq _ rfl
  unfold abortToSafe
  exact enterRamping_backed (h1.seq _ rfl) (fun x hx => by cases hx; rfl) (heldFor_of_unclaimed rfl)

/-! ## Evaluation records and forced leave (R42 to R50) -/

theorem runningUpdate_backed (hs : Backed s) : Backed (runningUpdate s) := by
  have hPost : ∀ d, Backed (postSet d s) := fun d => hs.keeps (keeps_postSet d s)
  unfold runningUpdate; (repeat' split) <;> first | exact hs | exact hPost _

theorem updateCandidate_keeps (m : Mode) (s : State) : Keeps s (updateCandidate m s) := by
  unfold updateCandidate; split <;> exact keeps_setSeq rfl rfl rfl rfl

theorem desireAgainst_backed (x : Transition) (hs : Backed s) : Backed (desireAgainst x s) := by
  unfold desireAgainst; split
  · exact hs
  · exact hs.ite (Backed.ite (abortToSafe_backed hs.present) (hs.ite (afterSettled_backed (cancelTransition_backed hs.present))))

theorem takeRecord_backed (hs : Backed s) : Backed (takeRecord s) := by
  unfold takeRecord; split
  · exact hs
  next m _ =>
    have h1 := hs.keeps (updateCandidate_keeps m s)
    refine hs.ite ?_
    dsimp only; split
    · exact startTest_backed (runningUpdate_backed h1)
    · exact h1
    · exact desireAgainst_backed _ h1
    · exact h1

theorem leaveNow_backed (m : Mode) (hs : PresentHeld s)
    (hst : s.seq.transition = none ∨ ∀ p, s.seq.phase = some p → pastClaiming p = false)
    (hp : s.seq.phase ≠ some .suspended ∨ s.seq.record = none) : Backed (leaveNow m s) := by
  have h1 : PresentHeld (clearCandidate (s.setSeq { s.seq with forcedPending := none })) := (hs.seq _ rfl).seq _ rfl
  unfold leaveNow; dsimp only; split
  · exact beginTransition_backed _ _ h1
  · exact afterSettled_backed (backed_of_still h1 hst hp)

theorem leaveNow_backed_of_mode {m : Mode} (hs : PresentHeld s) (hm : s.seq.mode = some m) : Backed (leaveNow m s) := by
  have h1 : PresentHeld (clearCandidate (s.setSeq { s.seq with forcedPending := none })) := (hs.seq _ rfl).seq _ rfl
  unfold leaveNow; dsimp only
  rw [if_pos (by exact hm)]
  exact beginTransition_backed _ _ h1

theorem forceLeave_backed (m : Mode) (hs : Backed s) : Backed (forceLeave m s) := by
  have hLater : Backed (leaveLater m s) := hs.keeps
    ((keeps_setSeq (q := { s.seq with forcedPending := some m }) rfl rfl rfl rfl).trans (keeps_setSeq rfl rfl rfl rfl))
  have hWait : Backed (if s.seq.mode = some m then leaveNow m (endWait (cancelRequest s))
      else if targetOf s = some m then afterSettled (clearCandidate (cancelTransition s)) else s) := by
    split
    next hm =>
      have hk := keeps_cancelRequest s
      refine leaveNow_backed_of_mode ((PresentHeld.keeps hs.present hk.toHolding hk.restarting hk.mode).seq _ rfl) ?_
      exact hk.mode.trans hm
    · exact Backed.ite (afterSettled_backed ((cancelTransition_backed hs.present).keeps (keeps_setSeq rfl rfl rfl rfl))) hs
  unfold forceLeave
  refine hs.ite ?_
  dsimp only
  split
  · split
    next hm => exact leaveNow_backed_of_mode hs.present hm
    · exact hs
  · exact hWait
  · exact hWait
  · exact Backed.ite hLater hs
  · exact Backed.ite hLater hs
  · exact hs

theorem linkLost_backed (hs : Backed s) : Backed (linkLost s) :=
  Backed.ite (forceLeave_backed _ (forceLeave_backed _ hs)) (forceLeave_backed _ (forceLeave_backed _ hs))

/-! ## Ramp completion (R40) -/

theorem enterMode_holding (m : Mode) (s : State) : Holding s (enterMode m s) := by
  unfold enterMode
  exact holding_post _ ((holding_of_claims (t := s.setSeq _) rfl).trans (holding_of_claims (setMode_claims ..)))

theorem enterMode_restarting (m : Mode) (s : State) : (enterMode m s).port.restarting = s.port.restarting := by
  show (setMode m _).port.restarting = _
  rw [setMode_port]; rfl

theorem arrived_presentHeld {m : Mode} (hm : HeldFor s m) : PresentHeld (arrived m s) := by
  have hSettle : ∀ u, HeldFor u m → HeldFor (toSettled u) m := fun u hu =>
    hu.keeps (holding_of_claims (toSettled_claims u)) (by rw [toSettled_port])
  intro x hx
  obtain rfl : m = x := Option.some.inj ((arrived_spec m s).mode.symm.trans hx)
  by_cases h : s.seq.mode = some m
  · rw [arrived_of_back h]
    exact hSettle _ (releaseUnneeded_heldFor hm)
  · rw [arrived_of_new h, defrostTimers_eq]
    exact hSettle _ ((releaseUnneeded_heldFor (hm.keeps (enterMode_holding m s) (enterMode_restarting m s))).keeps ⟨fun _ h => h⟩ rfl)

theorem arrived_seq_still (m : Mode) (s : State) :
    (arrived m s).seq.transition = none ∧ (arrived m s).seq.phase = some .settled := by
  by_cases h : s.seq.mode = some m
  · rw [arrived_of_back h, toSettled_seq]; exact ⟨rfl, rfl⟩
  · rw [arrived_of_new h, toSettled_seq]; exact ⟨rfl, rfl⟩

theorem rampCompleted_backed {m : Mode} (hm : HeldFor s m) : Backed (rampCompleted m s) := by
  have hPresent := arrived_presentHeld hm
  obtain ⟨hTrans, hPhase⟩ := arrived_seq_still m s
  have hNot : (arrived m s).seq.phase ≠ some .suspended := by rw [hPhase]; exact nofun
  cases hf : (arrived m s).seq.forcedPending with
  | some a => rw [rampCompleted_of_forced hf]; exact leaveNow_backed a hPresent (.inl hTrans) (.inl hNot)
  | none => rw [rampCompleted_of_free hf]; exact afterSettled_backed (backed_of_still hPresent (.inl hTrans) (.inl hNot))

theorem reportOnce_backed (hs : Backed s) : Backed (reportOnce s) := by
  have hTaken : Backed (s.setOut { s.out with completionPending := false }) :=
    hs.keeps ⟨⟨fun _ h => h⟩, rfl, rfl, rfl, rfl, rfl⟩
  refine Backed.ite ?_ hs
  unfold takeCompletion; split
  · exact hTaken
  next x hx =>
    split
    next hc =>
      simp only [Bool.and_eq_true, decide_eq_true_eq] at hc
      obtain ⟨⟨-, hPhase⟩, -⟩ := hc
      exact rampCompleted_backed (hTaken.ahead x .ramping hx hPhase rfl)
    · exact hTaken

theorem settleRamps_backed (hs : Backed s) : Backed (settleRamps s) := by
  suffices h : ∀ n s, Backed s → Backed (reportAll n s) from h 8 s hs
  intro n
  induction n with
  | zero => exact fun _ h => h
  | succ n ih => exact fun s h => Backed.ite (ih _ (reportOnce_backed h)) h

/-! ## Reports of the other blocks -/

theorem takeClaimReport_backed {x : ClaimReport} (hs : Backed s) (hx : ∀ r, x = .granted r → holds (procOf s r) = true) :
    Backed (takeClaimReport x s) := by
  unfold takeClaimReport
  refine hs.ite ?_
  dsimp only
  split
  next r =>
    split
    next y hy =>
      have hClaim : s.seq.transition = some y ∧ claimFor y.target = some r := by
        split at hy
        · obtain ⟨z, hz, hIf⟩ := Option.bind_eq_some_iff.1 hy
          split at hIf
          next hr => cases hIf; exact ⟨hz, hr⟩
          · cases hIf
        · cases hy
      obtain ⟨hTrans, hr⟩ := hClaim
      refine enterWaitOrRamp_backed _ hs.present (fun z hz => ?_) fun _ q hq => ?_
      · rw [Option.some.inj (hTrans.symm.trans hz)]
      · obtain rfl := Option.some.inj (hr.symm.trans hq)
        exact hx r rfl
    · exact hs
  · split
    · exact abandon_backed _ hs.present
    · exact hs
  · exact forceLeave_backed _ hs
  · exact hs
  · exact startTest_backed hs

theorem takeClaimReports_backed (l : List ClaimReport) (hl : ∀ r, ClaimReport.granted r ∉ l) (hs : Backed s) :
    Backed (takeClaimReports l s) := by
  induction l generalizing s with
  | nil => exact hs
  | cons x rest ih =>
    exact ih (fun r hr => hl r (.tail _ hr)) (takeClaimReport_backed hs fun r hr => absurd (hr ▸ List.mem_cons_self) (hl r))

theorem reported_backed {x : Reported} (hs : Backed x.1) (hx : GrantsHeld x) : Backed (reported x) := by
  by_cases h : ∃ r, ClaimReport.granted r ∈ x.2
  · obtain ⟨r, hr⟩ := h
    obtain ⟨hOnly, hHeld⟩ := hx r hr
    rw [reported, hOnly]
    show Backed (takeClaimReport (.granted r) x.1)
    exact takeClaimReport_backed hs fun q hq => by cases hq; exact hHeld
  · exact takeClaimReports_backed _ (fun r hr => h ⟨r, hr⟩) hs

theorem waitTest_backed (hs : Backed s) : Backed (waitTest s) := by
  unfold waitTest; split
  next x hx =>
    split
    next hc =>
      simp only [Bool.and_eq_true, decide_eq_true_eq] at hc
      exact enterRamping_backed hs.present (fun y hy => by rw [Option.some.inj (hx.symm.trans hy)]) (hs.ahead x _ hx hc.1 rfl)
    · exact hs
  · exact hs

theorem takePeerReports_backed (l : List PeerReport) (hs : Backed s) : Backed (takePeerReports l s) := by
  induction l generalizing s with
  | nil => exact hs
  | cons x rest ih =>
    refine ih (hs.ite ?_)
    cases x with
    | updated a => exact Backed.ite (waitTest_backed hs) hs
    | gone a => exact Backed.ite (waitTest_backed (hs.keeps (keeps_setSeq rfl rfl rfl rfl))) hs

/-! ## FIRE and the Sequencer (R51 to R54) -/

/-- The record that a suspension makes of the transition it interrupts (R51). -/
def suspensionOf (s : State) : Option Suspension :=
  match s.seq.transition, s.seq.phase with
  | some x, some p =>
    if p = .settled then none
    else some { target := x.target, interrupted := p, forced := x.forced, start := s.now
                relief := (procOf s .relief).state, defrost := (procOf s .defrost).state }
  | _, _ => none

theorem suspensionOf_eq_some {s : State} {x : Suspension} (h : suspensionOf s = some x) : ∃ y p, s.seq.transition = some y
    ∧ s.seq.phase = some p ∧ p ≠ .settled ∧ x = { target := y.target, interrupted := p, forced := y.forced, start := s.now
                                                  relief := (procOf s .relief).state, defrost := (procOf s .defrost).state } := by
  unfold suspensionOf at h
  split at h
  next y p hy hp =>
    split at h
    · cases h
    next hNot => exact ⟨y, p, hy, hp, hNot, (Option.some.inj h).symm⟩
  · cases h

/-- The Sequencer's state in SUSPENDED (R51). -/
def suspendedSeq (s : State) : Sequencer :=
  { s.seq with phase := some .suspended, record := suspensionOf s, transition := none, rampPosting := none, waitSet := []
               followTimer := none }

theorem suspend_of_suspended {s : State} (h : s.seq.phase = some .suspended ∨ s.seq.phase = none) : suspend s = s := by
  unfold suspend; rcases h with h | h <;> simp [h]

theorem suspend_eq {s : State} (h : s.seq.phase ≠ some .suspended) (h' : s.seq.phase ≠ none) :
    suspend s = setPhase .suspended (s.setSeq { s.seq with
      record := suspensionOf s, transition := none, rampPosting := none, waitSet := [], followTimer := none }) := by
  unfold suspend
  rw [if_neg (by simp [h, h'])]
  rfl

theorem suspend_seq {s : State} (h : s.seq.phase ≠ some .suspended) (h' : s.seq.phase ≠ none) :
    (suspend s).seq = suspendedSeq s := by rw [suspend_eq h h', setPhase_seq]; rfl

theorem suspend_claims (s : State) : (suspend s).claims = s.claims := by
  by_cases h : s.seq.phase ≠ some .suspended ∧ s.seq.phase ≠ none
  · rw [suspend_eq h.1 h.2, setPhase_claims]; rfl
  · rw [suspend_of_suspended (by by_cases h1 : s.seq.phase = some .suspended <;> simp_all)]

theorem suspend_port (s : State) : (suspend s).port = s.port := by
  by_cases h : s.seq.phase ≠ some .suspended ∧ s.seq.phase ≠ none
  · rw [suspend_eq h.1 h.2, setPhase_port]; rfl
  · rw [suspend_of_suspended (by by_cases h1 : s.seq.phase = some .suspended <;> simp_all)]

/-- The record that a suspension makes of a transition past CLAIMING is of one whose claim is held (R51). -/
theorem suspend_backed (hs : Backed s) : Backed (suspend s) := by
  by_cases h : s.seq.phase = some .suspended ∨ s.seq.phase = none
  · rw [suspend_of_suspended h]; exact hs
  obtain ⟨hNot, hSome⟩ := not_or.1 h
  have hSeq := suspend_seq hNot hSome
  have hk : Holding s (suspend s) := holding_of_claims (suspend_claims s)
  have hr : (suspend s).port.restarting = s.port.restarting := by rw [suspend_port]
  refine ⟨PresentHeld.keeps hs.present hk hr (by rw [hSeq]; rfl), fun x p hx _ _ => ?_, fun x hx _ hi => ?_⟩
  · rw [hSeq] at hx; cases hx
  · rw [hSeq] at hx
    obtain ⟨y, p, hy, hp, hp', rfl⟩ := suspensionOf_eq_some hx
    refine (hs.ahead y p hy hp ?_).keeps hk hr
    have hSusp : p ≠ .suspended := fun e => hNot (e ▸ hp)
    cases p <;> first | rfl | exact absurd rfl hp' | exact absurd rfl hi | exact absurd rfl hSusp

theorem dropRecord_presentHeld (x : Suspension) (hs : PresentHeld s) : PresentHeld (dropRecord x s) :=
  hs.keeps ⟨fun _ h => h⟩ rfl rfl

theorem resume_backed {x : Suspension} (hs : Backed s) (hx : s.seq.record = some x) (hp : s.seq.phase = some .suspended) :
    Backed (resume x s) := by
  unfold resume
  generalize hq : ({ s.seq with record := none, transition := some { target := x.target, forced := x.forced } } : Sequencer) = q
  have hMode : q.mode = s.seq.mode := by rw [← hq]
  have hTarget : ∀ y, q.transition = some y → y.target = x.target := fun y hy => by rw [← hq] at hy; cases hy; rfl
  have hPresent : PresentHeld (post (.resumed x.target) (s.setSeq q)) := PresentHeld.keeps hs.present ⟨fun _ h => h⟩ rfl hMode
  have hHeld : x.interrupted ≠ .claiming → HeldFor (post (.resumed x.target) (s.setSeq q)) x.target := fun hi =>
    (hs.recorded x hx hp hi).keeps ⟨fun _ h => h⟩ rfl
  have hFirst := enterFirstPhase_backed x.forced hPresent hTarget
  dsimp only; split
  · exact Backed.ite (abandon_backed _ hFirst.present) hFirst
  next hi => exact enterWaitOrRamp_backed _ hPresent hTarget (hHeld (by rw [hi]; exact nofun))
  next hi _ => exact enterRamping_backed hPresent hTarget (hHeld hi)

theorem rampBack_backed (hs : PresentHeld s) (hst : s.seq.mode = none → Backed s) : Backed (rampBack s) := by
  unfold rampBack; split
  next h => exact hst h
  next m hm => exact enterRamping_backed (hs.seq _ rfl) (fun x hx => by cases hx; rfl) (hs m hm)

/-- The demand set is posted again, where there is one (R53). -/
def reposted (s : State) : State :=
  match s.seq.demands with
  | none => s
  | some d => postSet d s

theorem releaseSettled_backed (hs : Backed s) : Backed (releaseSettled s) := by
  have h1 : Backed (setPhase .settled s) := by
    refine backed_of_still (setPhase_presentHeld _ hs.present) (.inr fun p hp => ?_) (.inl ?_)
    · rw [setPhase_seq] at hp; cases hp; rfl
    · rw [setPhase_seq]; exact nofun
  have hPhase1 : (setPhase .settled s).seq.phase = some .settled := by rw [setPhase_seq]
  have h2 : Backed (reposted (setPhase .settled s)) ∧ (reposted (setPhase .settled s)).seq.phase = some .settled := by
    unfold reposted; split
    · exact ⟨h1, hPhase1⟩
    next d _ => exact ⟨h1.keeps (keeps_postSet d _), by rw [postSet_seq]; exact hPhase1⟩
  obtain ⟨hBacked, hPhase⟩ := h2
  unfold releaseSettled
  refine Backed.ite (exitTest_backed hBacked) ?_
  show Backed (match (reposted (setPhase .settled s)).seq.forcedPending with
    | some m => leaveNow m (reposted (setPhase .settled s))
    | none => startTest (reposted (setPhase .settled s)))
  split
  · exact leaveNow_backed _ hBacked.present (.inr fun p hp => by rw [hPhase] at hp; cases hp; rfl)
      (.inl (by rw [hPhase]; exact nofun))
  · exact startTest_backed hBacked

theorem resumeOrSettle_backed (hs : Backed s) : Backed (resumeOrSettle s) := by
  unfold resumeOrSettle
  split
  · exact hs
  next hp =>
    have hPhase : s.seq.phase = some .suspended := by simpa using hp
    split
    · refine beginTransition_backed _ _ ?_
      split
      · exact dropRecord_presentHeld _ hs.present
      · exact hs.present
    · split
      · exact releaseSettled_backed hs
      next x hx =>
        have hDropped := dropRecord_presentHeld x hs.present
        have hBack : Backed (rampBack (dropRecord x s)) := rampBack_backed hDropped fun _ =>
          backed_of_still hDropped (.inr fun p hp => by rw [show (dropRecord x s).seq.phase = s.seq.phase from rfl, hPhase] at hp; cases hp; rfl)
            (.inr rfl)
        exact Backed.ite hBack (Backed.ite (resume_backed hs hx hPhase) hBack)

/-! ## Limits and evaluations -/

theorem moveLimit_backed (n : LimitName) (v : LimitState) (b : NoticeBody) (hs : Backed s) : Backed (moveLimit n v b s) := by
  have hFollow : ∀ {u}, Backed u → Backed (followHold u) := fun {u} hu => by
    have h1 : Backed (u.setLimits { u.limits with hold := holdNow u.cfg u.limits }) := hu.acts (Acts.refl.limits _ rfl)
    exact Backed.ite (startTest_backed h1) h1
  have hGuards : ∀ {u}, Backed u → Backed (postGuards u) := fun {u} hu =>
    hu.ite (hu.acts (setGuards_acts _ (Acts.refl.limits _ rfl) rfl rfl rfl))
  have h1 : Backed (s.setLimits (setLimit n v s.limits)) := hs.acts (Acts.refl.limits _ rfl)
  unfold moveLimit
  exact hFollow (hGuards (h1.ite (h1.keeps (keeps_post b _))))

theorem judge_backed (n : LimitName) (trip v : Int) (src : TripSource) (hs : Backed s) : Backed (judge n trip v src s) := by
  unfold judge; split
  · exact Backed.ite (moveLimit_backed _ _ _ hs) hs
  · exact Backed.ite (moveLimit_backed _ _ _ hs) hs

theorem takeEstimate_backed (hs : Backed s) : Backed (takeEstimate s) := by
  unfold takeEstimate; split
  · exact hs
  · exact hs.ite (judge_backed _ _ _ _ hs)

theorem stallFound_backed (hs : Backed s) : Backed (stallFound s) := moveLimit_backed _ _ _ (hs.acts (Acts.refl.limits _ rfl))

theorem clearStall_backed (hs : Backed s) : Backed (clearStall s) := by
  have h1 := moveLimit_backed .stall .clear (.limitCleared .stall .command) hs
  exact Backed.ite (h1.acts (Acts.refl.limits _ rfl)) h1

theorem evaluate_backed (hs : Backed s) : Backed (evaluate s) := by
  have hSeq : ∀ {u}, Backed u → Backed (handToSequencer u) := fun hu => settleRamps_backed (takeRecord_backed hu)
  have hLim : ∀ {u}, Backed u → Backed (handToLimits u) := fun hu => settleRamps_backed (takeEstimate_backed hu)
  have h1 : Backed (makeRecord s) := hs.acts (makeRecord_acts .refl rfl rfl rfl)
  unfold evaluate unordered; dsimp only
  exact Backed.ite (hLim (hSeq h1))
    (Backed.ite ((hLim (hSeq h1)).acts (Acts.refl.choices _ rfl)) ((hSeq (hLim h1)).acts (Acts.refl.choices _ rfl)))

theorem requestEvaluation_backed (hs : Backed s) : Backed (requestEvaluation s) := Backed.ite (evaluate_backed hs) hs

end

end Sys2Proof.Machine
end

section
/-! PROOF. Every command keeps FREE and DEFROST backed by held claims (R40, R41, R49, R53, R80). -/

namespace Sys2Proof.Machine

section
variable {s t : State}

/-! ## Starting and restarting (R28, R29, R212, R213) -/

theorem backed_of_restarting (h : s.port.restarting = true) : Backed s := by
  have hNo : ∀ m, HeldFor s m := fun m hr => absurd (h.symm.trans hr) (by decide)
  exact ⟨fun m _ => hNo m, fun x _ _ _ _ => hNo _, fun x _ _ _ => hNo _⟩

/-- The Sequencer in SAFE with no transition and no record needs no claim. -/
theorem backed_of_safe (hm : s.seq.mode = some .safe) (ht : s.seq.transition = none) (hr : s.seq.record = none) : Backed s :=
  backed_of_still (fun m h => by cases hm.symm.trans h; exact heldFor_of_unclaimed rfl) (.inl ht) (.inr hr)

theorem sequencerStart_seq (s : State) : (sequencerStart s).seq =
    { Sequencer.reset with mode := some .safe, phase := some .settled, demands := some (safeSet s.cfg) } := by
  rw [sequencerStart, postSet_seq]; rfl

theorem sequencerStart_backed (s : State) : Backed (sequencerStart s) :=
  backed_of_safe (by rw [sequencerStart_seq]) (by rw [sequencerStart_seq]; rfl) (by rw [sequencerStart_seq]; rfl)

theorem assertFire_backed (hs : Backed s) : Backed (assertFire s) := by
  have hProcs : ∀ {u}, Backed u → Backed (forBoth fireProc u) := fun {u} hu =>
    hu.keeps (keeps_of_claimUnit (forBoth_acts (fun x _ h => fireProc_acts x h rfl rfl) .refl) (holding_forBoth holding_fireProc u))
  have h1 : Backed (if running s then forBoth fireProc (suspend s) else s) := Backed.ite (hProcs (suspend_backed hs)) hs
  exact settleRamps_backed (h1.acts (outputsFireAsserted_acts .refl rfl rfl rfl rfl))

theorem assertIfFire_backed (hs : Backed s) : Backed (assertIfFire s) := Backed.ite (assertFire_backed hs) hs

theorem releaseFire_backed (hs : Backed s) : Backed (releaseFire s) := by
  have h1 : Backed (settleRamps (outputsFireReleased s)) :=
    settleRamps_backed (hs.acts (outputsFireReleased_acts .refl rfl rfl rfl rfl))
  have hWaiting : ∀ {u}, Backed u → Backed (forBoth takeWaiting u) := fun {u} hu => hu.keeps
    (keeps_of_claimUnit (forBoth_acts (fun x _ h => takeWaiting_acts x h rfl rfl) .refl) (holding_forBoth holding_takeWaiting u))
  exact Backed.ite (requestEvaluation_backed (settleRamps_backed (resumeOrSettle_backed (hWaiting h1)))) h1

theorem fireChanges_backed (hs : Backed s) (level : Bool) : Backed (fireChanges level s) := by
  have h1 : Backed (s.setOut { s.out with fireFiltered := level, fireSince := none }) :=
    hs.keeps ⟨⟨fun _ h => h⟩, rfl, rfl, rfl, rfl, rfl⟩
  have h2 := h1.acts (queueAlert_acts .refl rfl)
  exact h1.ite (Backed.ite (assertFire_backed h2) (releaseFire_backed h2))

theorem closeConfig_backed (s : State) : Backed (closeConfig s) := by
  unfold closeConfig
  exact (assertIfFire_backed (settleRamps_backed (sequencerStart_backed _))).acts (Acts.reply _ (postAll_acts _ .refl rfl) rfl)

/-- Every part but the RESTART that waits. -/
def Part.unrestarted : Part → Bool := fun p => p != .restarting

theorem acceptRestart_restarting (s : State) : (acceptRestart s).port.restarting = true := by
  have hp : Sequences Part.unrestarted := ⟨rfl, rfl, rfl, rfl, rfl, rfl⟩
  have h0 : Acts Part.unrestarted (s.setPort { s.port with restarting := true }) _ := .refl
  have h1 := forBoth_acts (fun x _ h => restartProc_acts x h rfl rfl) (h0.number (linkRestart s.link) rfl)
  unfold acceptRestart
  exact (settleRamps_acts (sequencerRestart_acts (dropManual_acts (Acts.band _ (Acts.decision _ h1 rfl) rfl) rfl rfl rfl) hp) hp).restarting_eq rfl

theorem completeRestart_backed (s : State) : Backed (completeRestart s) := by
  unfold completeRestart
  refine assertIfFire_backed (settleRamps_backed ?_)
  exact backed_of_safe (by rw [State.setPort_seq]; exact congrArg Sequencer.mode (sequencerStart_seq _))
    (congrArg Sequencer.transition (sequencerStart_seq _)) (congrArg Sequencer.record (sequencerStart_seq _))

theorem finishRestart_backed (hs : Backed s) : Backed (finishRestart s) := Backed.ite (completeRestart_backed s) hs

/-! ## The line (R93 to R111) -/

theorem disturbFrom_keeps (was : LinkState) (s : State) : Keeps s (disturbFrom was s) :=
  keeps_of_claimUnit (disturbFrom_acts was .refl rfl) (holding_ite (holding_disturb s) (Holding.refl s))

theorem enterOffline_backed (hs : Backed s) : Backed (enterOffline s) := by
  unfold enterOffline
  exact settleRamps_backed (linkLost_backed ((hs.keeps (keeps_setLink _ s)).keeps (disturbFrom_keeps ..)))

theorem enterQuiet_backed (k : FrameKind) (hs : Backed s) : Backed (enterQuiet k s) := by
  unfold enterQuiet
  refine settleRamps_backed (reported_backed ?_ (noGrant_thenReport (noGrant_quietProc ..) fun u => noGrant_quietProc ..).grantsHeld)
  refine (((hs.keeps (keeps_setLink _ s)).keeps (keeps_post _ _)).keeps (disturbFrom_keeps ..)).keeps (keeps_of_claimUnit
    (thenReport_acts (quietProc_acts _ .refl rfl rfl rfl) fun u h => quietProc_acts _ h rfl rfl rfl)
    (holding_thenReport (holding_quietProc ..) fun u => holding_quietProc ..))

theorem enterClashed_backed (k : FrameKind) (shaft : Nat) (hs : Backed s) : Backed (enterClashed k shaft s) := by
  unfold enterClashed
  refine settleRamps_backed (linkLost_backed (reported_backed ?_
    (noGrant_thenReport (noGrant_clashProc ..) fun u => noGrant_clashProc ..).grantsHeld))
  refine (((hs.keeps (keeps_setLink _ s)).keeps (keeps_post _ _)).keeps (disturbFrom_keeps ..)).keeps (keeps_of_claimUnit
    (thenReport_acts (clashProc_acts _ .refl rfl) fun u h => clashProc_acts _ h rfl)
    (holding_thenReport (holding_clashProc ..) fun u => holding_clashProc ..))

theorem takeFire_keeps (a : Nat) (b : Bool) (s : State) : Keeps s (takeFire a b s) :=
  keeps_of_claimUnit (takeFire_acts a b .refl rfl rfl rfl) (holding_takeFire s a b)

theorem handToClaims_backed (a : Nat) (b : FrameBody) (hs : Backed s) : Backed (handToClaims a b s) := by
  cases b with
  | claim m =>
    exact settleRamps_backed (reported_backed
      (hs.keeps (keeps_of_claimUnit (takeClaimFrame_acts a _ m .refl rfl rfl) (holding_takeClaimFrame ..)))
      (noGrant_takeClaimFrame ..).grantsHeld)
  | beacon x =>
    refine settleRamps_backed (reported_backed ?_
      (noGrant_thenReport (noGrant_takeBeaconClaims ..) fun u => noGrant_quietly _).grantsHeld)
    exact (hs.keeps (keeps_of_claimUnit (takeBeaconClaims_acts a _ x .refl rfl rfl) (holding_takeBeaconClaims ..))).keeps
      (takeFire_keeps ..)
  | alert y => exact hs.keeps (takeFire_keeps ..)

theorem handToFilters_backed (a shaft : Nat) (b : FrameBody) (hs : Backed s) : Backed (handToFilters a shaft b s) := by
  cases b with
  | claim m => exact hs
  | beacon x =>
    exact Backed.ite (settleRamps_backed (takePeerReports_backed _ (hs.acts (peerBeacon_acts a shaft x .refl rfl rfl)))) hs
  | alert y => exact Backed.ite (hs.acts (peerAlert_acts a y.fireOn .refl rfl)) hs

theorem receiveFrame_backed (f : LineFrame) (hs : Backed s) : Backed (receiveFrame f s) := by
  have hNumbered : Backed (numberFrame s) := hs.keeps (keeps_setLink _ s)
  unfold receiveFrame processFrame handOn
  split
  · exact hs
  · refine Backed.ite (Backed.ite (Backed.ite hNumbered (enterClashed_backed _ _ hNumbered)) (Backed.ite hNumbered ?_)) hs
    split
    · exact hNumbered
    · exact Backed.ite (handToFilters_backed _ _ _ (handToClaims_backed _ _ hNumbered)) (handToFilters_backed _ _ _ hNumbered)

theorem transmitted_backed (hs : Backed s) : Backed (transmitted s) := by
  unfold transmitted; split
  · exact hs
  next a _ =>
    have h1 := (hs.keeps (keeps_setLink { emptySlot a.slot (abortAttempt s.link) with
      failCount := 0, failSlot := none, sequence := s.link.sequence + 1 } s)).acts
        (followUp_acts s.link.beaconMark s.link.alertMark a.slot .refl rfl)
    exact settleRamps_backed (reported_backed
      (h1.keeps (keeps_of_claimUnit (takeOwnFrame_acts _ a.body .refl rfl rfl) (holding_takeOwnFrame ..))) (grantsHeld_takeOwnFrame _ _ _))

theorem transmitFailed_backed (hs : Backed s) : Backed (transmitFailed s) := by
  unfold transmitFailed; split
  · exact hs
  · exact Backed.ite (enterQuiet_backed _ hs) (hs.keeps (keeps_setLink _ s))

theorem writeMeas_backed (ch : MeasChannel) (v : Option Int) (hs : Backed s) : Backed (writeMeas ch v s) := by
  unfold writeMeas
  cases v with
  | none =>
    have hStored : Backed (storeNone ch s) := hs.acts (Acts.refl.meas _ rfl)
    have hVerdict : Backed (clearVerdict (storeNone ch s)) := Backed.ite (hStored.acts (Acts.refl.band _ rfl)) hStored
    refine Backed.reply ?_ _ _
    cases ch with
    | probeT | probeW => exact hVerdict
    | _ => exact hStored
  | some x =>
    have hStored : Backed (storeValue ch x s) := hs.acts (Acts.refl.meas _ rfl)
    refine (settleRamps_backed ?_).reply _ _
    cases ch with
    | supplyT => exact judge_backed _ _ _ _ hStored
    | exhaustT => exact judge_backed _ _ _ _ hStored
    | _ => exact hStored

/-! ## Every command -/

theorem admit_backed {f : State → State} (hs : Backed s) (hf : Backed (f s)) : Backed (admitOperating f s) :=
  Backed.ite (hs.reply _ _) (Backed.ite (hs.reply _ _) hf)

theorem setManual_backed (ch : Channel) (m : Option Manual) (hs : Backed s) : Backed (setManual ch m s) :=
  hs.acts (setManual_acts ch m .refl rfl rfl rfl)

/-- A process whose timer has run out in a state without a hold: what becomes of it, no claim is lost. -/
theorem procDue_not_holds {r : Resource} {st : ProcState} (h : procDue s r st = true) (hst : st ≠ .held) (hst' : st ≠ .yielding) :
    holds (procOf s r) = false := by
  simp only [procDue, Bool.and_eq_true, decide_eq_true_eq] at h
  exact not_holds_of_state (h.1.2 ▸ hst) (h.1.2 ▸ hst')

theorem exec_backed (c : Instr) (hs : Backed s) (h : exec c s = .next t) : Backed t := by
  have hActs : ∀ {u}, Acts Part.elsewhere s u → Backed u := fun hu => hs.acts hu
  have hUnit : ∀ {u}, Acts Part.claimUnit s u → Holding s u → Backed u := fun hu hh => hs.keeps (keeps_of_claimUnit hu hh)
  cases c <;> cases h
  case powerOnReset => exact backed_of_still (fun m hm => by cases hm) (.inl rfl) (.inr rfl)
  case transactionDiscarded | badCommand | statusRead | identRead => exact hActs (Acts.refl.reply _ rfl)
  case cfgWrite w =>
    have hSet : ∀ c, Backed (s.setPort { s.port with cfg := c }) := fun c => hs.keeps ⟨⟨fun _ h => h⟩, rfl, rfl, rfl, rfl, rfl⟩
    refine Backed.ite (hs.reply _ _) (Backed.ite (hs.reply _ _) ?_)
    split
    · exact (hSet _).reply _ _
    · exact hs.reply _ _
  case cfgRead item => split <;> exact hs.reply _ _
  case cfgClose => exact Backed.ite (hs.reply _ _) (Backed.ite (hs.reply _ _) (closeConfig_backed s))
  case measWrite ch v =>
    refine Backed.ite (hs.reply _ _) ?_
    cases ch with
    | none => exact hs.reply _ _
    | some ch => exact writeMeas_backed ch v hs
  case setpointWrite v => exact admit_backed hs ((hActs (Acts.refl.decision _ rfl)).reply _ _)
  case sourceSelect src =>
    refine admit_backed hs ?_
    cases src with
    | none => exact hs.reply _ _
    | some x => exact Backed.ite ((hActs (Acts.refl.band _ rfl)).reply _ _) (hs.reply _ _)
  case manualPost ch position duration =>
    refine admit_backed hs ?_
    cases ch with
    | none => exact hs.reply _ _
    | some ch =>
      exact Backed.ite (hs.reply _ _) (Backed.ite (hs.reply _ _) ((settleRamps_backed (setManual_backed ch _ hs)).reply _ _))
  case manualCancel ch =>
    refine admit_backed hs ?_
    cases ch with
    | none => exact hs.reply _ _
    | some ch => exact Backed.ite (hs.reply _ _) ((settleRamps_backed (setManual_backed ch _ hs)).reply _ _)
  case limitClear => exact admit_backed hs (Backed.ite (hs.reply _ _) ((settleRamps_backed (clearStall_backed hs)).reply _ _))
  case linkOn =>
    refine Backed.ite (hActs (Acts.reply _ (Acts.refl.number _ rfl) rfl)) (Backed.ite (hs.reply _ _) (Backed.ite ?_ (hs.reply _ _)))
    exact (settleRamps_backed (startTest_backed (hActs (enterJoining_acts .refl rfl)))).reply _ _
  case linkOff =>
    refine Backed.ite (hActs (Acts.reply _ (Acts.refl.number _ rfl) rfl)) (Backed.ite (hs.reply _ _) (Backed.ite (hs.reply _ _)
      (Backed.ite (hs.reply _ _) (Backed.ite (hs.reply _ _) ((enterOffline_backed hs).reply _ _)))))
  case evalRead => exact hActs (admitClosed_acts .refl rfl (Acts.refl.reply _ rfl))
  case peerRead i => exact hActs (admitClosed_acts .refl rfl (answerPeer_acts i .refl rfl))
  case claimRead i => exact hActs (admitClosed_acts .refl rfl (answerClaim_acts i .refl rfl))
  case noticePop => exact hActs (popNotice_acts .refl rfl rfl)
  case restart => exact admit_backed hs (finishRestart_backed ((backed_of_restarting (acceptRestart_restarting s)).reply _ _))
  case restartCompletion => exact finishRestart_backed hs
  case evalTimerExpiry => exact Backed.ite (evaluate_backed (hActs (Acts.refl.decision _ rfl))) hs
  case bandHoldExpiry => exact Backed.ite (hActs (loseBand_acts .refl rfl rfl)) hs
  case slewStep ch => exact Backed.ite (settleRamps_backed (hActs (slewOnce_acts ch .refl rfl rfl))) hs
  case dwellExpiry => exact Backed.ite (settleRamps_backed (startTest_backed (hs.keeps (keeps_setSeq rfl rfl rfl rfl)))) hs
  case defrostCycleExpiry => exact Backed.ite (settleRamps_backed (exitTest_backed (hs.keeps (keeps_setSeq rfl rfl rfl rfl)))) hs
  case followTimeout =>
    split
    next hDue =>
      simp only [followDue, Bool.and_eq_true, decide_eq_true_eq] at hDue
      obtain ⟨⟨-, hPhase⟩, -⟩ := hDue
      unfold followGivenUp; split
      next x hx =>
        refine settleRamps_backed (enterRamping_backed ?_ (fun y hy => by rw [Option.some.inj (hx.symm.trans hy)]) ?_)
        · exact PresentHeld.keeps hs.present ⟨fun _ h => h⟩ rfl rfl
        · exact (hs.ahead x _ hx hPhase rfl).keeps ⟨fun _ h => h⟩ rfl
      · exact hs
    · exact hs
  case firePinChange level => exact hs.keeps ⟨⟨fun _ h => h⟩, rfl, rfl, rfl, rfl, rfl⟩
  case fireFilterExpiry => exact Backed.ite (fireChanges_backed hs _) hs
  case frameReceived f => exact receiveFrame_backed f hs
  case receiveError => exact Backed.ite (hUnit (disturb_acts .refl rfl) (holding_disturb s)) hs
  case transmitAttemptStart => exact hActs (beginTransmit_acts .refl rfl)
  case transmitSuccess => exact transmitted_backed hs
  case waitingRequestTaken x => exact Backed.ite (hUnit (takeWaiting_acts x .refl rfl rfl) (holding_takeWaiting ..)) hs
  case deferredIntentQueue x => exact Backed.ite (hActs (queueIntent_acts x .refl rfl)) hs
  case arbitrationLost => exact hActs (Acts.refl.number _ rfl)
  case transmitFailure => exact transmitFailed_backed hs
  case quietTimerExpiry => exact Backed.ite (hActs (leaveQuiet_acts .refl rfl rfl)) hs
  case joiningTimerExpiry =>
    exact Backed.ite (requestEvaluation_backed (hActs (queueBeacon_acts (Acts.refl.number _ rfl) rfl))) hs
  case beaconTimerExpiry => exact Backed.ite (hActs (beaconPeriod_acts .refl rfl)) hs
  case claimHoldoffExpiry x =>
    split
    next hDue =>
      exact settleRamps_backed (reported_backed
        (hUnit (decideAttempt_acts x .refl rfl rfl rfl) (holding_decideAttempt x s (procDue_not_holds hDue (by decide) (by decide))))
        (noGrant_decideAttempt x s).grantsHeld)
    · exact hs
  case backoffExpiry x =>
    split
    next hDue =>
      have hNot := procDue_not_holds hDue (by decide) (by decide)
      exact hUnit (ite_acts (toIdle_acts _ _ .refl rfl) (beginAttempt_acts _ _ .refl rfl rfl))
        (holding_ite (holding_toIdle hNot) (holding_beginAttempt x s hNot))
    · exact hs
  case lockoutExpiry x =>
    split
    next hDue =>
      refine settleRamps_backed (reported_backed ?_ (NoGrant.grantsHeld ⟨fun r hr => by simp at hr⟩))
      exact hUnit (toIdle_acts _ _ .refl rfl) (holding_toIdle (procDue_not_holds hDue (by decide) (by decide)))
    · exact hs
  case claimRecordExpiry a x => exact Backed.ite (hUnit (removeRecord_acts a x .refl rfl) ⟨fun _ h => h⟩) hs
  case fireSetExpiry a => exact Backed.ite (hUnit (fireGone_acts a .refl rfl rfl rfl) (holding_fireGone s a)) hs
  case peerStale a =>
    exact Backed.ite (settleRamps_backed (takePeerReports_backed _ (hActs (peerGoesStale_acts a .refl rfl)))) hs
  case peerLost a =>
    exact Backed.ite (settleRamps_backed (takePeerReports_backed _ (hActs (losePeer_acts a _ .refl rfl rfl)))) hs
  case measurementStale ch => exact Backed.ite (hActs (lapse_acts ch .refl rfl rfl)) hs
  case manualExpired ch =>
    split
    · exact settleRamps_backed (setManual_backed ch none (hs.keeps (keeps_post _ s)))
    · exact hs
  case stallTimerExpiry => exact Backed.ite (settleRamps_backed (stallFound_backed hs)) hs
  case rotPinChange level => exact hActs (Acts.limits _ (Acts.refl.rotPin level rfl) rfl)
  case rotFilterExpiry =>
    refine Backed.ite (hActs ?_) hs
    exact ite_acts (rotationPulse_acts (Acts.refl.limits _ rfl) rfl) (Acts.refl.limits _ rfl)

end

/-- Settles O13: a mode is entered where its claim is held, and no operation releases the hold of the present mode or of a transition past
CLAIMING. -/
theorem modesAreBackedByHeldClaims : Obligations.ModesAreBackedByHeldClaims := by
  intro s t hs h
  refine (modeBacked_iff t).2 (step_keeps (I := Backed) ?_ ?_ ?_ (fun c s t hs h => exec_backed c hs h) ((modeBacked_iff s).1 hs) h)
  · exact fun s q hs => hs.keeps ⟨⟨fun _ h => h⟩, rfl, rfl, rfl, rfl, rfl⟩
  · exact fun s n hs => hs.acts (Acts.refl.choices n rfl)
  · intro s hs
    rw [tick_eq]
    exact hs.keeps ⟨⟨fun _ h => h⟩, rfl, rfl, rfl, rfl, rfl⟩

end Sys2Proof.Machine
end

section
/-! PROOF. The power-on state, the reads and refusals of the Local Port, setpoint and source, and the notice queue (R7, R141, R158, R159,
R162, R173, R196, R197, R206 to R211). -/

namespace Sys2Proof.Machine

/-! ## Power-on (R211) -/

theorem sound_reset : Sound State.reset where
  before := fun _ => ⟨rfl, rfl, rfl, rfl, rfl, rfl, rfl, rfl, rfl, rfl, rfl, rfl, rfl⟩
  notices := ⟨Nat.zero_le _, rfl, nofun⟩
  peers := peersSound_nil rfl
  claims := ⟨Nat.zero_le _, List.Pairwise.nil, nofun, rfl⟩
  wheel := rfl
  jumps := jumpsMade_of_no_aims fun ch => by cases ch <;> rfl

theorem modeBacked_reset : ModeBacked State.reset :=
  (modeBacked_iff _).2 (backed_of_still (fun m hm => by cases hm) (.inl rfl) (.inr rfl))

/-- Settles O5: the power-on state is written out, and its demands are none. -/
theorem powerOnResetGivesTheSoundResetState : Obligations.PowerOnResetGivesTheSoundResetState := by
  refine ⟨fun s => ⟨powerOn s, rfl, rfl, rfl, rfl, rfl, rfl, rfl, rfl, rfl, rfl, rfl, rfl, rfl, rfl, rfl⟩,
    rfl, rfl, rfl, rfl, rfl, sound_reset, powerOn_inRange State.reset, modeBacked_reset, rfl⟩

/-! ## Reads (R141, R206, R207) -/

theorem answerPeer_of_lt {s : State} {n : Nat} {p : PeerRecord} (hn : n ≤ 31) (hp : s.peers.records[n]? = some p) :
    answerPeer n s = reply .ok (.peer (some (shownPeer p)) s.peers.records.length) s := by
  simp [answerPeer, hn, hp]

theorem answerPeer_of_le {s : State} {n : Nat} (h : s.peers.records.length ≤ n ∨ 31 < n) :
    answerPeer n s = reply (.refused .badIndex) (.peer none s.peers.records.length) s := by
  unfold answerPeer; dsimp only
  rcases h with h | h
  · rw [List.getElem?_eq_none h, ite_self]
  · rw [if_neg (Nat.not_le.2 h)]

theorem answerClaim_of_lt {s : State} {n : Nat} {c : ClaimRecord} (hn : n ≤ 31) (hc : s.claims.list[n]? = some c) :
    answerClaim n s = reply .ok (.claim (some (shownClaim c)) s.claims.list.length) s := by
  simp [answerClaim, hn, hc]

theorem answerClaim_of_le {s : State} {n : Nat} (h : s.claims.list.length ≤ n ∨ 31 < n) :
    answerClaim n s = reply (.refused .badIndex) (.claim none s.claims.list.length) s := by
  unfold answerClaim; dsimp only
  rcases h with h | h
  · rw [List.getElem?_eq_none h, ite_self]
  · rw [if_neg (Nat.not_le.2 h)]

theorem uptime_toNat (s : State) : (uptime s).toNat = s.now / 1000 % 2 ^ 32 := by
  simp [uptime, BitVec.toNat_ofNat]

theorem admitClosed_of_closed {s : State} (h : s.port.closed = true) (f : State → State) : admitClosed f s = f s := by
  simp [admitClosed, h]

/-- Settles O16: each read is a reply, PEER READ and CLAIM READ by whether the index names a record. -/
theorem readsAnswerAndChangeNothingElse : Obligations.ReadsAnswerAndChangeNothingElse := by
  intro s
  refine ⟨rfl, rfl, rfl, ⟨statusReport s, rfl, rfl, rfl, uptime_toNat s, rfl, rfl, rfl, rfl, rfl, rfl, rfl, rfl, rfl, rfl, rfl, rfl⟩,
    fun hClosed => ⟨congrArg Host.Outcome.next (admitClosed_of_closed hClosed _), fun n => ⟨?peer, ?claim⟩⟩⟩
  case peer =>
    have hExec : exec (.peerRead n) s = .next (answerPeer n s) := congrArg Host.Outcome.next (admitClosed_of_closed hClosed _)
    by_cases h : n < s.peers.records.length ∧ n ≤ 31
    · have hp := List.getElem?_eq_getElem h.1
      rw [hExec, answerPeer_of_lt h.2 hp, hp]
      exact ⟨_, _, rfl, fun _ => ⟨rfl, rfl, rfl⟩, fun h' => by omega⟩
    · rw [hExec, answerPeer_of_le (by omega)]
      exact ⟨_, _, rfl, fun h' => absurd h' h, fun _ => ⟨rfl, rfl⟩⟩
  case claim =>
    have hExec : exec (.claimRead n) s = .next (answerClaim n s) := congrArg Host.Outcome.next (admitClosed_of_closed hClosed _)
    by_cases h : n < s.claims.list.length ∧ n ≤ 31
    · have hc := List.getElem?_eq_getElem h.1
      rw [hExec, answerClaim_of_lt h.2 hc, hc]
      exact ⟨_, _, rfl, fun _ => ⟨rfl, rfl, rfl, rfl⟩, fun h' => by omega⟩
    · rw [hExec, answerClaim_of_le (by omega)]
      exact ⟨_, _, rfl, fun h' => absurd h' h, fun _ => ⟨rfl, rfl⟩⟩

/-! ## Admission (R197) -/

theorem admitOperating_of_waiting {s : State} (hc : s.port.closed = true) (hr : s.port.restarting = true) (f : State → State) :
    admitOperating f s = refuse .restarting s := by simp [admitOperating, hc, hr]

theorem admitOperating_of_running {s : State} (hc : s.port.closed = true) (hr : s.port.restarting = false) (f : State → State) :
    admitOperating f s = f s := by simp [admitOperating, hc, hr]

/-- Settles O17: every command named makes one of the two tests of R197 first. -/
theorem commandsAreRefusedBeforeCloseAndInRestart : Obligations.CommandsAreRefusedBeforeCloseAndInRestart := by
  intro c s
  constructor
  · intro hc hOpen
    cases c <;> cases hc
    case measWrite.refl | evalRead.refl | peerRead.refl | claimRead.refl => exact congrArg Host.Outcome.next (admitClosed_of_open hOpen _)
    all_goals exact congrArg Host.Outcome.next (admitOperating_of_open hOpen _)
  · intro hc hClosed hWaits
    cases c <;> cases hc
    case linkOn.refl | linkOff.refl =>
      refine congrArg Host.Outcome.next ?_
      rw [if_neg (by simp [hClosed]), if_pos hWaits]
      rfl
    all_goals exact congrArg Host.Outcome.next (admitOperating_of_waiting hClosed hWaits _)

/-! ## Setpoint and source (R7, R158, R159) -/

theorem setpointClamp_eq (v : Int) : setpointClamp v = max 120 (min 250 v) := by
  unfold setpointClamp clampInt
  split
  · omega
  · split <;> omega

/-- A source is live when it gives a value (R150, R158). -/
theorem sourceLive_iff (s : State) (x : OutdoorSource) :
    sourceLive s x = (sourceValue x (ownQuality s) (ownReading s) (peerSamples s) s.now).isSome := by
  unfold sourceLive sourceValue
  cases x with
  | band =>
    by_cases hq : ownQuality s = .valid
    · simp [hq]
    · cases peerSamples s <;> simp [hq]
  | ownFirst =>
    by_cases hq : ownQuality s = .valid
    · simp [hq]
    · cases peerSamples s <;> simp [hq]
  | ownOnly => by_cases hq : ownQuality s = .valid <;> simp [hq]

/-- Settles O25: a found value is what makes a source live. -/
theorem setpointAndSourceAreTaken : Obligations.SetpointAndSourceAreTaken := by
  intro s
  refine ⟨fun hClosed hRun => ⟨fun v => ?setpoint, ?unnamed, fun x => ?source⟩, ?value, ?origin⟩
  case setpoint =>
    refine congrArg Host.Outcome.next ((admitOperating_of_running hClosed hRun _).trans ?_)
    have hStatus : okOrClamped (setpointClamp v != v) = if 120 ≤ v ∧ v ≤ 250 then ReplyStatus.ok else .clamped := by
      unfold okOrClamped
      rw [setpointClamp_eq]
      by_cases h : 120 ≤ v ∧ v ≤ 250
      · rw [if_pos h, if_neg (by simp; omega)]
      · rw [if_neg h, if_pos (by simp; omega)]
    rw [hStatus, setpointClamp_eq]
    rfl
  case unnamed => exact congrArg Host.Outcome.next (admitOperating_of_running hClosed hRun _)
  case source =>
    have hLive := sourceLive_iff s x
    have hExec : ∀ {t}, (if sourceLive s x then replyOk (s.setBand { s.band with source := x }) else refuse .sourceNotLive s) = t →
        exec (.sourceSelect (some x)) s = .next t := fun ht =>
      congrArg Host.Outcome.next ((admitOperating_of_running hClosed hRun _).trans ht)
    refine ⟨fun hFound => hExec ?_, fun hNone => hExec ?_⟩
    · rw [if_pos (by rw [hLive]; exact Option.isSome_iff_ne_none.2 hFound)]
      rfl
    · rw [if_neg (by rw [hLive, hNone]; decide)]
      rfl
  case value => unfold readInputs; dsimp only; cases s.decision.setpoint <;> rfl
  case origin => unfold readInputs; dsimp only; cases s.decision.setpoint <;> simp

end Sys2Proof.Machine
end

section
/-! PROOF. The notice queue, the guard demands and the configuration record (R117, R118, R186, R187, R199 to R202, R208, R210). -/

namespace Sys2Proof.Machine

/-! ## The notice queue (R208, R210) -/

theorem dropOldestEvent_of_none {q : List Notice} (h : ∀ m ∈ q, m.cls ≠ .event) : dropOldestEvent q = none := by
  induction q with
  | nil => rfl
  | cons m rest ih =>
    rw [dropOldestEvent, if_neg (h m List.mem_cons_self), ih fun x hx => h x (.tail _ hx)]
    rfl

theorem queueNotice_of_event_free {q : List Notice} (hFull : noticeCapacity ≤ q.length) (overflow : Bool) (n : Notice)
    (h : n.cls ≠ .fault ∨ ∀ m ∈ q, m.cls ≠ .event) : queueNotice q overflow n = (q, true) := by
  unfold queueNotice
  rw [if_neg (Nat.not_lt.2 hFull)]
  split
  next hFault => rw [dropOldestEvent_of_none (h.resolve_left fun hn => hn hFault)]
  · rfl

theorem dropOldestEvent_split (before after : List Notice) (e : Notice) (hb : ∀ m ∈ before, m.cls ≠ .event) (he : e.cls = .event) :
    dropOldestEvent (before ++ e :: after) = some (before ++ after) := by
  induction before with
  | nil => exact if_pos he
  | cons m rest ih =>
    rw [List.cons_append, dropOldestEvent, if_neg (hb m List.mem_cons_self), ih fun x hx => hb x (.tail _ hx)]
    rfl

theorem queueNotice_fault {before after : List Notice} {e n : Notice} (hFull : noticeCapacity ≤ (before ++ e :: after).length)
    (overflow : Bool) (hn : n.cls = .fault) (hb : ∀ m ∈ before, m.cls ≠ .event) (he : e.cls = .event) :
    queueNotice (before ++ e :: after) overflow n = (before ++ after ++ [n], true) := by
  unfold queueNotice
  rw [if_neg (Nat.not_lt.2 hFull), if_pos hn, dropOldestEvent_split before after e hb he]

theorem queueNotice_overflow {q : List Notice} (hFull : noticeCapacity ≤ q.length) (overflow : Bool) (n : Notice) :
    (queueNotice q overflow n).2 = true := by
  unfold queueNotice
  rw [if_neg (Nat.not_lt.2 hFull)]
  split
  · split <;> rfl
  · rfl

/-- Settles O30: the queue is `queueNotice`, room and class deciding its case. -/
theorem noticeQueueTakesNoticesByClass : Obligations.NoticeQueueTakesNoticesByClass := by
  intro b s
  dsimp only
  have hQueue : ((post b s).port.notices, (post b s).port.overflow) = queueNotice s.port.notices s.port.overflow (noticeNow b s) := rfl
  refine ⟨rfl, ?attn, uptime_toNat s, rfl, fun hRoom => ?room, fun hFull => ⟨?flag, fun h => ?kept, fun before e after hn hq hb he => ?fault⟩⟩
  case attn =>
    show attnOf s.cfg.attnMask (post b s).port.notices = true ↔ _
    rw [attnOf, List.any_eq_true]
  case room =>
    rw [queueNotice_of_room hRoom] at hQueue
    exact ⟨congrArg Prod.fst hQueue, congrArg Prod.snd hQueue⟩
  case flag => exact (congrArg Prod.snd hQueue).trans (queueNotice_overflow hFull _ _)
  case kept => exact (congrArg Prod.fst hQueue).trans (congrArg Prod.fst (queueNotice_of_event_free hFull _ _ h))
  case fault =>
    rw [hq] at hFull hQueue
    exact (congrArg Prod.fst hQueue).trans (congrArg Prod.fst (queueNotice_fault hFull _ hn hb he))

/-! ## Guard demands (R186, R187) -/

theorem limitGuard_of_clear {c : Settings} {l : Limits} {n : LimitName} (h : limitOf l n = .clear) (ch : Channel) :
    limitGuard c l n ch = none := by rw [limitGuard, h]

theorem limitGuard_of_active {c : Settings} {l : Limits} {n : LimitName} (h : limitOf l n ≠ .clear) (ch : Channel) :
    limitGuard c l n ch =
      (guardManner (actionOf c n)).bind fun m => (limitDemand c n ch).map fun v => { value := v, immediate := m } := by
  unfold limitGuard; split
  next hc => exact absurd hc h
  · rfl

theorem limitGuard_of_unguarded {c : Settings} {l : Limits} {n : LimitName} (h : guardManner (actionOf c n) = none) (ch : Channel) :
    limitGuard c l n ch = none := by
  by_cases hc : limitOf l n = .clear
  · exact limitGuard_of_clear hc ch
  · rw [limitGuard_of_active hc, h]; rfl

/-- Settles O60: the manner of a limit's action, its table row, and the first limit that has a demand. -/
theorem guardDemandsOfActiveLimits : Obligations.GuardDemandsOfActiveLimits := by
  intro c l ch
  dsimp only
  refine ⟨fun n => ⟨fun h => ?none, fun hActive hAct => ?stop, fun hActive hAct => ?ramp⟩, fun g hs => ?first, fun g hs hf => ?second,
    fun hs hf => ?third⟩
  case none =>
    rcases h with h | h | h | h
    · exact limitGuard_of_clear h ch
    all_goals exact limitGuard_of_unguarded (by rw [h]; rfl) ch
  case stop => rw [limitGuard_of_active hActive, hAct]; cases n <;> cases ch <;> rfl
  case ramp => rw [limitGuard_of_active hActive, hAct]; cases n <;> cases ch <;> rfl
  case first => rw [combinedGuard, hs, Option.some_or, Option.some_or]
  case second => rw [combinedGuard, hs, hf, Option.none_or, Option.some_or]
  case third => rw [combinedGuard, hs, hf, Option.none_or, Option.none_or]

/-! ## Items read after a write (R199, R200) -/

/-- Each item of numeric form is a field of its own. -/
theorem getNum_setNum_other (c : Settings) (v : Int) {i j : NumItem} (h : j ≠ i) : getNum (setNum c i v) j = getNum c j := by
  cases i <;> cases j <;> first | rfl | exact absurd rfl h

/-- The value of an item after a write of its own, where it lies in the item's range. -/
theorem getNum_setNum_same (c : Settings) {v : Int} {i : NumItem} (h : (itemRange i).1 ≤ v) : getNum (setNum c i v) i = some v := by
  have hNat : 0 ≤ v → ((v.toNat : Nat) : Int) = v := Int.toNat_of_nonneg
  cases i <;> first
    | rfl
    | exact congrArg some (hNat (Int.le_trans (by decide) h))

/-- A write of an item of numeric form changes no item of another form. -/
theorem readItem_setNum (c : Settings) (v : Int) (i : NumItem) {item : CfgItem} (h : item ≠ .numeric i) :
    readItem (setNum c i v) item = readItem c item := by
  cases item with
  | numeric j => exact congrArg (fun x => some (ItemValue.number x)) (getNum_setNum_other c v fun e => h (e ▸ rfl))
  | listed j => cases j <;> cases i <;> rfl
  | action l => cases l <;> cases i <;> rfl
  | _ => cases i <;> rfl

theorem readItem_setListed (c : Settings) (n : Nat) (i : ListedItem) {item : CfgItem} (h : item ≠ .listed i) :
    readItem (setListed c i n) item = readItem c item := by
  cases item with
  | listed j => cases i <;> cases j <;> first | rfl | exact absurd rfl h
  | numeric j => cases i <;> cases j <;> rfl
  | action l => cases i <;> cases l <;> rfl
  | _ => cases i <;> rfl

theorem readItem_setFire (c : Settings) (ch : Channel) (v : Option Nat) {item : CfgItem} (h : item ≠ .firePosition ch) :
    readItem { c with outputs.fire := chSet c.outputs.fire ch v } item = readItem c item := by
  cases item with
  | firePosition x =>
    have hne : x ≠ ch := fun e => h (e ▸ rfl)
    show some (ItemValue.position (chGet (chSet c.outputs.fire ch v) x)) = _
    rw [chGet_chSet, if_neg hne]
    rfl
  | numeric j => cases j <;> rfl
  | _ => rfl

theorem readItem_setAction (c : Settings) (l : LimitName) (a : LimitAction) {item : CfgItem} (h : item ≠ .action l) :
    readItem (setAction c l a) item = readItem c item := by
  cases item with
  | action k => cases l <;> cases k <;> first | rfl | exact absurd rfl h
  | numeric j => cases l <;> cases j <;> rfl
  | listed j => cases l <;> cases j <;> rfl
  | _ => cases l <;> rfl

theorem slot_cases (n : Fin 4) : n = 0 ∨ n = 1 ∨ n = 2 ∨ n = 3 := by omega

theorem getFilter_setFilter (c : Settings) (n m : Fin 4) (f : FilterRecord) :
    getFilter (setFilter c n f) m = if m = n then f else getFilter c m := by
  rcases slot_cases n with rfl | rfl | rfl | rfl <;> rcases slot_cases m with rfl | rfl | rfl | rfl <;> rfl

theorem setFilter_eq (c : Settings) (n : Fin 4) (f : FilterRecord) :
    setFilter c n f = { c with filters := (setFilter c n f).filters } := by
  rcases slot_cases n with rfl | rfl | rfl | rfl <;> rfl

theorem readItem_setFilter (c : Settings) (n : Fin 4) (f : FilterRecord) {item : CfgItem} (h : item ≠ .filter n) :
    readItem (setFilter c n f) item = readItem c item := by
  cases item with
  | filter m =>
    have hne : m ≠ n := fun e => h (e ▸ rfl)
    show some (ItemValue.filter (getFilter (setFilter c n f) m)) = _
    rw [getFilter_setFilter, if_neg hne]
    rfl
  | numeric j => rw [setFilter_eq]; cases j <;> rfl
  | listed j => rw [setFilter_eq]; cases j <;> rfl
  | action l => rw [setFilter_eq]; cases l <;> rfl
  | _ => rw [setFilter_eq]; rfl

theorem readItem_setFollowList (c : Settings) (l : List Nat) {item : CfgItem} (h : item ≠ .followList) :
    readItem { c with follow.followList := l } item = readItem c item := by
  cases item with
  | followList => exact absurd rfl h
  | numeric j => cases j <;> rfl
  | _ => rfl

/-- A write stores its own item and no other. -/
theorem readItem_storeItem {c d : Settings} {w : CfgWrite} {clamped : Bool} (h : storeItem c w = some (d, clamped)) {item : CfgItem}
    (hItem : item ≠ itemOf w) : readItem d item = readItem c item := by
  cases w with
  | numeric i v => cases h; exact readItem_setNum c _ i hItem
  | listed i v => cases h; exact readItem_setListed c _ i hItem
  | firePosition ch v => cases v <;> cases h <;> exact readItem_setFire c ch _ hItem
  | action l v => cases v <;> cases h; exact readItem_setAction c l _ hItem
  | filter n f => cases h; exact readItem_setFilter c n _ hItem
  | followList as =>
    rw [storeItem] at h
    split at h <;> cases h
    exact readItem_setFollowList c _ hItem
  | unknown => cases h
  | bandShaft v | source v | basis v | follow v | attnMask v =>
    cases v <;> cases h
    cases item with
    | numeric j => cases j <;> rfl
    | listed j => cases j <;> rfl
    | action l => cases l <;> rfl
    | _ => first | rfl | exact absurd rfl hItem

/-! ## CFG WRITE and CFG READ (R199, R200) -/

theorem cfgWrite_unknown (s : State) : exec (.cfgWrite .unknown) s = .next (refuse .unknownItem s) := by
  show execCfgWrite .unknown s = _
  rw [execCfgWrite, if_pos rfl]

theorem cfgWrite_of_closed {w : CfgWrite} (hw : w ≠ .unknown) {s : State} (h : s.port.closed = true) :
    exec (.cfgWrite w) s = .next (replyOk s) := by
  show execCfgWrite w s = _
  rw [execCfgWrite, if_neg hw, if_pos h]

theorem cfgWrite_refused {w : CfgWrite} (hw : w ≠ .unknown) {s : State} (h : s.port.closed = false)
    (hStore : storeItem s.cfg w = none) : exec (.cfgWrite w) s = .next (refuse .badOperand s) := by
  show execCfgWrite w s = _
  rw [execCfgWrite, if_neg hw, if_neg (by rw [h]; exact Bool.false_ne_true), hStore]

theorem cfgWrite_stores {w : CfgWrite} (hw : w ≠ .unknown) {s : State} (h : s.port.closed = false) {c : Settings} {clamped : Bool}
    (hStore : storeItem s.cfg w = some (c, clamped)) :
    exec (.cfgWrite w) s = .next (reply (okOrClamped clamped) .none (s.setPort { s.port with cfg := c })) := by
  show execCfgWrite w s = _
  rw [execCfgWrite, if_neg hw, if_neg (by rw [h]; exact Bool.false_ne_true), hStore]

theorem storeItem_unknown {c : Settings} {w : CfgWrite} {x : Settings × Bool} (h : storeItem c w = some x) : w ≠ .unknown := by
  rintro rfl; cases h

theorem okOrClamped_eq (b : Bool) (p : Prop) [Decidable p] (h : b = true ↔ ¬p) : okOrClamped b = if p then .ok else .clamped := by
  cases b
  · rw [if_pos (Classical.not_not.1 fun hp => Bool.false_ne_true (h.2 hp))]; rfl
  · rw [if_neg (h.1 rfl)]; rfl

theorem clampInt_ne_iff {lo hi : Int} (v : Int) : (clampInt lo hi v != v) = true ↔ ¬(lo ≤ v ∧ v ≤ hi) := by
  rw [bne_iff_ne]
  unfold clampInt
  split
  · omega
  · split <;> omega

theorem itemRange_le (i : NumItem) : (itemRange i).1 ≤ (itemRange i).2 := by cases i <;> decide

/-- Settles O18: a numeric write stores `clampInt`, and an item reads back what was stored. -/
theorem numericWriteStoresNearestValueInRange : Obligations.NumericWriteStoresNearestValueInRange := by
  intro i v s h
  have hStore : storeItem s.cfg (.numeric i v) = some (setNum s.cfg i (clampInt (itemRange i).1 (itemRange i).2 v),
      clampInt (itemRange i).1 (itemRange i).2 v != v) := rfl
  refine ⟨_, ?_, getNum_setNum_same s.cfg (clampInt_bounds (itemRange_le i) v).1⟩
  rw [cfgWrite_stores (storeItem_unknown hStore) h hStore, ← okOrClamped_eq _ _ (clampInt_ne_iff v)]
  rfl

/-- The listed value stored is the greatest not above the one written, or the lowest. -/
theorem storeListed_spec (i : ListedItem) (v : Int) :
    let n := storeListed (listedValues i) v
    n ∈ listedValues i ∧ (((n : Int) ≤ v ∧ ∀ x ∈ listedValues i, (x : Int) ≤ v → x ≤ n) ∨ (v < n ∧ ∀ x ∈ listedValues i, n ≤ x)) := by
  dsimp only
  cases i
  all_goals
    simp only [listedValues, storeListed, List.foldl_cons, List.foldl_nil, List.headD_cons, List.mem_cons, List.not_mem_nil, or_false,
      forall_eq_or_imp, forall_eq]
    (repeat' split) <;> omega

theorem mem_dedupe {l : List Nat} {a : Nat} : a ∈ dedupe l ↔ a ∈ l := by
  induction l with
  | nil => exact Iff.rfl
  | cons b rest ih =>
    rw [dedupe, List.mem_cons, List.mem_cons, List.mem_filter, ih, bne_iff_ne]
    by_cases h : a = b <;> simp only [h, true_or, false_or, ne_eq, not_false_iff, and_true]

theorem nodup_dedupe (l : List Nat) : (dedupe l).Nodup := by
  induction l with
  | nil => exact List.nodup_nil
  | cons b rest ih =>
    refine List.nodup_cons.2 ⟨fun h => ?_, ih.filter _⟩
    exact (bne_iff_ne.1 (List.mem_filter.1 h).2) rfl

theorem followList_accepted {as : List Int} :
    (as.length ≤ 4 && as.all (fun a => decide (1 ≤ a) && decide (a ≤ 48))) = true ↔ as.length ≤ 4 ∧ ∀ a ∈ as, 1 ≤ a ∧ a ≤ 48 := by
  simp only [Bool.and_eq_true, decide_eq_true_eq, List.all_eq_true]

theorem mem_map_toNat {as : List Int} (h : ∀ a ∈ as, 1 ≤ a ∧ a ≤ 48) (a : Nat) : a ∈ as.map Int.toNat ↔ (a : Int) ∈ as := by
  rw [List.mem_map]
  constructor
  · rintro ⟨x, hx, rfl⟩
    rwa [Int.toNat_of_nonneg (Int.le_trans (by decide) (h x hx).1)]
  · exact fun ha => ⟨a, ha, Int.toNat_natCast a⟩

/-- Settles O19: each form is `storeItem`'s branch of it, and the value is read back through the accessor of its form. -/
theorem configurationWriteStoresByForm : Obligations.ConfigurationWriteStoresByForm := by
  refine ⟨fun w s t h => ?frame, fun s hOpen => ?forms⟩
  case frame =>
    by_cases hw : w = .unknown
    · subst hw
      rw [cfgWrite_unknown] at h; cases h
      exact ⟨rfl, fun _ _ => rfl⟩
    by_cases hc : s.port.closed = true
    · rw [cfgWrite_of_closed hw hc] at h; cases h
      exact ⟨rfl, fun _ _ => rfl⟩
    have hc : s.port.closed = false := Bool.not_eq_true _ ▸ hc
    cases hStore : storeItem s.cfg w with
    | none =>
      rw [cfgWrite_refused hw hc hStore] at h; cases h
      exact ⟨rfl, fun _ _ => rfl⟩
    | some x =>
      rw [cfgWrite_stores hw hc hStore] at h; cases h
      exact ⟨rfl, fun item hItem => readItem_storeItem hStore hItem⟩
  case forms =>
    have hStores : ∀ {w : CfgWrite} {c : Settings} {clamped : Bool} {st : ReplyStatus} {v : ItemValue},
        storeItem s.cfg w = some (c, clamped) → okOrClamped clamped = st → readItem c (itemOf w) = some v →
        ∃ c, exec (.cfgWrite w) s = .next (s.setPort { s.port with cfg := c, reply := some ⟨st, .none⟩ })
          ∧ readItem c (itemOf w) = some v := fun {w c clamped st v} hw hst hv =>
      ⟨c, by rw [cfgWrite_stores (storeItem_unknown hw) hOpen hw, hst]; rfl, hv⟩
    have hRefused : ∀ {w : CfgWrite}, w ≠ .unknown → storeItem s.cfg w = none →
        exec (.cfgWrite w) s = .next (s.setPort { s.port with reply := some ⟨.refused .badOperand, .none⟩ }) :=
      fun hw hStore => cfgWrite_refused hw hOpen hStore
    refine ⟨fun i v => ⟨storeListed (listedValues i) v, (storeListed_spec i v).1, hStores rfl (okOrClamped_eq _ _ bne_iff_ne) ?_,
        (storeListed_spec i v).2⟩, fun ch => hStores rfl rfl ?_, fun ch p => hStores rfl ?_ ?_, fun x => hStores rfl rfl rfl,
      hRefused nofun rfl, fun x => hStores rfl rfl rfl, hRefused nofun rfl, fun x => hStores rfl rfl rfl, hRefused nofun rfl,
      fun x => hStores rfl rfl rfl, hRefused nofun rfl, fun l x => hStores rfl rfl ?_, fun l => hRefused nofun rfl,
      fun x => hStores rfl rfl rfl, hRefused nofun rfl, fun as h => hRefused nofun ?_, fun as hLen hIn => ?list, fun n f => ?filter⟩
    · cases i <;> rfl
    · cases ch <;> rfl
    · exact okOrClamped_eq _ _ (by rw [decide_eq_true_eq]; exact Nat.not_le.symm)
    · cases ch <;> rfl
    · cases l <;> rfl
    · refine if_neg fun h' => ?_
      obtain ⟨hLen, hIn⟩ := followList_accepted.1 h'
      rcases h with h | ⟨a, ha, hOut⟩
      · omega
      · have := hIn a ha; omega
    case list =>
      refine ⟨dedupe (as.map Int.toNat), hStores (if_pos (followList_accepted.2 ⟨hLen, hIn⟩)) rfl rfl, nodup_dedupe _, fun a => ?_⟩
      rw [mem_dedupe, mem_map_toNat hIn]
    case filter =>
      refine ⟨clampFilter f, hStores rfl (okOrClamped_eq _ _ bne_iff_ne) ?_, rfl, rfl, rfl, rfl, rfl, ?_, ?_⟩
      · show some (ItemValue.filter (getFilter (setFilter s.cfg n (clampFilter f)) n)) = _
        rw [getFilter_setFilter, if_pos rfl]
      · unfold clampFilter; cases f.selector <;> rfl
      · unfold clampFilter; cases f.window <;> rfl

/-- Settles O20: `execCfgWrite` after close and `execCfgRead`, item by item. -/
theorem closedConfigurationIsReadNotWritten : Obligations.ClosedConfigurationIsReadNotWritten := by
  refine fun s => ⟨fun w hw hc => cfgWrite_of_closed hw hc, cfgWrite_unknown s, rfl, fun _ => rfl, fun _ => rfl, fun h => ?addr, fun _ => rfl,
    fun _ => rfl, rfl, rfl, rfl, rfl, rfl, fun _ => rfl, rfl⟩
  show Host.Outcome.next (reply .ok (.item (.number (s.cfg.ident.addr.map Int.ofNat))) s) = _
  rw [h]
  rfl

/-! ## Close-time checks (R202) -/

/-- A record change as CONFIG_ADJUSTED shows it: the item's values in two records, where they differ. -/
def change (c d : Settings) : CfgItem → List Adjustment
  | .numeric i => ((getNum c i).bind fun x => (getNum d i).bind fun y => if x = y then none else some (.number i x y)).toList
  | .followList =>
    if c.follow.followList = d.follow.followList then [] else [.followList c.follow.followList d.follow.followList]
  | .filter n => if getFilter c n = getFilter d n then [] else [.filter n (getFilter c n) (getFilter d n)]
  | _ => []

/-- The items of R202 in the order of its steps. -/
def closeItems : List CfgItem :=
  [.numeric .tSTALE, .numeric .tEXPIRE, .numeric .dtOff, .numeric .dhOff, .numeric .tFreeHigh, .numeric .frostCap, .numeric .reliefCap,
    .numeric .tFrostTrip, .followList, .filter 0, .filter 1, .filter 2, .filter 3]

/-- The item an adjustment names. -/
def adjustedItem : Adjustment → CfgItem
  | .number i _ _ => .numeric i
  | .followList _ _ => .followList
  | .filter n _ _ => .filter n

theorem number_mem_change {c d : Settings} {k : CfgItem} {i : NumItem} {x y : Int} :
    .number i x y ∈ change c d k ↔ k = .numeric i ∧ getNum c i = some x ∧ getNum d i = some y ∧ x ≠ y := by
  cases k with
  | numeric j =>
    simp only [change, Option.mem_toList, Option.bind_eq_some_iff, Option.ite_none_left_eq_some, Option.some.injEq,
      Adjustment.number.injEq, CfgItem.numeric.injEq]
    constructor
    · rintro ⟨_, hx, _, hy, hne, rfl, rfl, rfl⟩
      exact ⟨rfl, hx, hy, hne⟩
    · rintro ⟨rfl, hx, hy, hne⟩
      exact ⟨x, hx, y, hy, hne, rfl, rfl, rfl⟩
  | followList => rw [change]; split <;> simp
  | filter n => rw [change]; split <;> simp
  | _ => simp [change]

theorem followList_mem_change {c d : Settings} {k : CfgItem} {x y : List Nat} :
    .followList x y ∈ change c d k ↔ k = .followList ∧ x = c.follow.followList ∧ y = d.follow.followList ∧ x ≠ y := by
  cases k with
  | followList =>
    rw [change]; split
    next h => exact ⟨nofun, fun ⟨_, hx, hy, hne⟩ => absurd (hx.trans (h.trans hy.symm)) hne⟩
    next h =>
      rw [List.mem_singleton, Adjustment.followList.injEq]
      exact ⟨fun ⟨hx, hy⟩ => ⟨rfl, hx, hy, fun e => h (hx.symm.trans (e.trans hy))⟩, fun ⟨_, hx, hy, _⟩ => ⟨hx, hy⟩⟩
  | filter n => rw [change]; split <;> simp
  | _ => simp [change, Option.bind_eq_some_iff]

theorem filter_mem_change {c d : Settings} {k : CfgItem} {n : Fin 4} {f g : FilterRecord} :
    .filter n f g ∈ change c d k ↔ k = .filter n ∧ f = getFilter c n ∧ g = getFilter d n ∧ f ≠ g := by
  cases k with
  | filter m =>
    rw [change]; split
    next h => exact ⟨nofun, fun ⟨hm, hf, hg, hne⟩ => by cases hm; exact absurd (hf.trans (h.trans hg.symm)) hne⟩
    next h =>
      rw [List.mem_singleton, Adjustment.filter.injEq]
      constructor
      · rintro ⟨rfl, rfl, rfl⟩
        exact ⟨rfl, rfl, rfl, h⟩
      · rintro ⟨hm, rfl, rfl, _⟩
        cases hm
        exact ⟨rfl, rfl, rfl⟩
  | followList => rw [change]; split <;> simp
  | _ => simp [change, Option.bind_eq_some_iff]

/-- An adjustment names the item whose change it is. -/
theorem item_of_mem_change {c d : Settings} {k : CfgItem} {a : Adjustment} (h : a ∈ change c d k) : k = adjustedItem a := by
  cases a with
  | number i x y => exact (number_mem_change.1 h).1
  | followList x y => exact (followList_mem_change.1 h).1
  | filter n f g => exact (filter_mem_change.1 h).1

theorem nodup_change (c d : Settings) (k : CfgItem) : (change c d k).Nodup := by
  cases k with
  | numeric i => rw [change]; cases (getNum c i).bind _ <;> simp
  | followList => rw [change]; split <;> simp
  | filter n => rw [change]; split <;> simp
  | _ => exact List.nodup_nil

theorem nodup_changes (c d : Settings) {items : List CfgItem} (h : items.Nodup) : (items.flatMap (change c d)).Nodup :=
  List.pairwise_flatMap.2 ⟨fun k _ => nodup_change c d k,
    h.imp fun hne _ h1 _ h2 e => hne ((item_of_mem_change h1).trans (item_of_mem_change (e ▸ h2)).symm)⟩

/-- A filter record with its ABSOLUTE window in order (R118). -/
def ordered (f : FilterRecord) : FilterRecord :=
  { f with window := match f.window with
                     | .absolute lo hi => .absolute (min lo hi) (max lo hi)
                     | w => w }

/-- A step of R202 on an item of numeric form, told by the record it leaves. -/
theorem adjustNum_eq {cond : Bool} {i : NumItem} {old new : Int} {c d : Settings} (hOld : getNum c i = some old)
    (hMove : cond = true → setNum c i new = d ∧ getNum d i = some new ∧ old ≠ new) (hStay : cond = false → d = c) :
    adjustNum cond i old new c = (d, change c d (.numeric i)) := by
  cases cond with
  | true =>
    obtain ⟨hSet, hNew, hne⟩ := hMove rfl
    rw [adjustNum, if_pos rfl, hSet, change, hOld, hNew]
    simp [hne]
  | false =>
    rw [hStay rfl, adjustNum, if_neg Bool.false_ne_true, change, hOld]
    simp

/-- A step that raises an item of natural form to a floor; `set` writes the item. -/
theorem adjustNum_raise_nat {i : NumItem} {a b : Nat} {c : Settings} (set : Settings → Nat → Settings) (hOld : getNum c i = some (a : Int))
    (hSet : setNum c i (b : Int) = set c b) (hNew : getNum (set c b) i = some (b : Int)) (hSelf : set c a = c) :
    adjustNum (a < b) i a b c = (set c (max a b), change c (set c (max a b)) (.numeric i)) := by
  refine adjustNum_eq hOld (fun h => ?_) fun h => ?_
  · rw [decide_eq_true_eq] at h
    rw [Nat.max_eq_right (Nat.le_of_lt h)]
    exact ⟨hSet, hNew, fun e => by omega⟩
  · rw [decide_eq_false_iff_not] at h
    rw [Nat.max_eq_left (Nat.not_lt.1 h), hSelf]

theorem adjustNum_raise_int {i : NumItem} {a b : Int} {c : Settings} (set : Settings → Int → Settings) (hOld : getNum c i = some a)
    (hSet : setNum c i b = set c b) (hNew : getNum (set c b) i = some b) (hSelf : set c a = c) :
    adjustNum (a < b) i a b c = (set c (max a b), change c (set c (max a b)) (.numeric i)) := by
  refine adjustNum_eq hOld (fun h => ?_) fun h => ?_
  · rw [decide_eq_true_eq] at h
    rw [Int.max_eq_right (Int.le_of_lt h)]
    exact ⟨hSet, hNew, Int.ne_of_lt h⟩
  · rw [decide_eq_false_iff_not] at h
    rw [Int.max_eq_left (Int.not_lt.1 h), hSelf]

/-- A step that lowers an item to a ceiling. -/
theorem adjustNum_lower {i : NumItem} {a b : Int} {c : Settings} (set : Settings → Int → Settings) (hOld : getNum c i = some a)
    (hSet : setNum c i b = set c b) (hNew : getNum (set c b) i = some b) (hSelf : set c a = c) :
    adjustNum (b < a) i a b c = (set c (min a b), change c (set c (min a b)) (.numeric i)) := by
  refine adjustNum_eq hOld (fun h => ?_) fun h => ?_
  · rw [decide_eq_true_eq] at h
    rw [Int.min_eq_right (Int.le_of_lt h)]
    exact ⟨hSet, hNew, Int.ne_of_gt h⟩
  · rw [decide_eq_false_iff_not] at h
    rw [Int.min_eq_left (Int.not_lt.1 h), hSelf]

theorem adjustFollowList_eq (c : Settings) :
    adjustFollowList c =
      let d := { c with follow.followList := c.follow.followList.filter fun a => c.ident.addr != some a }
      (d, change c d .followList) := by
  have hStay : ∀ l, c.follow.followList = l → c = { c with follow.followList := l } := by rintro _ rfl; rfl
  have hNone : (c.follow.followList.filter fun a => c.ident.addr != some a) = c.follow.followList →
      (c, []) = ({ c with follow.followList := c.follow.followList.filter fun a => c.ident.addr != some a },
        change c { c with follow.followList := c.follow.followList.filter fun a => c.ident.addr != some a } .followList) := fun h => by
    rw [h, change, if_pos rfl]
  unfold adjustFollowList
  split
  next h => exact hNone (List.filter_eq_self.2 fun a _ => by rw [h]; rfl)
  next a h =>
    have hSame : (c.follow.followList.filter fun x => c.ident.addr != some x) = c.follow.followList.filter fun b => b != a :=
      List.filter_congr fun x _ => by rw [h, Bool.eq_iff_iff, bne_iff_ne, bne_iff_ne, ne_eq, Option.some.injEq]; exact ne_comm
    split
    next hIn =>
      dsimp only
      have hne : c.follow.followList ≠ c.follow.followList.filter fun b => b != a := fun e => by
        rw [List.contains_iff_mem, e, List.mem_filter] at hIn
        exact bne_iff_ne.1 hIn.2 rfl
      rw [hSame, change, if_neg hne]
    next hOut =>
      refine hNone (hSame.trans (List.filter_eq_self.2 fun x hx => bne_iff_ne.2 ?_))
      rintro rfl
      exact hOut (List.contains_iff_mem.2 hx)

theorem ordered_of_absolute {f : FilterRecord} {lo hi : Nat} (h : f.window = .absolute lo hi) :
    ordered f = { f with window := .absolute (min lo hi) (max lo hi) } := by rw [ordered, h]

theorem ordered_of_relative {f : FilterRecord} {span : Nat} (h : f.window = .relative span) : ordered f = f := by
  obtain ⟨enable, beacons, alerts, selector, window, inverse, join⟩ := f
  cases h
  rfl

theorem ordered_of_le {f : FilterRecord} {lo hi : Nat} (h : f.window = .absolute lo hi) (hle : lo ≤ hi) : ordered f = f := by
  rw [ordered_of_absolute h, Nat.min_eq_left hle, Nat.max_eq_right hle, ← h]

theorem setFilter_getFilter (c : Settings) (n : Fin 4) : setFilter c n (getFilter c n) = c := by
  rcases slot_cases n with rfl | rfl | rfl | rfl <;> rfl

theorem adjustFilter_eq (n : Fin 4) (c : Settings) :
    adjustFilter n c =
      let d := setFilter c n (ordered (getFilter c n))
      (d, change c d (.filter n)) := by
  have hStay : ordered (getFilter c n) = getFilter c n →
      (c, []) = (setFilter c n (ordered (getFilter c n)), change c (setFilter c n (ordered (getFilter c n))) (.filter n)) := fun h => by
    rw [h, setFilter_getFilter, change, if_pos rfl]
  unfold adjustFilter
  dsimp only
  split
  next lo hi hw =>
    split
    next hlt =>
      have hOrd : ordered (getFilter c n) = { getFilter c n with window := .absolute hi lo } := by
        rw [ordered_of_absolute hw, Nat.min_eq_right (Nat.le_of_lt hlt), Nat.max_eq_left (Nat.le_of_lt hlt)]
      have hne : getFilter c n ≠ { getFilter c n with window := .absolute hi lo } := fun e => by
        have := congrArg FilterRecord.window e
        rw [hw] at this
        cases this
        exact Nat.lt_irrefl _ hlt
      rw [hOrd, change, getFilter_setFilter, if_pos rfl, if_neg hne]
    next hle => exact hStay (ordered_of_le hw (Nat.not_lt.1 hle))
  next hw => exact hStay (ordered_of_relative hw)

/-- The record as the close-time checks leave it. -/
def settledConfig (c : Settings) : Settings :=
  let stale := max c.line.tSTALE (2 * c.line.tBCN)
  { c with
    line := { c.line with tSTALE := stale, tEXPIRE := max c.line.tEXPIRE (stale + c.line.tBCN) }
    decision := { c.decision with
      dtOff := min c.decision.dtOff c.decision.dtOn
      dhOff := min c.decision.dhOff c.decision.dhOn
      tFreeHigh := max c.decision.tFreeHigh (c.decision.tFreeLow + 50)
      frostCap := max c.decision.frostCap c.decision.wheelMin }
    claims := { c.claims with reliefCap := max c.claims.reliefCap c.claims.reliefUnits }
    limits := { c.limits with tFrostTrip := min c.limits.tFrostTrip (c.decision.tFrost - 10) }
    follow := { c.follow with followList := c.follow.followList.filter fun a => c.ident.addr != some a }
    filters := ⟨ordered c.filters.f0, ordered c.filters.f1, ordered c.filters.f2, ordered c.filters.f3⟩ }

theorem runSteps_cons {f : Settings → Settings × List Adjustment} {rest : List (Settings → Settings × List Adjustment)} {c d e : Settings}
    {as bs : List Adjustment} (hf : f c = (d, as)) (hRest : runSteps rest d = (e, bs)) : runSteps (f :: rest) c = (e, as ++ bs) := by
  rw [runSteps, hf]
  dsimp only
  rw [hRest]

/-- The checks leave `settledConfig`, and their list is the changes it makes, item by item. -/
theorem closeChecks_eq (c : Settings) : closeChecks c = (settledConfig c, closeItems.flatMap (change c (settledConfig c))) := by
  unfold closeChecks closeSteps
  refine runSteps_cons (adjustNum_raise_nat (fun c n => { c with line.tSTALE := n }) rfl rfl rfl rfl) ?_
  refine runSteps_cons (adjustNum_raise_nat (fun c n => { c with line.tEXPIRE := n }) rfl rfl rfl rfl) ?_
  refine runSteps_cons (adjustNum_lower (fun c n => { c with decision.dtOff := n }) rfl rfl rfl rfl) ?_
  refine runSteps_cons (adjustNum_lower (fun c n => { c with decision.dhOff := n }) rfl rfl rfl rfl) ?_
  refine runSteps_cons (adjustNum_raise_int (fun c n => { c with decision.tFreeHigh := n }) rfl rfl rfl rfl) ?_
  refine runSteps_cons (adjustNum_raise_nat (fun c n => { c with decision.frostCap := n }) rfl rfl rfl rfl) ?_
  refine runSteps_cons (adjustNum_raise_nat (fun c n => { c with claims.reliefCap := n }) rfl rfl rfl rfl) ?_
  refine runSteps_cons (adjustNum_lower (fun c n => { c with limits.tFrostTrip := n }) rfl rfl rfl rfl) ?_
  refine runSteps_cons (adjustFollowList_eq _) ?_
  refine runSteps_cons (adjustFilter_eq 0 _) ?_
  refine runSteps_cons (adjustFilter_eq 1 _) ?_
  refine runSteps_cons (adjustFilter_eq 2 _) ?_
  refine runSteps_cons (adjustFilter_eq 3 _) ?_
  rfl

/-- The checks leave every item of numeric form as it was that no step names. -/
theorem getNum_settledConfig {c : Settings} {i : NumItem} (h : .numeric i ∉ closeItems) : getNum (settledConfig c) i = getNum c i := by
  cases i
  case tSTALE | tEXPIRE | dtOff | dhOff | tFreeHigh | frostCap | reliefCap | tFrostTrip => exact absurd (by decide) h
  all_goals rfl

/-- Settles O21: the record is `settledConfig`, and the list is `change` over the items of R202. -/
theorem closeChecksSettleRelationsBetweenItems : Obligations.CloseChecksSettleRelationsBetweenItems := by
  intro c
  dsimp only
  rw [closeChecks_eq]
  refine ⟨rfl, fun h i v hv => ?range, fun i x y => ?number, fun x y => ?list, fun n f g => ?filter, nodup_changes _ _ (by decide)⟩
  case range =>
    have hBcn := h .tBCN _ rfl
    have hStale := h .tSTALE _ rfl
    have hOn := h .dtOn _ rfl
    have hHOn := h .dhOn _ rfl
    have hLow := h .tFreeLow _ rfl
    have hMin := h .wheelMin _ rfl
    have hUnits := h .reliefUnits _ rfl
    have hFrost := h .tFrost _ rfl
    have hOld := h i
    cases i
    case tSTALE | tEXPIRE | dtOff | dhOff | tFreeHigh | frostCap | reliefCap | tFrostTrip =>
      have hOld := hOld _ rfl
      cases hv
      simp only [itemRange] at *
      simp only [settledConfig]
      omega
    all_goals exact hOld v hv
  case number =>
    simp only [List.mem_flatMap, number_mem_change]
    constructor
    · rintro ⟨_, _, rfl, h⟩
      exact h
    · intro ⟨hx, hy, hne⟩
      refine ⟨.numeric i, Classical.not_not.1 fun hOut => hne ?_, rfl, hx, hy, hne⟩
      exact Option.some.inj (hx.symm.trans ((getNum_settledConfig hOut).symm.trans hy))
  case list =>
    simp only [List.mem_flatMap, followList_mem_change]
    exact ⟨fun ⟨_, _, _, h⟩ => h, fun h => ⟨.followList, by decide, rfl, h⟩⟩
  case filter =>
    simp only [List.mem_flatMap, filter_mem_change]
    exact ⟨fun ⟨_, _, _, h⟩ => h, fun h => ⟨.filter n, by rcases slot_cases n with rfl | rfl | rfl | rfl <;> decide, rfl, h⟩⟩

end Sys2Proof.Machine
end

section
/-! PROOF. The riser line's frames and the evaluation's arithmetic (R9 to R24, R89 to R92). -/

namespace Sys2Proof.Machine

/-! ## Fields of a frame -/

theorem modeOf_modeCode (m : Mode) : modeOf (modeCode m) = some m := by cases m <;> rfl

theorem phaseOf_phaseCode (p : Phase) : phaseOf (phaseCode p) = some p := by cases p <;> rfl

theorem qualityOf_qualityCode (q : Quality) : qualityOf (qualityCode q) = some q := by cases q <;> rfl

theorem followOf_followCode (f : FollowMode) : followOf (followCode f) = some f := by cases f <;> rfl

theorem resourceOf_resourceCode (r : Resource) : resourceOf (resourceCode r) = some r := by cases r <;> rfl

theorem withdrawOf_withdrawCode (w : WithdrawReason) : withdrawOf (withdrawCode w) = some w := by cases w <;> rfl

theorem releaseOf_releaseCode (r : ReleaseReason) : releaseOf (releaseCode r) = some r := by cases r <;> rfl

theorem modeCode_le (m : Mode) : modeCode m ≤ 4 := by cases m <;> decide

theorem phaseCode_le (p : Phase) : phaseCode p ≤ 4 := by cases p <;> decide

theorem qualityCode_le (q : Quality) : qualityCode q ≤ 2 := by cases q <;> decide

theorem followCode_le (f : FollowMode) : followCode f ≤ 2 := by cases f <;> decide

theorem bit_le (b : Bool) : bit b ≤ 1 := by cases b <;> decide

theorem bit_eq_one (b : Bool) : decide (bit b = 1) = b := by cases b <;> rfl

theorem byte_toNat {n : Nat} (h : n < 256) : (byte n).toNat = n :=
  (BitVec.toNat_ofNat n 8).trans (Nat.mod_eq_of_lt h)

/-- Two bytes of a 16-bit field put together again. -/
theorem bytes16_toNat {n : Nat} (h : n < 65536) : (byte (n / 256)).toNat * 256 + (byte (n % 256)).toNat = n := by
  rw [byte_toNat (by omega), byte_toNat (by omega)]
  omega

/-- A 16-bit field that stands at two bytes of a payload. -/
theorem at16_of_bytes {d : List Byte} {i n : Nat} (hHigh : at8 d i = (byte (n / 256)).toNat) (hLow : at8 d (i + 1) = (byte (n % 256)).toNat)
    (h : n < 65536) : at16 d i = n := by
  rw [at16, hHigh, hLow, bytes16_toNat h]

theorem signed16_code16 {t : Int} (h : -500 ≤ t ∧ t ≤ 600) : signed16 (code16 t) = t := by
  unfold signed16 code16
  omega

theorem code16_lt (t : Int) : code16 t < 65536 := by unfold code16; omega

theorem amountOk_le {r : Resource} {n : Nat} (h : amountOk r n = true) : n < 256 := by
  cases r <;> simp only [amountOk, Bool.and_eq_true, decide_eq_true_eq] at h <;> omega

/-! ## The identifier (R89, R90) -/

theorem identNat_lt (k : FrameKind) {shaft addr : Nat} (hs : shaft ≤ 7) (ha : addr ≤ 48) : identNat k shaft addr < 2 ^ 29 := by
  cases k <;> simp only [identNat, urgency, kindCode] <;> omega

theorem identNat_fields (k : FrameKind) {shaft addr : Nat} (hs : shaft ≤ 7) (ha : addr ≤ 48) :
    field (identNat k shaft addr) 0 13 = 0 ∧ field (identNat k shaft addr) 13 6 = addr
      ∧ field (identNat k shaft addr) 19 3 = shaft ∧ kindOf (field (identNat k shaft addr) 22 4) = some k := by
  have hKind : field (identNat k shaft addr) 22 4 = kindCode k := by
    cases k <;> simp only [field, identNat, urgency, kindCode] <;> omega
  refine ⟨?_, ?_, ?_, by rw [hKind]; cases k <;> rfl⟩
  all_goals cases k <;> simp only [field, identNat, urgency, kindCode] <;> omega

theorem bodyBytes_length (b : FrameBody) : (bodyBytes b).length = 8 := by
  cases b with
  | claim m => cases m <;> rfl
  | _ => rfl

/-- A frame of a station is read as its kind, shaft, address and bytes. -/
theorem readRiser_lineFrame {shaft addr : Nat} (b : FrameBody) (hs : shaft ≤ 7) (ha : 1 ≤ addr) (ha' : addr ≤ 48) :
    readRiser (lineFrame shaft addr b) = some { kind := bodyKind b, shaft := shaft, addr := addr, data := bodyBytes b } := by
  obtain ⟨hLow, hAddr, hShaft, hKind⟩ := identNat_fields (bodyKind b) hs ha'
  have hIdent : (lineFrame shaft addr b).ident.toNat = identNat (bodyKind b) shaft addr :=
    (BitVec.toNat_ofNat _ 29).trans (Nat.mod_eq_of_lt (identNat_lt _ hs ha'))
  unfold readRiser
  dsimp only
  rw [hIdent, hLow, hAddr, hShaft, hKind, if_pos]
  · rfl
  · simp [lineFrame, bodyBytes_length, ha, ha']

/-! ## The contents (R90 to R92) -/

theorem field_low {n width : Nat} (h : n < 2 ^ width) : field n 0 width = n := by
  rw [field, Nat.pow_zero, Nat.div_one, Nat.mod_eq_of_lt h]

theorem at16_beaconBytes_two (b : BeaconBody) :
    at16 (beaconBytes b) 2 = if b.quality = .absent then 32768 else code16 (b.probeT.getD 0) := by
  have hLt : (if b.quality = .absent then 32768 else code16 (b.probeT.getD 0)) < 65536 := by
    split
    · decide
    · exact code16_lt _
  exact at16_of_bytes rfl rfl hLt

theorem at16_beaconBytes_four (b : BeaconBody) (h : (b.probeW.getD 0).toNat ≤ 300) :
    at16 (beaconBytes b) 4 = (if b.quality = .absent then 0 else (b.probeW.getD 0).toNat) + 16384 * qualityCode b.quality := by
  have hCode := qualityCode_le b.quality
  have hLt : (if b.quality = .absent then 0 else (b.probeW.getD 0).toNat) + 16384 * qualityCode b.quality < 65536 := by
    split <;> omega
  exact at16_of_bytes rfl rfl hLt

theorem probeW_le {b : BeaconBody} (h : sendable (.beacon b) = true) : (b.probeW.getD 0).toNat ≤ 300 := by
  obtain ⟨mode, phase, fire, held, level, probeT, probeW, quality, units, cls, follow⟩ := b
  simp only [sendable, Bool.and_eq_true] at h
  obtain ⟨_, h⟩ := h
  cases probeW with
  | none => exact Nat.zero_le _
  | some w =>
    cases quality <;> cases probeT <;> simp only [Bool.and_eq_true, decide_eq_true_eq, Bool.false_eq_true] at h <;>
      exact Int.toNat_le.2 h.2

/-- The temperature and the humidity ratio of a probe that is not ABSENT, read back. -/
theorem readBack_probe {b : BeaconBody} (h : sendable (.beacon b) = true) {t w : Int} (hq : b.quality ≠ .absent) (ht : b.probeT = some t)
    (hw : b.probeW = some w) (hT : -500 ≤ t ∧ t ≤ 600) (hW : 0 ≤ w) :
    signed16 (at16 (beaconBytes b) 2) = t ∧ (field (at16 (beaconBytes b) 4) 0 9 : Int) = w := by
  have hLe := probeW_le h
  rw [at16_beaconBytes_two, at16_beaconBytes_four b hLe, if_neg hq, if_neg hq, ht, Option.getD_some, signed16_code16 hT]
  rw [hw, Option.getD_some] at hLe ⊢
  refine ⟨rfl, ?_⟩
  simp only [field]
  omega

/-- A BEACON read from its fields, as its codes and values stand in the bytes. -/
theorem readBeacon_beaconBytes {b : BeaconBody} (h : sendable (.beacon b) = true) : readBeacon (beaconBytes b) = some b := by
  have hSend := h
  have hMode := modeCode_le b.mode
  have hPhase := phaseCode_le b.phase
  have hQuality := qualityCode_le b.quality
  have hFollow := followCode_le b.follow
  have hFire := bit_le b.fire
  have hHeld := bit_le b.defrostHeld
  simp only [sendable, Bool.and_eq_true, decide_eq_true_eq] at h
  obtain ⟨⟨⟨hLevel, hUnits⟩, hCls⟩, hProbe⟩ := h
  have h0 : at8 (beaconBytes b) 0 = modeCode b.mode + 8 * phaseCode b.phase + 64 * bit b.fire + 128 * bit b.defrostHeld :=
    byte_toNat (by omega)
  have h1 : at8 (beaconBytes b) 1 = b.level := byte_toNat (by omega)
  have h6 : at8 (beaconBytes b) 6 = b.reliefUnits := byte_toNat (by omega)
  have h7 : at8 (beaconBytes b) 7 = b.cls + 4 * followCode b.follow := byte_toNat (by omega)
  have hM : field (at8 (beaconBytes b) 0) 0 3 = modeCode b.mode := by rw [h0]; simp only [field]; omega
  have hP : field (at8 (beaconBytes b) 0) 3 3 = phaseCode b.phase := by rw [h0]; simp only [field]; omega
  have hF : field (at8 (beaconBytes b) 0) 6 1 = bit b.fire := by rw [h0]; simp only [field]; omega
  have hD : field (at8 (beaconBytes b) 0) 7 1 = bit b.defrostHeld := by rw [h0]; simp only [field]; omega
  have hL : field (at8 (beaconBytes b) 1) 0 7 = b.level := by rw [h1]; exact field_low (by omega)
  have hC : field (at8 (beaconBytes b) 7) 0 2 = b.cls := by rw [h7]; simp only [field]; omega
  have hW : field (at8 (beaconBytes b) 7) 2 2 = followCode b.follow := by rw [h7]; simp only [field]; omega
  have hQ : field (at16 (beaconBytes b) 4) 14 2 = qualityCode b.quality := by
    have hLe := probeW_le hSend
    rw [at16_beaconBytes_four b hLe]
    simp only [field]
    split <;> omega
  unfold readBeacon
  dsimp only
  rw [hM, hP, hF, hD, hL, hC, hW, hQ, h6, modeOf_modeCode, phaseOf_phaseCode, followOf_followCode, qualityOf_qualityCode, bit_eq_one,
    bit_eq_one]
  dsimp only
  have hRead := @readBack_probe b hSend
  generalize signed16 (at16 (beaconBytes b) 2) = t at hRead ⊢
  generalize field (at16 (beaconBytes b) 4) 0 9 = w at hRead ⊢
  obtain ⟨mode, phase, fire, held, level, probeT, probeW, quality, units, cls, follow⟩ := b
  dsimp only at hRead hProbe ⊢
  by_cases hq : quality = .absent
  · subst hq
    cases probeT <;> cases probeW <;> first | rfl | cases hProbe
  · cases probeT with
    | none => cases quality <;> cases probeW <;> first | exact absurd rfl hq | cases hProbe
    | some u =>
      cases probeW with
      | none => cases quality <;> first | exact absurd rfl hq | cases hProbe
      | some x =>
        have hRange : ((-500 ≤ u ∧ u ≤ 600) ∧ 0 ≤ x) ∧ x ≤ 300 := by
          cases quality <;> simp_all
        obtain ⟨⟨hU, hX⟩, hX'⟩ := hRange
        obtain ⟨rfl, rfl⟩ := hRead hq rfl rfl hU hX
        simp [hq, hU, hX']

theorem readAlert_alertBytes {a : AlertBody} (h : a.level ≤ 127) : readAlert (alertBytes a) = some a := by
  obtain ⟨on, level⟩ := a
  dsimp only at h
  have hLevel : field (at8 (alertBytes ⟨on, level⟩) 1) 0 7 = level := by
    show (byte level).toNat / 1 % 128 = level
    rw [byte_toNat (by omega)]
    omega
  rw [readAlert, hLevel]
  cases on <;> rfl

theorem resourceCode_byte (r : Resource) : resourceOf (byte (resourceCode r)).toNat = some r := by cases r <;> rfl

theorem readClaim_claimBytes {m : ClaimMsg} (h : sendable (.claim m) = true) : readClaim (claimKind m) (claimBytes m) = some m := by
  cases m with
  | intent r amount cls attempt cap =>
    simp only [sendable, Bool.and_eq_true, decide_eq_true_eq] at h
    obtain ⟨⟨⟨hAmount, hCls⟩, hAttempt⟩, hCap⟩ := h
    have h0 : resourceOf (at8 (claimBytes (.intent r amount cls attempt cap)) 0) = some r := resourceCode_byte r
    have h1 : at8 (claimBytes (.intent r amount cls attempt cap)) 1 = amount := byte_toNat (amountOk_le hAmount)
    have h2 : at8 (claimBytes (.intent r amount cls attempt cap)) 2 = cls := byte_toNat (by omega)
    have h3 : at8 (claimBytes (.intent r amount cls attempt cap)) 3 = attempt := byte_toNat (by omega)
    have h4 : at16 (claimBytes (.intent r amount cls attempt cap)) 4 = cap := at16_of_bytes rfl rfl (by omega)
    unfold readClaim
    rw [h0, h1, h2, h3, h4, field_low (by omega : cls < 2 ^ 2), field_low (by omega : attempt < 2 ^ 4), field_low (by omega : cap < 2 ^ 12)]
    exact if_pos hAmount
  | held r amount cap =>
    simp only [sendable, Bool.and_eq_true, decide_eq_true_eq] at h
    obtain ⟨hAmount, hCap⟩ := h
    have h0 : resourceOf (at8 (claimBytes (.held r amount cap)) 0) = some r := resourceCode_byte r
    have h1 : at8 (claimBytes (.held r amount cap)) 1 = amount := byte_toNat (amountOk_le hAmount)
    have h2 : at16 (claimBytes (.held r amount cap)) 2 = cap := at16_of_bytes rfl rfl (by omega)
    unfold readClaim
    rw [h0, h1, h2, field_low (by omega : cap < 2 ^ 12)]
    exact if_pos hAmount
  | withdraw r why => cases r <;> cases why <;> rfl
  | release r why => cases r <;> cases why <;> rfl

/-- Settles O15: the identifier and the payload of each kind read back. -/
theorem sentFramesReadBackWhole : Obligations.SentFramesReadBackWhole := by
  intro shaft addr b hs ha ha' h
  refine ⟨?_, _, readRiser_lineFrame b hs ha ha', rfl, rfl, rfl, ?_⟩
  · simp [frameOk, lineFrame, bodyBytes_length]
  · cases b with
    | beacon b => exact congrArg (Option.map FrameBody.beacon) (readBeacon_beaconBytes h)
    | alert a => exact congrArg (Option.map FrameBody.alert) (readAlert_alertBytes (of_decide_eq_true h))
    | claim m => 
      have := congrArg (Option.map FrameBody.claim) (readClaim_claimBytes h)
      cases m <;> exact this

end Sys2Proof.Machine
end

section
/-! PROOF. The evaluation's arithmetic and its hand-off (R4 to R25). -/

namespace Sys2Proof.Machine

/-! ## Enthalpy (R10) -/

/-- The numerator of R10 lies between its values at the ends of the ranges. -/
theorem enthalpyNumerator_bounds {t w : Int} (ht : -500 ≤ t) (ht' : t ≤ 600) (hw : 0 ≤ w) (hw' : w ≤ 300) :
    -503000000 ≤ 1006000 * t + 2501000 * w + 186 * w * t ∧ 1006000 * t + 2501000 * w + 186 * w * t ≤ 1387380000 := by
  have hLow : 0 ≤ w * (t + 500) := Int.mul_nonneg hw (by omega)
  have hHigh : 0 ≤ (300 - w) * (t + 500) := Int.mul_nonneg (by omega) (by omega)
  rw [Int.mul_add] at hLow
  rw [Int.sub_mul, Int.mul_add w] at hHigh
  rw [Int.mul_assoc 186]
  omega

theorem tdiv_hundredThousand {n : Int} (h : 0 ≤ n) : 100000 * Int.tdiv n 100000 ≤ n ∧ n < 100000 * Int.tdiv n 100000 + 100000 := by
  rw [Int.tdiv_eq_ediv_of_nonneg h]
  omega

/-- Settles O35: truncation after half a unit is added away from zero. -/
theorem enthalpyRoundsToNearest : Obligations.EnthalpyRoundsToNearest := by
  intro t w ht ht' hw hw'
  dsimp only
  unfold enthalpy
  dsimp only
  have hBounds := enthalpyNumerator_bounds ht ht' hw hw'
  generalize 1006000 * t + 2501000 * w + 186 * w * t = n at hBounds ⊢
  split
  next hn =>
    have := tdiv_hundredThousand (n := n + 50000) (by omega)
    omega
  next hn =>
    have hNeg : Int.tdiv (n - 50000) 100000 = -Int.tdiv (-n + 50000) 100000 := by
      rw [← Int.neg_tdiv]
      congr 1
      omega
    have := tdiv_hundredThousand (n := -n + 50000) (by omega)
    omega

/-! ## The record of an evaluation (R9 to R24) -/

theorem usesEnthalpy_iff (b : Basis) : usesEnthalpy b = true ↔ b ≠ .drybulb := bne_iff_ne

theorem gate_unknown {d : DecisionItems} {i : EvalInputs} (h : i.bandStatus = .unknown) : gate d i = some .inputUnknown := if_pos h

/-- A return value that BASIS needs is absent (R9). -/
def returnMissing (d : DecisionItems) (i : EvalInputs) : Prop := i.tR = none ∨ (d.basis ≠ .drybulb ∧ i.wR = none)

theorem returnMissing_iff (d : DecisionItems) (i : EvalInputs) :
    (i.tR.isNone || (usesEnthalpy d.basis && i.wR.isNone)) = true ↔ returnMissing d i := by
  rw [Bool.or_eq_true, Bool.and_eq_true, usesEnthalpy_iff, Option.isNone_iff_eq_none, Option.isNone_iff_eq_none]
  exact Iff.rfl

theorem gate_stale {d : DecisionItems} {i : EvalInputs} (h : i.bandStatus ≠ .unknown) (hMissing : returnMissing d i) :
    gate d i = some .returnStale := (if_neg h).trans (if_pos ((returnMissing_iff d i).2 hMissing))

theorem gate_passed {d : DecisionItems} {i : EvalInputs} (h : i.bandStatus ≠ .unknown) (hMissing : ¬returnMissing d i) :
    gate d i = none := (if_neg h).trans (if_neg (mt (returnMissing_iff d i).1 hMissing))

theorem evalRecord_of_gated {c : Settings} {i : EvalInputs} {why : EvalReason} (h : gate c.decision i = some why) (n : Word16) :
    evalRecord c n i = { inputRecord n i with desired := some .safe, reason := some why, demand := some (safeSet c) } := by
  unfold evalRecord
  dsimp only
  rw [h]

/-- The record of an evaluation that passes the gate, before Stage 3 (R10, R18). -/
def stagedRecord (c : Settings) (n : Word16) (i : EvalInputs) (tO tR : Int) : EvalRecord :=
  let tX := exhaustEstimate c.decision tO tR
  { inputRecord n i with
    defrostPermitted := i.defrostAllowed, hO := sideEnthalpy i.tO i.wO, hR := sideEnthalpy i.tR i.wR, tX := tX
    frostRisk := match tX with
                 | some x => decide (x < c.decision.tFrost)
                 | none => false }

/-- What Stage 3 finds for the inputs of an evaluation (R13). -/
def favourLeft (c : Settings) (i : EvalInputs) (tO tR : Int) : Favour :=
  favourOf c.decision i tO (i.wO.getD 0) tR ((sideEnthalpy i.tO i.wO).getD 0) ((sideEnthalpy i.tR i.wR).getD 0)

/-- What Stages 4, 5 and 8 find for the inputs of an evaluation (R14 to R17, R21). -/
def recovered (c : Settings) (n : Word16) (i : EvalInputs) (tO tR : Int) : Mode × EvalReason × Bool × Option Int × Option Nat :=
  recovery c i (favourLeft c i tO tR) (stagedRecord c n i tO tR).frostRisk tO tR ((sideEnthalpy i.tO i.wO).getD 0)
    ((sideEnthalpy i.tR i.wR).getD 0)

theorem evalRecord_of_free {c : Settings} {i : EvalInputs} {tO tR : Int} (hGate : gate c.decision i = none) (hO : i.tO = some tO)
    (hR : i.tR = some tR) (h : favourLeft c i tO tR = .free) (n : Word16) :
    evalRecord c n i =
      { stagedRecord c n i tO tR with
        favour := true, mixing := some (mixingPosition c.outputs.oaMin i.tSp tO tR), desired := some .free
        reason := some .freeFavoured, demand := some (demandSet c .free none (some (mixingPosition c.outputs.oaMin i.tSp tO tR))) } := by
  unfold favourLeft at h
  unfold evalRecord
  dsimp only
  rw [hGate]
  simp only [hO, hR] at h ⊢
  rw [if_pos h]
  simp only [stagedRecord, hO, hR] <;> rfl

theorem evalRecord_of_recovery {c : Settings} {i : EvalInputs} {tO tR : Int} (hGate : gate c.decision i = none) (hO : i.tO = some tO)
    (hR : i.tR = some tR) (h : favourLeft c i tO tR ≠ .free) (n : Word16) :
    evalRecord c n i =
      let x := recovered c n i tO tR
      { stagedRecord c n i tO tR with
        recoveryUseful := x.2.2.1, needed := x.2.2.2.1, speed := x.2.2.2.2, desired := some x.1, reason := some x.2.1
        demand := some (demandSet c x.1 x.2.2.2.2 none) } := by
  unfold favourLeft at h
  unfold evalRecord
  dsimp only
  rw [hGate]
  simp only [hO, hR] at h ⊢
  rw [if_neg h]
  simp only [recovered, favourLeft, stagedRecord, hO, hR] <;> rfl

theorem favourOf_eq_free {d : DecisionItems} {i : EvalInputs} {tO wO tR hO hR : Int} :
    favourOf d i tO wO tR hO hR = .free ↔
      comparison d i.inFree tO tR hO hR = true ∧ withinLimits d i.inFree tO wO = true ∧ i.isolated = false := by
  unfold favourOf
  cases comparison d i.inFree tO tR hO hR <;> cases withinLimits d i.inFree tO wO <;> cases i.isolated <;> simp

theorem favourOf_of_unlike {d : DecisionItems} {i : EvalInputs} {tO wO tR hO hR : Int} (h : comparison d i.inFree tO tR hO hR = false) :
    favourOf d i tO wO tR hO hR = .none := by rw [favourOf, h]; rfl

theorem favourOf_of_outside {d : DecisionItems} {i : EvalInputs} {tO wO tR hO hR : Int} (h : comparison d i.inFree tO tR hO hR = true)
    (hOut : withinLimits d i.inFree tO wO = false) : favourOf d i tO wO tR hO hR = .outdoorLimit := by rw [favourOf, h, hOut]; rfl

theorem favourOf_of_isolated {d : DecisionItems} {i : EvalInputs} {tO wO tR hO hR : Int} (h : comparison d i.inFree tO tR hO hR = true)
    (hIn : withinLimits d i.inFree tO wO = true) (hCut : i.isolated = true) : favourOf d i tO wO tR hO hR = .isolated := by
  rw [favourOf, h, hIn, hCut]; rfl

theorem comparison_iff {d : DecisionItems} {inFree : Bool} {tO tR hO hR : Int} :
    comparison d inFree tO tR hO hR = true ↔
      (d.basis = .enthalpy ∨ (if inFree then tO < tR - d.dtOff else tO ≤ tR - d.dtOn))
        ∧ (d.basis = .drybulb ∨ (if inFree then hO < hR - d.dhOff else hO ≤ hR - d.dhOn)) := by
  unfold comparison favourTest usesDrybulb usesEnthalpy
  cases d.basis <;> cases inFree <;> simp

theorem withinLimits_iff {d : DecisionItems} {inFree : Bool} {tO wO : Int} :
    withinLimits d inFree tO wO = true ↔
      d.tFreeLow - (if inFree then d.limBand else 0) ≤ tO ∧ tO ≤ d.tFreeHigh + (if inFree then d.limBand else 0)
        ∧ (d.basis = .drybulb ∨ wO ≤ d.wFreeHigh + (if inFree then d.limBand else 0)) := by
  unfold withinLimits usesEnthalpy
  cases d.basis <;> simp [and_assoc]

theorem useful_iff {d : DecisionItems} {tO tR hO hR : Int} :
    useful d tO tR hO hR = true ↔
      d.dtRec ≤ ((tR - tO).natAbs : Int) ∧ (d.basis = .drybulb ∨ d.dhRec ≤ ((hR - hO).natAbs : Int)) := by
  unfold useful usesEnthalpy
  cases d.basis <;> simp

/-- Stage 4 without use (R14, R22). -/
theorem recovery_of_useless {c : Settings} {i : EvalInputs} {left : Favour} {risk : Bool} {tO tR hO hR : Int}
    (h : useful c.decision tO tR hO hR = false) : ∃ why, recovery c i left risk tO tR hO hR = (.neutral, why, false, none, none)
      ∧ (left = .outdoorLimit → why = .outdoorLimit) ∧ (left = .isolated → why = .isolated) ∧ (left = .none → why = .recoveryNotUseful) := by
  unfold recovery
  dsimp only
  rw [h, if_pos (by decide)]
  refine ⟨_, rfl, ?_, ?_, ?_⟩ <;> (rintro rfl; rfl)

/-- Stage 5 with the setpoint on the other side (R15, R22). -/
theorem recovery_of_otherSide {c : Settings} {i : EvalInputs} {left : Favour} {risk : Bool} {tO tR hO hR : Int}
    (h : useful c.decision tO tR hO hR = true) (hShare : neededShare i.tSp tO tR ≤ 0) :
    ∃ why, recovery c i left risk tO tR hO hR = (.neutral, why, true, some (neededShare i.tSp tO tR), none)
      ∧ (left = .outdoorLimit → why = .outdoorLimit) ∧ (left = .isolated → why = .isolated) ∧ (left = .none → why = .setpointOtherSide) := by
  unfold recovery
  dsimp only
  rw [h, if_neg (by decide), if_pos hShare]
  refine ⟨_, rfl, ?_, ?_, ?_⟩ <;> (rintro rfl; rfl)

/-- Stage 8 with a defrost request (R17, R21). -/
theorem recovery_of_frost {c : Settings} {i : EvalInputs} {left : Favour} {risk : Bool} {tO tR hO hR : Int}
    (h : useful c.decision tO tR hO hR = true) (hShare : 0 < neededShare i.tSp tO tR) (hFrost : (risk && i.defrostAllowed) = true) :
    recovery c i left risk tO tR hO hR = (.defrost, .frost, true, some (min (neededShare i.tSp tO tR) 1000),
      some (cappedSpeed c.decision risk i.inDefrost (min (neededShare i.tSp tO tR) 1000).toNat)) := by
  unfold recovery
  dsimp only
  rw [h, if_neg (by decide), if_neg (Int.not_le.2 hShare), if_pos hFrost, Int.toNat_of_nonneg (by omega)]

/-- Stage 5 with a wheel speed and no defrost request (R16, R17, R22). -/
theorem recovery_of_speed {c : Settings} {i : EvalInputs} {left : Favour} {risk : Bool} {tO tR hO hR : Int}
    (h : useful c.decision tO tR hO hR = true) (hShare : 0 < neededShare i.tSp tO tR) (hFrost : (risk && i.defrostAllowed) = false) :
    ∃ why, recovery c i left risk tO tR hO hR = (.recover, why, true, some (min (neededShare i.tSp tO tR) 1000),
        some (cappedSpeed c.decision risk i.inDefrost (min (neededShare i.tSp tO tR) 1000).toNat))
      ∧ (left = .outdoorLimit → why = .outdoorLimit) ∧ (left = .isolated → why = .isolated) ∧ (left = .none → why = .recoveryUseful) := by
  unfold recovery
  dsimp only
  rw [h, if_neg (by decide), if_neg (Int.not_le.2 hShare), hFrost, if_neg (by decide), Int.toNat_of_nonneg (by omega)]
  refine ⟨_, rfl, ?_, ?_, ?_⟩ <;> (rintro rfl; rfl)

theorem exhaustEstimate_eq (d : DecisionItems) (tO tR : Int) :
    exhaustEstimate d tO tR = if tO < tR then some (Int.fdiv (1000 * tR - d.eff * (tR - tO)) 1000) else none := rfl

theorem stagedRecord_frostRisk_iff {c : Settings} {n : Word16} {i : EvalInputs} {tO tR : Int} :
    (stagedRecord c n i tO tR).frostRisk = true ↔
      tO < tR ∧ Int.fdiv (1000 * tR - c.decision.eff * (tR - tO)) 1000 < c.decision.tFrost := by
  unfold stagedRecord exhaustEstimate
  dsimp only
  by_cases h : tO < tR <;> simp [h]

theorem cappedSpeed_eq (d : DecisionItems) (risk inDefrost : Bool) (needed : Nat) :
    cappedSpeed d risk inDefrost needed =
      if risk = true ∧ inDefrost = false then min (wheelSpeed d needed) d.frostCap else wheelSpeed d needed := by
  unfold cappedSpeed
  cases risk <;> cases inDefrost <;> rfl

/-- What Stage 3 leaves where it does not give FREE, line by line of R22 (R13). -/
theorem favourLeft_of_not_free {c : Settings} {i : EvalInputs} {tO tR : Int} {like within : Prop}
    (hLike : comparison c.decision i.inFree tO tR ((sideEnthalpy i.tO i.wO).getD 0) ((sideEnthalpy i.tR i.wR).getD 0) = true ↔ like)
    (hWithin : withinLimits c.decision i.inFree tO (i.wO.getD 0) = true ↔ within) :
    (favourLeft c i tO tR = .free ↔ like ∧ within ∧ i.isolated = false) ∧ (¬like → favourLeft c i tO tR = .none)
      ∧ (like → ¬within → favourLeft c i tO tR = .outdoorLimit)
      ∧ (like → within → i.isolated = true → favourLeft c i tO tR = .isolated) := by
  refine ⟨by rw [← hLike, ← hWithin]; exact favourOf_eq_free, fun h => ?_, fun h hOut => ?_, fun h hIn hCut => ?_⟩
  · exact favourOf_of_unlike (Bool.not_eq_true _ ▸ mt hLike.1 h)
  · exact favourOf_of_outside (hLike.2 h) (Bool.not_eq_true _ ▸ mt hWithin.1 hOut)
  · exact favourOf_of_isolated (hLike.2 h) (hWithin.2 hIn) hCut

theorem sideEnthalpy_some (t : Int) (w : Option Int) : sideEnthalpy (some t) w = w.map (enthalpy t) := by cases w <;> rfl

/-- The fields the last stages leave as the first ones set them. -/
theorem evalRecord_staged {c : Settings} {i : EvalInputs} {tO tR : Int} (hGate : gate c.decision i = none) (hO : i.tO = some tO)
    (hR : i.tR = some tR) (n : Word16) :
    (evalRecord c n i).hO = i.wO.map (enthalpy tO) ∧ (evalRecord c n i).hR = i.wR.map (enthalpy tR)
      ∧ (evalRecord c n i).tX = exhaustEstimate c.decision tO tR
      ∧ (evalRecord c n i).frostRisk = (stagedRecord c n i tO tR).frostRisk := by
  have hSideO : sideEnthalpy i.tO i.wO = i.wO.map (enthalpy tO) := by rw [hO, sideEnthalpy_some]
  have hSideR : sideEnthalpy i.tR i.wR = i.wR.map (enthalpy tR) := by rw [hR, sideEnthalpy_some]
  by_cases h : favourLeft c i tO tR = .free
  · rw [evalRecord_of_free hGate hO hR h n]
    exact ⟨hSideO, hSideR, rfl, rfl⟩
  · rw [evalRecord_of_recovery hGate hO hR h n]
    exact ⟨hSideO, hSideR, rfl, rfl⟩

/-- The lines of R22's table that a record meets where Stage 3 does not give FREE. -/
theorem evalRecord_outcome {c : Settings} {i : EvalInputs} {tO tR : Int} (hGate : gate c.decision i = none) (hO : i.tO = some tO)
    (hR : i.tR = some tR) (n : Word16) {like within use cold : Prop}
    (hLeft : (¬like → favourLeft c i tO tR = .none) ∧ (like → ¬within → favourLeft c i tO tR = .outdoorLimit)
      ∧ (like → within → i.isolated = true → favourLeft c i tO tR = .isolated))
    (hNot : favourLeft c i tO tR ≠ .free) (hCutOff : like → within → i.isolated = true)
    (hUse : useful c.decision tO tR ((sideEnthalpy i.tO i.wO).getD 0) ((sideEnthalpy i.tR i.wR).getD 0) = true ↔ use)
    (hCold : (stagedRecord c n i tO tR).frostRisk = true ↔ cold) :
    let e := evalRecord c n i
    let share := neededShare i.tSp tO tR
    e.favour = false ∧ (e.recoveryUseful = true ↔ use)
      ∧ (use → 0 < share →
          e.speed = some (cappedSpeed c.decision (stagedRecord c n i tO tR).frostRisk i.inDefrost (min share 1000).toNat)
            ∧ e.needed = some (min share 1000)
            ∧ (cold → i.defrostAllowed = true → e.desired = some .defrost ∧ e.reason = some .frost
                ∧ e.demand = some ⟨c.outputs.oaMin, 1000, 1000⟩)
            ∧ (¬(cold ∧ i.defrostAllowed = true) → e.desired = some .recover))
      ∧ (¬(use ∧ 0 < share) → e.speed = none ∧ e.desired = some .neutral ∧ e.demand = some ⟨c.outputs.oaMin, 1000, 0⟩)
      ∧ (¬(use ∧ 0 < share ∧ cold ∧ i.defrostAllowed = true) →
          (like → ¬within → e.reason = some .outdoorLimit) ∧ (like → within → e.reason = some .isolated)
            ∧ (¬like → ¬use → e.reason = some .recoveryNotUseful)
            ∧ (¬like → use → share ≤ 0 → e.reason = some .setpointOtherSide ∧ e.needed = some share)
            ∧ (¬like → use → 0 < share → e.reason = some .recoveryUseful)) := by
  obtain ⟨hNone, hOut, hCut⟩ := hLeft
  dsimp only
  rw [evalRecord_of_recovery hGate hO hR hNot n]
  dsimp only
  by_cases hu : use
  · have hu' := hUse.2 hu
    by_cases hs : 0 < neededShare i.tSp tO tR
    · by_cases hf : cold ∧ i.defrostAllowed = true
      · have hx : recovered c n i tO tR = _ := recovery_of_frost hu' hs (by rw [hCold.2 hf.1, hf.2]; rfl)
        rw [hx]
        exact ⟨rfl, ⟨fun _ => hu, fun _ => rfl⟩, fun _ _ => ⟨rfl, rfl, fun _ _ => ⟨rfl, rfl, rfl⟩, fun h => absurd hf h⟩,
          fun h => absurd ⟨hu, hs⟩ h, fun h => absurd ⟨hu, hs, hf⟩ h⟩
      · have hf' : ((stagedRecord c n i tO tR).frostRisk && i.defrostAllowed) = false :=
          Bool.not_eq_true _ ▸ fun h => hf (by rwa [Bool.and_eq_true, hCold] at h)
        obtain ⟨why, hx, hLim, hIso, hOwn⟩ := recovery_of_speed (left := favourLeft c i tO tR) hu' hs hf'
        rw [show recovered c n i tO tR = _ from hx]
        exact ⟨rfl, ⟨fun _ => hu, fun _ => rfl⟩, fun _ _ => ⟨rfl, rfl, fun h1 h2 => absurd ⟨h1, h2⟩ hf, fun _ => rfl⟩,
          fun h => absurd ⟨hu, hs⟩ h, fun _ => ⟨fun h1 h2 => congrArg some (hLim (hOut h1 h2)),
            fun h1 h2 => congrArg some (hIso (hCut h1 h2 (hCutOff h1 h2))), fun _ h => absurd hu h, fun _ _ h => absurd hs (Int.not_lt.2 h),
            fun h _ _ => congrArg some (hOwn (hNone h))⟩⟩
    · obtain ⟨why, hx, hLim, hIso, hOwn⟩ :=
        recovery_of_otherSide (left := favourLeft c i tO tR) (risk := (stagedRecord c n i tO tR).frostRisk) hu' (Int.not_lt.1 hs)
      rw [show recovered c n i tO tR = _ from hx]
      exact ⟨rfl, ⟨fun _ => hu, fun _ => rfl⟩, fun _ h => absurd h hs, fun _ => ⟨rfl, rfl, rfl⟩,
        fun _ => ⟨fun h1 h2 => congrArg some (hLim (hOut h1 h2)), fun h1 h2 => congrArg some (hIso (hCut h1 h2 (hCutOff h1 h2))),
          fun _ h => absurd hu h, fun h _ _ => ⟨congrArg some (hOwn (hNone h)), rfl⟩, fun _ _ h => absurd h hs⟩⟩
  · obtain ⟨why, hx, hLim, hIso, hOwn⟩ :=
      recovery_of_useless (i := i) (left := favourLeft c i tO tR) (risk := (stagedRecord c n i tO tR).frostRisk)
        (Bool.not_eq_true _ ▸ mt hUse.1 hu)
    rw [show recovered c n i tO tR = _ from hx]
    exact ⟨rfl, ⟨fun h => absurd h Bool.false_ne_true, fun h => absurd h hu⟩, fun h => absurd h hu, fun _ => ⟨rfl, rfl, rfl⟩,
      fun _ => ⟨fun h1 h2 => congrArg some (hLim (hOut h1 h2)), fun h1 h2 => congrArg some (hIso (hCut h1 h2 (hCutOff h1 h2))),
        fun h _ => congrArg some (hOwn (hNone h)), fun _ h => absurd h hu, fun _ h => absurd h hu⟩⟩

/-- Settles O37: Stage 3 gives FREE or leaves its finding, and the recovery stages end by their own cases. -/
theorem evaluationEndsByItsOutcomeTable : Obligations.EvaluationEndsByItsOutcomeTable := by
  intro c n i tO tR hGate hO hR
  dsimp only
  obtain ⟨hHO, hHR, hTX, hRiskEq⟩ := evalRecord_staged hGate hO hR n
  have hSideO : sideEnthalpy i.tO i.wO = i.wO.map (enthalpy tO) := by rw [hO, sideEnthalpy_some]
  have hSideR : sideEnthalpy i.tR i.wR = i.wR.map (enthalpy tR) := by rw [hR, sideEnthalpy_some]
  obtain ⟨hFree, hLeft⟩ := favourLeft_of_not_free (c := c) (i := i) (tO := tO) (tR := tR) comparison_iff withinLimits_iff
  have hOutcome := fun hNot hCutOff => evalRecord_outcome hGate hO hR n hLeft hNot hCutOff useful_iff stagedRecord_frostRisk_iff
  dsimp only at hOutcome
  rw [hSideO, hSideR] at hFree hOutcome
  rw [hHO, hHR, hTX, hRiskEq]
  refine ⟨fun w hw => by rw [hw]; rfl, fun hw => by rw [hw]; rfl, fun w hw => by rw [hw]; rfl, fun hw => by rw [hw]; rfl, rfl,
    stagedRecord_frostRisk_iff, fun hLike hIn hOn => ?_, fun h => ?_⟩
  · rw [evalRecord_of_free hGate hO hR (hFree.2 ⟨hLike, hIn, hOn⟩) n]
    exact ⟨rfl, rfl, rfl, rfl⟩
  · obtain ⟨hFavour, hUse, hSpeed, hNeutral, hReason⟩ :=
      hOutcome (mt hFree.1 h) fun hLike hIn => Bool.not_eq_false _ ▸ fun hOn => h ⟨hLike, hIn, hOn⟩
    refine ⟨hFavour, hUse, fun hu hs => ?_, hNeutral, hReason⟩
    obtain ⟨hSpeed, hRest⟩ := hSpeed hu hs
    exact ⟨hSpeed.trans (congrArg some (cappedSpeed_eq ..)), hRest⟩

end Sys2Proof.Machine
end

section
/-! PROOF. The band estimate and the evaluation as it is made and handed on (R4 to R9, R25, R147 to R157). -/

namespace Sys2Proof.Machine

/-! ## The band (R147 to R156) -/

theorem estimate_of_value {s : State} {v : BandValue}
    (h : sourceValue (disagreementCheck (peerSamples s) s).band.source (ownQuality (disagreementCheck (peerSamples s) s))
      (ownReading (disagreementCheck (peerSamples s) s)) (peerSamples s) (disagreementCheck (peerSamples s) s).now = some v) :
    estimate s = foundValue v (disagreementCheck (peerSamples s) s) := by
  unfold estimate
  dsimp only
  rw [h]

theorem estimate_of_none {s : State}
    (h : sourceValue (disagreementCheck (peerSamples s) s).band.source (ownQuality (disagreementCheck (peerSamples s) s))
      (ownReading (disagreementCheck (peerSamples s) s)) (peerSamples s) (disagreementCheck (peerSamples s) s).now = none) :
    estimate s = foundNone (disagreementCheck (peerSamples s) s) := by
  unfold estimate
  dsimp only
  rw [h]

theorem foundValue_band (v : BandValue) (s : State) :
    (foundValue v s).band = { s.band with value := some v, status := .valid, lost := false, holdTimer := none } := by
  unfold foundValue; dsimp only; split <;> rfl

theorem foundNone_of_not_valid {s : State} (h : s.band.status ≠ .valid) : foundNone s = s := if_neg h

theorem foundNone_of_no_hold {s : State} (h : s.band.status = .valid) (hHold : s.cfg.band.tBANDHOLD = 0) : foundNone s = loseBand s :=
  (if_pos h).trans (if_pos hHold)

/-- The hold starts (R152). -/
def holdBand (s : State) : State := s.setBand { s.band with status := .held, holdTimer := some (s.now + secs s.cfg.band.tBANDHOLD) }

theorem foundNone_of_value {s : State} {v : BandValue} (h : s.band.status = .valid) (hHold : s.cfg.band.tBANDHOLD ≠ 0)
    (hv : s.band.value = some v) : foundNone s = post (.bandHeld v.t v.w) (holdBand s) := by
  unfold foundNone
  rw [if_pos h, if_neg hHold]
  dsimp only
  split
  next x hx => cases hv.symm.trans hx; rfl
  next hx => cases hv.symm.trans hx

theorem foundNone_of_no_value {s : State} (h : s.band.status = .valid) (hHold : s.cfg.band.tBANDHOLD ≠ 0) (hv : s.band.value = none) :
    foundNone s = holdBand s := by
  unfold foundNone
  rw [if_pos h, if_neg hHold]
  dsimp only
  split
  next x hx => cases hv.symm.trans hx
  · rfl

theorem foundNone_band (s : State) :
    (foundNone s).band =
      if s.band.status ≠ .valid then s.band
      else if s.cfg.band.tBANDHOLD = 0 then { s.band with value := none, status := .unknown, lost := true, holdTimer := none }
      else { s.band with status := .held, holdTimer := some (s.now + s.cfg.band.tBANDHOLD * 1000) } := by
  by_cases h : s.band.status = .valid
  · rw [if_neg (Classical.not_not.2 h)]
    by_cases hHold : s.cfg.band.tBANDHOLD = 0
    · rw [if_pos hHold, foundNone_of_no_hold h hHold]; rfl
    · rw [if_neg hHold]
      cases hv : s.band.value with
      | none => rw [foundNone_of_no_value h hHold hv]; rfl
      | some v => rw [foundNone_of_value h hHold hv]; rfl
  · rw [if_pos h, foundNone_of_not_valid h]

theorem foundValue_of_restored {s : State} (v : BandValue) (h : s.band.status = .held ∨ (s.band.status = .unknown ∧ s.band.lost = true)) :
    foundValue v s = post (.bandRestored v.t v.w v.origin)
      (s.setBand { s.band with value := some v, status := .valid, lost := false, holdTimer := none }) := by
  unfold foundValue
  dsimp only
  rw [if_pos (by simpa using h)]

theorem foundValue_of_new {s : State} (v : BandValue) (h : s.band.status = .valid ∨ (s.band.status = .unknown ∧ s.band.lost = false)) :
    foundValue v s = s.setBand { s.band with value := some v, status := .valid, lost := false, holdTimer := none } := by
  unfold foundValue
  dsimp only
  rw [if_neg (by rcases h with h | ⟨h, hl⟩ <;> simp [*])]

theorem bandHoldExpiry_of_due {s : State} (h : bandHoldDue s = true) : exec .bandHoldExpiry s = .next (loseBand s) :=
  congrArg Host.Outcome.next (if_pos h)

/-- Settles O41: `foundValue`, `foundNone` and the hold timer's expiry, by the status they meet. -/
theorem bandStatusMovesByEstimateAndHold : Obligations.BandStatusMovesByEstimateAndHold := by
  intro s
  refine ⟨fun v => ⟨foundValue_band v s, fun h hRoom => ?restored, fun h => ?new⟩, foundNone_of_not_valid, fun v h hv hHold => ?held,
    fun h hHold => ?lost, fun h => congrArg Host.Outcome.next (if_neg (by rw [h]; decide)), fun hc hr h hDue => ?expiry⟩
  case restored => rw [foundValue_of_restored v h]; exact posted_post_of_room hRoom _
  case new => rw [foundValue_of_new v h]; rfl
  case held =>
    rw [foundNone_of_value h hHold hv]
    exact ⟨rfl, fun hRoom => posted_post_of_room hRoom _⟩
  case lost =>
    rw [foundNone_of_no_hold h hHold]
    exact ⟨rfl, fun hRoom => posted_post_of_room hRoom _⟩
  case expiry =>
    obtain ⟨x, hx, hle⟩ := hDue
    have hDue : bandHoldDue s = true := by
      simp [bandHoldDue, running, hc, hr, h, due, hx, hle]
    exact ⟨_, bandHoldExpiry_of_due hDue, rfl, fun hRoom => posted_post_of_room hRoom _⟩

theorem isSample_iff (s : State) (p : PeerRecord) :
    isSample s p = true ↔ p.fresh = true ∧ p.quality = .valid
      ∧ (p.level ≤ ownLevel s + s.cfg.band.bandHalf ∧ ownLevel s ≤ p.level + s.cfg.band.bandHalf)
      ∧ (s.cfg.band.bandShaft = .any ∨ p.shaft = ownShaft s) := by
  simp only [isSample, Bool.and_eq_true, Bool.or_eq_true, decide_eq_true_eq, and_assoc]
  refine and_congr_right fun _ => and_congr_right fun _ => ?_
  rw [← and_assoc]
  refine and_congr_left fun _ => ?_
  omega

theorem disagrees_iff (c : Settings) (own mid : Sample) :
    disagrees c own mid = true ↔ c.band.disTolT < (own.1 - mid.1).natAbs ∨ c.band.disTolW < (own.2 - mid.2).natAbs := by
  simp only [disagrees, Bool.or_eq_true, decide_eq_true_eq, Int.ofNat_lt]

/-- The three ways the check ends where its conditions hold (R155, R156). -/
theorem disagreementCheck_of_conditions {s : State} {peers : List Sample} (hPeers : s.cfg.band.disMinPeers ≤ peers.length)
    (hOwn : ownQuality s ≠ .absent) :
    disagreementCheck peers s =
      let own := ownReading s
      let mid := medianOf peers
      if disagrees s.cfg own mid = s.band.disagree then s.setBand { s.band with counter := 0 }
      else if s.band.counter + 1 < s.cfg.band.disCount then s.setBand { s.band with counter := s.band.counter + 1 }
      else post (if s.band.disagree then .ownProbeRestored own.1 own.2 mid.1 mid.2 else .ownProbeDisagree own.1 own.2 mid.1 mid.2)
        (s.setBand { s.band with disagree := !s.band.disagree, counter := 0 }) := by
  have hConditions : ¬(decide (peers.length < s.cfg.band.disMinPeers) || decide (ownQuality s = .absent)) = true := by
    simp [hOwn, hPeers]
  exact if_neg hConditions

/-- The check leaves all but the band and the notices (R155). -/
theorem disagreementCheck_same (peers : List Sample) (s : State) :
    (disagreementCheck peers s).now = s.now ∧ (disagreementCheck peers s).cfg = s.cfg
      ∧ (disagreementCheck peers s).port.meas = s.port.meas := by
  unfold disagreementCheck
  dsimp only
  split
  · exact ⟨rfl, rfl, rfl⟩
  · split
    · exact ⟨rfl, rfl, rfl⟩
    · split <;> exact ⟨rfl, rfl, rfl⟩

theorem ownReading_congr {s t : State} (h : t.port.meas = s.port.meas) : ownReading t = ownReading s := by
  simp only [ownReading, h]

theorem ownQuality_eq (s : State) (h : fresh s .probeT = true ∧ fresh s .probeW = true) :
    ownQuality s = if s.band.disagree then .disagree else .valid := by
  rw [ownQuality, h.1, h.2]; rfl

theorem fresh_congr {s t : State} (hm : t.port.meas = s.port.meas) (hc : t.cfg = s.cfg) (hn : t.now = s.now) (ch : MeasChannel) :
    fresh t ch = fresh s ch := by
  simp only [fresh, hm, hc, hn]

theorem fresh_of_quality {s : State} (h : ownQuality s ≠ .absent) : fresh s .probeT = true ∧ fresh s .probeW = true := by
  rw [← Bool.and_eq_true]
  refine Classical.byContradiction fun hNot => ?_
  exact h (if_neg hNot)

/-- The value the median of samples gives (R149, R150). -/
def medianValue (l : List Sample) (now : Time) : BandValue :=
  { t := median (l.map (·.1)), w := median (l.map (·.2)), origin := .median, count := l.length, foundAt := now }

theorem sourceValue_of_valid (own : Sample) (peers : List Sample) (now : Time) :
    sourceValue .band .valid own peers now = some (medianValue (peers ++ [own]) now)
      ∧ sourceValue .ownFirst .valid own peers now = some { t := own.1, w := own.2, origin := .own, count := 1, foundAt := now }
      ∧ sourceValue .ownOnly .valid own peers now = some { t := own.1, w := own.2, origin := .own, count := 1, foundAt := now } := by
  refine ⟨?_, rfl, rfl⟩
  unfold sourceValue
  dsimp only
  rw [if_pos rfl, if_neg (by simp)]
  rfl

theorem sourceValue_of_not_valid {q : Quality} (hq : q ≠ .valid) (own : Sample) (peers : List Sample) (now : Time) :
    sourceValue .ownOnly q own peers now = none
      ∧ ∀ x, x = .band ∨ x = .ownFirst → (peers ≠ [] → sourceValue x q own peers now =
            some (medianValue peers now))
          ∧ (peers = [] → sourceValue x q own peers now = none) := by
  unfold sourceValue
  dsimp only
  refine ⟨if_neg hq, ?_⟩
  rintro x (rfl | rfl) <;> dsimp only <;> rw [if_neg hq]
  all_goals
    refine ⟨fun h => ?_, fun h => if_pos (by rw [h]; rfl)⟩
    rw [if_neg (by simpa using h)]
    rfl

/-- Settles O40: the samples by `isSample`, the sources by the quality, the check by its three ends, and the band by `foundValue` and
`foundNone`. -/
theorem disagreementIsCountedAndTurnsTheVerdict : Obligations.DisagreementIsCountedAndTurnsTheVerdict := by
  refine ⟨fun s counts h => ?samples, fun q own peers now => ⟨fun hq => ?valid, fun hq => sourceValue_of_not_valid hq own peers now⟩,
    fun s => ⟨fun h => ?idle, fun hPeers hOwn => ⟨fun h => ?agree, fun h hCount => ?counted, fun h hCount => ?turned, ?quality⟩, rfl,
      ?estimated⟩⟩
  case samples =>
    refine congrArg (List.map _) (List.filter_congr fun p hp => ?_)
    rw [Bool.eq_iff_iff, isSample_iff, h p hp]
  case valid => subst hq; exact sourceValue_of_valid own peers now
  case idle => exact if_pos (by simpa using h)
  case agree =>
    rw [disagreementCheck_of_conditions hPeers hOwn]
    exact if_pos (by rw [Bool.eq_iff_iff, disagrees_iff]; exact h.symm)
  case counted =>
    rw [disagreementCheck_of_conditions hPeers hOwn]
    exact (if_neg (by rw [Bool.eq_iff_iff, disagrees_iff]; exact fun e => h e.symm)).trans (if_pos hCount)
  case turned =>
    rw [disagreementCheck_of_conditions hPeers hOwn]
    exact (if_neg (by rw [Bool.eq_iff_iff, disagrees_iff]; exact fun e => h e.symm)).trans (if_neg (Nat.not_lt.2 hCount))
  case quality =>
    obtain ⟨hNow, hCfg, hMeas⟩ := disagreementCheck_same (peerSamples s) s
    have hFresh := fresh_of_quality hOwn
    exact ownQuality_eq _ ⟨(fresh_congr hMeas hCfg hNow .probeT).trans hFresh.1, (fresh_congr hMeas hCfg hNow .probeW).trans hFresh.2⟩
  case estimated =>
    obtain ⟨hNow, hCfg, hMeas⟩ := disagreementCheck_same (peerSamples s) s
    rw [← ownReading_congr hMeas, ← hNow]
    split
    next v hv => rw [estimate_of_value hv]; exact foundValue_band v _
    next hv => rw [estimate_of_none hv, foundNone_band, hCfg]

/-! ## The gate and the inputs (R6, R9, R17, R21) -/

theorem evalRecord_of_no_value {c : Settings} {i : EvalInputs} (hGate : gate c.decision i = none) (hO : i.tO = none) (n : Word16) :
    evalRecord c n i = { inputRecord n i with desired := some .safe, reason := some .inputUnknown, demand := some (safeSet c) } := by
  unfold evalRecord
  dsimp only
  rw [hGate]
  simp only [hO]

/-- A HELD band is used exactly as a VALID one (R9). -/
theorem evalRecord_of_held (c : Settings) (n : Word16) (i : EvalInputs) :
    evalRecord c n { i with bandStatus := .held } = { evalRecord c n { i with bandStatus := .valid } with bandStatus := .held } := by
  by_cases hMissing : returnMissing c.decision i
  · rw [evalRecord_of_gated (gate_stale (i := { i with bandStatus := .held }) nofun hMissing),
      evalRecord_of_gated (gate_stale (i := { i with bandStatus := .valid }) nofun hMissing)]
    rfl
  have hHeld : gate c.decision { i with bandStatus := .held } = none := gate_passed nofun hMissing
  have hValid : gate c.decision { i with bandStatus := .valid } = none := gate_passed nofun hMissing
  rcases Option.eq_none_or_eq_some i.tO with hO | ⟨tO, hO⟩
  · rw [evalRecord_of_no_value hHeld hO, evalRecord_of_no_value hValid hO]
    rfl
  rcases Option.eq_none_or_eq_some i.tR with hR | ⟨tR, hR⟩
  · exact absurd (.inl hR) hMissing
  by_cases hFree : favourLeft c i tO tR = .free
  · rw [evalRecord_of_free hHeld hO hR hFree, evalRecord_of_free hValid hO hR hFree]
    rfl
  · rw [evalRecord_of_recovery hHeld hO hR hFree, evalRecord_of_recovery hValid hO hR hFree]
    rfl

/-- The recovery stages give no reason of the gate (R9, R22). -/
theorem recovery_reason {c : Settings} {i : EvalInputs} {left : Favour} {risk : Bool} {tO tR hO hR : Int} :
    (recovery c i left risk tO tR hO hR).2.1 ≠ .inputUnknown ∧ (recovery c i left risk tO tR hO hR).2.1 ≠ .returnStale := by
  unfold recovery
  dsimp only
  split
  · cases left <;> exact ⟨nofun, nofun⟩
  · split
    · cases left <;> exact ⟨nofun, nofun⟩
    · split
      · exact ⟨nofun, nofun⟩
      · cases left <;> exact ⟨nofun, nofun⟩

theorem evalRecord_reason {c : Settings} {i : EvalInputs} {tO tR : Int} (hGate : gate c.decision i = none) (hO : i.tO = some tO)
    (hR : i.tR = some tR) (n : Word16) :
    (evalRecord c n i).reason ≠ some .inputUnknown ∧ (evalRecord c n i).reason ≠ some .returnStale := by
  by_cases hFree : favourLeft c i tO tR = .free
  · rw [evalRecord_of_free hGate hO hR hFree]
    exact ⟨nofun, nofun⟩
  · rw [evalRecord_of_recovery hGate hO hR hFree]
    exact ⟨fun h => recovery_reason.1 (Option.some.inj h), fun h => recovery_reason.2 (Option.some.inj h)⟩

/-- A channel's value is absent for an evaluation when it is absent in the store or has reached tMEASAGE (R6). -/
theorem freshValue_eq_none_iff {s : State} {ch : MeasChannel} :
    freshValue s ch = none ↔ ∀ v a, (measOf s.port.meas ch).value = some v → (measOf s.port.meas ch).arrival = some a →
      a + s.cfg.band.tMEASAGE * 1000 ≤ s.now := by
  unfold freshValue fresh aged secs
  dsimp only
  generalize measOf s.port.meas ch = m
  obtain ⟨value, arrival, _, _⟩ := m
  cases value <;> cases arrival <;> simp

/-- The station is in a mode by its mode, its transition's target, or the target its suspension record keeps (R11, R17). -/
theorem inMode_iff {s : State} {m : Mode} :
    inMode s m = true ↔ s.seq.mode = some m ∨ (∃ x, s.seq.transition = some x ∧ x.target = m)
      ∨ (s.seq.transition = none ∧ ∃ x, s.seq.record = some x ∧ x.target = m) := by
  unfold inMode targetOf
  rw [Bool.or_eq_true, decide_eq_true_eq, decide_eq_true_eq]
  refine or_congr_right ?_
  cases s.seq.transition with
  | none => simp
  | some x => simp

theorem isolated_iff {s : State} : isolated s = true ↔ s.link.state = .offline ∨ s.link.state = .clashed := by
  rw [isolated, Bool.or_eq_true, decide_eq_true_eq, decide_eq_true_eq]

theorem defrostAllowed_iff {s : State} :
    defrostAllowed s = true ↔
      (s.seq.mode = some .recover ∧ s.seq.phase = some .settled)
        ∧ (∀ x, s.seq.defrostEnd = some x → x + s.cfg.decision.tDEFINT * 1000 ≤ s.now)
        ∧ (procOf s .defrost).state ≠ .starved ∧ ¬(s.link.state = .offline ∨ s.link.state = .clashed) := by
  have hInterval : defrostIntervalOk s = true ↔ ∀ x, s.seq.defrostEnd = some x → x + s.cfg.decision.tDEFINT * 1000 ≤ s.now := by
    unfold defrostIntervalOk aged secs
    cases s.seq.defrostEnd <;> simp
  simp only [defrostAllowed, settled, Bool.and_eq_true, Bool.not_eq_true', decide_eq_true_eq, bne_iff_ne, hInterval, and_assoc,
    ← isolated_iff, Bool.not_eq_true]

/-- Settles O34: the gate's two ends, and each input by the definition that reads it. -/
theorem gateEndsAnEvaluationInSafe : Obligations.GateEndsAnEvaluationInSafe := by
  intro c n i
  dsimp only
  have hGated : ∀ {why : EvalReason}, gate c.decision i = some why →
      (evalRecord c n i).desired = some .safe ∧ (evalRecord c n i).reason = some why
        ∧ (evalRecord c n i).hO = none ∧ (evalRecord c n i).hR = none ∧ (evalRecord c n i).tX = none ∧ (evalRecord c n i).needed = none
        ∧ (evalRecord c n i).speed = none ∧ (evalRecord c n i).mixing = none ∧ (evalRecord c n i).favour = false
        ∧ (evalRecord c n i).recoveryUseful = false ∧ (evalRecord c n i).frostRisk = false
        ∧ (evalRecord c n i).demand = some ⟨c.outputs.oaMin, 0, c.decision.whlSafe⟩ := fun h => by
    rw [evalRecord_of_gated h]
    exact ⟨rfl, rfl, rfl, rfl, rfl, rfl, rfl, rfl, rfl, rfl, rfl, rfl⟩
  refine ⟨fun h => ?ended, fun hKnown hMissing hValues => ?passed, evalRecord_of_held c n i, fun s =>
    ⟨freshValue_eq_none_iff, freshValue_eq_none_iff, fun h => ?estimate, ⟨inMode_iff, inMode_iff, isolated_iff, defrostAllowed_iff⟩, rfl,
      ?band⟩⟩
  case ended =>
    by_cases hKnown : i.bandStatus = .unknown
    · rw [if_pos hKnown]
      exact hGated (gate_unknown hKnown)
    · rw [if_neg hKnown]
      exact hGated (gate_stale hKnown (h.resolve_left hKnown))
  case passed =>
    obtain ⟨tO, hO⟩ := Option.ne_none_iff_exists'.1 hValues.1
    obtain ⟨tR, hR⟩ := Option.ne_none_iff_exists'.1 fun hR => hMissing (.inl hR)
    exact evalRecord_reason (gate_passed hKnown hMissing) hO hR n
  case estimate => unfold takeEstimate; rw [h]
  case band => unfold readInputs; dsimp only; split <;> rfl

end Sys2Proof.Machine
end

section
/-! PROOF. The start of a transition (R31, R33, R34, R36, R39) and what moves neither the candidate nor a pending forced leave. -/

namespace Sys2Proof.Machine

/-! ## A claim request (R70, R71) -/

theorem claimIn_setPhase (p : Phase) (s : State) (r : Resource) : claimIn (setPhase p s) r = claimIn s r := by
  unfold setPhase queueBeacon; dsimp only; (repeat' split) <;> simp [claimIn]

theorem linkState_setPhase (p : Phase) (s : State) : (setPhase p s).link.state = s.link.state := by
  unfold setPhase queueBeacon; dsimp only; (repeat' split) <;> simp

theorem claimSlot_setPhase (p : Phase) (s : State) : (setPhase p s).link.claimSlot = s.link.claimSlot := by
  unfold setPhase queueBeacon; dsimp only; (repeat' split) <;> simp

theorem procOf_setPhase (p : Phase) (s : State) (r : Resource) : procOf (setPhase p s) r = procOf s r := procOf_congr (setPhase_claims p s) r

theorem heldBack_setPhase (p : Phase) (s : State) : heldBack (setPhase p s) = heldBack s := by simp [heldBack]

theorem requestClaim_of_idle {r : Resource} {s : State} (hp : (procOf s r).state = .idle) :
    requestClaim r s =
      if (procOf s r).request then quietly s
      else if heldBack s then quietly (setProc r { procOf s r with request := true } s)
      else quietly (beginAttempt r 1 s) := by
  unfold requestClaim
  dsimp only
  split
  · rfl
  all_goals next h => cases hp.symm.trans h

theorem requestClaim_of_free {r : Resource} {s : State} (hp : (procOf s r).state = .idle) (hr : (procOf s r).request = false)
    (hb : heldBack s = false) : (requestClaim r s).1 = beginAttempt r 1 s := by
  rw [requestClaim_of_idle hp, hr, hb]
  rfl

theorem procOf_self_request {s : State} {r : Resource} {b : Bool} (h : (procOf s r).request = b) :
    procOf s r = { procOf s r with request := b } := by rw [← h]

theorem requestClaim_of_heldBack {r : Resource} {s : State} (hp : (procOf s r).state = .idle) (hb : heldBack s = true) :
    procOf (requestClaim r s).1 r = { procOf s r with request := true } ∧ (requestClaim r s).1.link = s.link := by
  rw [requestClaim_of_idle hp, hb]
  split
  next hr => exact ⟨procOf_self_request hr, rfl⟩
  · exact ⟨procOf_setProc_same .., rfl⟩

theorem beginAttempt_proc (r : Resource) (n : Nat) (s : State) :
    procOf (beginAttempt r n s) r = { procOf s r with state := .pending, attempt := n, request := false, timer := none, cause := none } := by
  rw [beginAttempt, procOf_queueIntent, procOf_setProc_same]

theorem queueIntent_of_free {r : Resource} {s : State} (h : claimIn s r = none) :
    queueIntent r s = placeClaim (.intent r (ownAmount s.cfg r) s.cfg.ident.cls (procOf s r).attempt (effective s r)) s :=
  if_neg (by rw [h]; exact Bool.false_ne_true)

theorem claimIn_queueIntent {r : Resource} {s : State} (hFree : claimIn s r = none) (hLink : s.link.state ≠ .clashed) :
    claimIn (queueIntent r s) r = some (.intent r (ownAmount s.cfg r) s.cfg.ident.cls (procOf s r).attempt (effective s r)) := by
  rw [queueIntent_of_free hFree, claimIn_placeClaim _ _ hLink]
  exact if_pos rfl

theorem beginAttempt_claimIn {r : Resource} {s : State} (n : Nat) (hFree : claimIn s r = none) (hLink : s.link.state ≠ .clashed) :
    claimIn (beginAttempt r n s) r = some (.intent r (ownAmount s.cfg r) s.cfg.ident.cls n (effective s r)) := by
  have h := claimIn_queueIntent (r := r)
    (s := setProc r { procOf s r with state := .pending, attempt := n, request := false, timer := none, cause := none } s) hFree hLink
  rw [procOf_setProc_same] at h
  exact h

/-! ## The first phase of a transition (R33, R36) -/

theorem enterFirstPhase_of_unheld {m : Mode} {r : Resource} {s : State} (f : Bool) (hm : claimFor m = some r)
    (hp : (procOf s r).state ≠ .held) : enterFirstPhase m f s = (requestClaim r (setPhase .claiming s)).1 := by
  unfold enterFirstPhase
  simp only [hm]
  exact if_neg hp

theorem enterFirstPhase_of_backed {m : Mode} {s : State} (f : Bool) (h : ∀ r, claimFor m = some r → (procOf s r).state = .held) :
    enterFirstPhase m f s = enterWaitOrRamp m f s := by
  unfold enterFirstPhase
  split
  next r hr => exact if_pos (h r hr)
  · rfl

theorem enterWaitOrRamp_of_ramping {m : Mode} {f : Bool} {s : State} (h : m = .safe ∨ f = true ∨ rampingMembers s (chooseWaitSet s) = []) :
    enterWaitOrRamp m f s = enterRamping m s := by
  refine if_pos ?_
  simpa [waitOver, or_assoc] using h

/-- The wait set chosen now, and its timer (R36). -/
def waitBegun (s : State) : State :=
  s.setSeq { s.seq with waitSet := chooseWaitSet s, followTimer := some (s.now + secs s.cfg.follow.tFOLLOW) }

theorem enterWaitOrRamp_of_waiting {m : Mode} {s : State} (hm : m ≠ .safe) (h : rampingMembers s (chooseWaitSet s) ≠ []) :
    enterWaitOrRamp m false s = setPhase .followWait (waitBegun s) := by
  refine if_neg ?_
  simpa [waitOver, hm] using h

/-- Two states whose Sequencer, outputs, claims, transmit queue and port are the same. -/
structure SameStart (s t : State) : Prop where
  seq : t.seq = s.seq
  out : t.out = s.out
  claims : t.claims = s.claims
  link : t.link = s.link
  port : t.port = s.port

theorem SameStart.refl (s : State) : SameStart s s := ⟨rfl, rfl, rfl, rfl, rfl⟩

/-- A transition started without force: what follows it leaves it alone where its ramp, if it has one, has somewhere to go. -/
theorem beginTransition_starts {m : Mode} {s t : State} (hs : completionDue s = false)
    (hLink : ∀ r, claimFor m = some r → s.link.state ≠ .clashed)
    (ht : completionDue (beginTransition m false s) = false → SameStart (beginTransition m false s) t) : Starts m s t := by
  rw [beginTransition_eq] at ht
  refine ⟨fun r hr hp => ?claiming, fun hBacked hm hWait => ?waiting, fun hBacked hRamp hAway => ?ramping⟩
  case claiming =>
    rw [enterFirstPhase_of_unheld (s := begun m false s) false hr hp] at ht
    have hActs := requestClaim_claimActs r (setPhase .claiming (begun m false s))
    have hOut : (requestClaim r (setPhase .claiming (begun m false s))).1.out = s.out := (ClaimActs.out hActs).trans (setPhase_out ..)
    have hCfg : (requestClaim r (setPhase .claiming (begun m false s))).1.cfg = s.cfg := hActs.cfg.trans (setPhase_cfg ..)
    have hSame := ht ((completionDue_congr hCfg hOut).trans hs)
    have hProcs : procOf t r = procOf (requestClaim r (setPhase .claiming (begun m false s))).1 r := by rw [procOf, procOf, hSame.claims]
    have hClaim : claimIn t r = claimIn (requestClaim r (setPhase .claiming (begun m false s))).1 r := by
      rw [claimIn, claimIn, hSame.link]
    refine ⟨hSame.seq.trans ((ClaimActs.seq hActs).trans (setPhase_seq ..)), hSame.out.trans hOut,
      hSame.port.trans ((ClaimActs.port hActs).trans (setPhase_port ..)), fun hIdle hRequest hFree => ?_, fun hIdle hBack => ?_⟩
    · rw [hProcs, hClaim, requestClaim_of_free (by rw [procOf_setPhase]; exact hIdle) (by rw [procOf_setPhase]; exact hRequest)
        (by rw [heldBack_setPhase]; exact hFree), beginAttempt_proc]
      refine ⟨rfl, rfl, fun hSlot => ?_⟩
      rw [beginAttempt_claimIn 1 (by rw [claimIn_setPhase]; exact hSlot) (by rw [linkState_setPhase]; exact hLink r hr), setPhase_cfg]
      simp only [effective, setPhase_claims]
      rfl
    · obtain ⟨hProc, hSlots⟩ := requestClaim_of_heldBack (s := setPhase .claiming (begun m false s)) (r := r)
        (by rw [procOf_setPhase]; exact hIdle) (by rw [heldBack_setPhase]; exact hBack)
      rw [hProcs, hSame.link, hProc, hSlots, procOf_setPhase, claimSlot_setPhase]
      exact ⟨rfl, rfl⟩
  case waiting =>
    rw [enterFirstPhase_of_backed (s := begun m false s) false hBacked, enterWaitOrRamp_of_waiting (s := begun m false s) hm hWait] at ht
    have hDue : completionDue (setPhase .followWait (waitBegun (begun m false s))) = false :=
      (completionDue_congr (setPhase_cfg ..) (setPhase_out ..)).trans hs
    have hSame := ht hDue
    exact ⟨hSame.seq.trans (setPhase_seq ..), hSame.out.trans (setPhase_out ..), hSame.claims.trans (setPhase_claims ..),
      hSame.port.trans (setPhase_port ..)⟩
  case ramping =>
    rw [enterFirstPhase_of_backed (s := begun m false s) false hBacked,
      enterWaitOrRamp_of_ramping (s := begun m false s) (hRamp.imp_right .inr)] at ht
    have hSame := ht (enterRamping_completionDue m (begun m false s) hAway)
    have hRamping : RampingTo m false _ _ s (enterRamping m (begun m false s)) := enterRamping_rampingTo rfl
    refine ⟨?_, ?_, hSame.claims.trans (enterRamping_claims ..), hSame.port.trans (enterRamping_port ..)⟩
    · unfold RampingTo
      rw [hSame.seq, hSame.out]
      exact hRamping
    · rw [hSame.out, enterRamping_out]
      exact postSet_completionPending ..

/-- A transition started without force, with the completion of a ramp that has nowhere to go. -/
theorem settled_beginTransition_starts {m : Mode} {s : State} (hs : completionDue s = false)
    (hLink : ∀ r, claimFor m = some r → s.link.state ≠ .clashed) : Starts m s (settleRamps (beginTransition m false s)) :=
  beginTransition_starts hs hLink fun h => by
    rw [settleRamps_of_not_due h]
    exact .refl _

/-! ## The start test (R31, R32) -/

theorem startTest_eq_self {s : State} (h : ∀ m, confirmed s = some m → s.seq.phase ≠ some .settled ∨ s.seq.mode = some m ∨ blocked s m = true) :
    startTest s = s := by
  unfold startTest
  split
  · rfl
  next m hm =>
    refine if_neg ?_
    rcases h m hm with h | h | h <;> simp [settled, h]

theorem startTest_of_passed {s : State} {m : Mode} (hp : s.seq.phase = some .settled) (hc : confirmed s = some m)
    (hm : s.seq.mode ≠ some m) (hb : blocked s m = false) : startTest s = beginTransition m false s := by
  unfold startTest
  simp only [hc]
  exact if_pos (by simp [settled, hp, hm, hb])

theorem not_clashed_of_not_blocked {s : State} {m : Mode} (hb : blocked s m = false) (r : Resource) (hr : claimFor m = some r) :
    s.link.state ≠ .clashed := by
  intro h
  have hSafe : m ≠ .safe := by rintro rfl; cases hr
  simp [blocked, hSafe, isolatedFor, isolated, h, hr] at hb

/-- The start test, with the completions that follow it at once. -/
theorem settled_startTest {s : State} (hs : completionDue s = false) : StartTested s (settleRamps (startTest s)) := by
  refine ⟨fun h => ?none, fun m ⟨hp, hc, hm, hb⟩ => ?some⟩
  case none =>
    rw [startTest_eq_self fun m hm => ?_, settleRamps_of_not_due hs]
    refine Classical.byContradiction fun hNot => ?_
    simp only [not_or, Classical.not_not, Bool.not_eq_true] at hNot
    exact h m ⟨hNot.1, hm, hNot.2⟩
  case some =>
    rw [startTest_of_passed hp hc hm hb]
    exact settled_beginTransition_starts hs (not_clashed_of_not_blocked hb)

/-! ## What moves neither the candidate nor a pending forced leave -/

/-- The candidate and its count, with no forced leave pending. -/
structure Counted (c : Option Mode) (n : Nat) (s : State) : Prop where
  candidate : s.seq.candidate = c
  count : s.seq.count = n
  forced : s.seq.forcedPending = none

section
variable {c : Option Mode} {n : Nat} {s t : State}

theorem Counted.of_seq (hs : Counted c n s) (h : t.seq = s.seq) : Counted c n t := ⟨h ▸ hs.candidate, h ▸ hs.count, h ▸ hs.forced⟩

theorem Counted.course (hs : Counted c n s) (h : SameCourse s t) : Counted c n t :=
  ⟨h.candidate.trans hs.candidate, h.count.trans hs.count, h.forcedPending.trans hs.forced⟩

theorem Counted.ite {p : Prop} [Decidable p] {a b : State} (ha : Counted c n a) (hb : Counted c n b) : Counted c n (if p then a else b) := by
  split <;> assumption

/-- A replacement of the Sequencer that keeps the candidate, its count and what is pending. -/
theorem Counted.seq (hs : Counted c n s) {q : Sequencer} (hc : q.candidate = s.seq.candidate) (hn : q.count = s.seq.count)
    (hf : q.forcedPending = s.seq.forcedPending) : Counted c n (s.setSeq q) :=
  ⟨hc.trans hs.candidate, hn.trans hs.count, hf.trans hs.forced⟩

theorem beginTransition_counted (m : Mode) (f : Bool) (hs : Counted c n s) : Counted c n (beginTransition m f s) := by
  have hBegun : Counted c n (begun m f s) := by
    refine ⟨hs.candidate, hs.count, ?_⟩
    show (if m = .safe then none else s.seq.forcedPending) = none
    rw [hs.forced, ite_self]
  exact hBegun.course (beginTransition_course m f s)

theorem startTest_counted (hs : Counted c n s) : Counted c n (startTest s) := by
  unfold startTest; split
  · exact hs
  · exact (beginTransition_counted _ _ hs).ite hs

theorem afterSettled_counted (hs : Counted c n s) : Counted c n (afterSettled s) :=
  (beginTransition_counted _ _ (startTest_counted hs)).ite (startTest_counted hs)

theorem toSettled_counted (hs : Counted c n s) : Counted c n (toSettled s) := by
  have h := hs.seq (q := { s.seq with phase := some .settled, transition := none, rampPosting := none }) rfl rfl rfl
  exact h.of_seq (toSettled_seq s)

theorem cancelRequest_claimActs (s : State) : Acts Part.claiming s (cancelRequest s) := by
  unfold cancelRequest; split
  · exact .refl
  · split
    · exact .refl
    · exact cancelClaim_acts _ .refl rfl rfl

theorem cancelTransition_counted (hs : Counted c n s) : Counted c n (cancelTransition s) := by
  have h1 : Counted c n (releaseUnneeded s.seq.mode (cancelRequest s)) :=
    hs.of_seq ((releaseUnneeded_seq ..).trans (ClaimActs.seq (cancelRequest_claimActs s)))
  exact toSettled_counted (h1.seq rfl rfl rfl)

theorem abortToSafe_counted (hs : Counted c n s) : Counted c n (abortToSafe s) := by
  have hActs : Acts Part.claiming s (forBoth cancelClaim s) := forBoth_acts (fun _ _ h => cancelClaim_acts _ h rfl rfl) .refl
  have h1 : Counted c n (endWait (forBoth cancelClaim s)) := (hs.of_seq (ClaimActs.seq hActs)).seq rfl rfl rfl
  have h2 := h1.seq (q := { (endWait (forBoth cancelClaim s)).seq with
    transition := some { target := .safe, forced := false }, forcedPending := none }) rfl rfl h1.forced.symm
  exact h2.course (enterRamping_course ..)

theorem runningUpdate_counted (hs : Counted c n s) : Counted c n (runningUpdate s) := by
  have hPost : ∀ d, Counted c n (postSet d s) := fun d =>
    (hs.seq (q := { s.seq with demands := some d }) rfl rfl rfl).of_seq (postSet_seq d s)
  unfold runningUpdate; (repeat' split) <;> first | exact hs | exact hPost _

theorem desireAgainst_counted (x : Transition) (hs : Counted c n s) : Counted c n (desireAgainst x s) := by
  unfold desireAgainst; split
  · exact hs
  · exact hs.ite ((abortToSafe_counted hs).ite (hs.ite (afterSettled_counted (cancelTransition_counted hs))))

theorem rampCompleted_counted (m : Mode) (hs : Counted c n s) : Counted c n (rampCompleted m s) := by
  have hArrived := arrived_spec m s
  have h1 : Counted c n (arrived m s) :=
    ⟨hArrived.candidate.trans hs.candidate, hArrived.count.trans hs.count, hArrived.forcedPending.trans hs.forced⟩
  rw [rampCompleted_of_free h1.forced]
  exact afterSettled_counted h1

theorem reportOnce_counted (hs : Counted c n s) : Counted c n (reportOnce s) := by
  refine Counted.ite ?_ hs
  have h1 : Counted c n (s.setOut { s.out with completionPending := false }) := hs.of_seq rfl
  unfold takeCompletion; split
  · exact h1
  · exact (rampCompleted_counted _ h1).ite h1

theorem settleRamps_counted (hs : Counted c n s) : Counted c n (settleRamps s) := by
  suffices h : ∀ k s, Counted c n s → Counted c n (reportAll k s) from h 8 s hs
  intro k
  induction k with
  | zero => exact fun _ h => h
  | succ k ih => exact fun s h => Counted.ite (ih _ (reportOnce_counted h)) h

/-- Everything but the Mode Sequencer. -/
def Part.unsequenced : Part → Bool := fun p => p != .seq

theorem moveLimit_counted (x : LimitName) (v : LimitState) (b : NoticeBody) (hs : Counted c n s) : Counted c n (moveLimit x v b s) := by
  have hFollow : ∀ {u}, Counted c n u → Counted c n (followHold u) := fun {u} hu => by
    have h1 : Counted c n (u.setLimits { u.limits with hold := holdNow u.cfg u.limits }) := hu.of_seq rfl
    exact (startTest_counted h1).ite h1
  have hGuards : ∀ {u}, Counted c n u → Counted c n (postGuards u) := fun {u} hu =>
    hu.ite (hu.of_seq ((setGuards_acts (P := Part.unsequenced) _ (Acts.refl.limits _ rfl) rfl rfl rfl).seq_eq rfl))
  have h1 : Counted c n (s.setLimits (setLimit x v s.limits)) := hs.of_seq rfl
  unfold moveLimit
  exact hFollow (hGuards (h1.ite (h1.of_seq rfl)))

theorem judge_counted (x : LimitName) (trip v : Int) (src : TripSource) (hs : Counted c n s) : Counted c n (judge x trip v src s) := by
  unfold judge; split
  · exact (moveLimit_counted _ _ _ hs).ite hs
  · exact (moveLimit_counted _ _ _ hs).ite hs

theorem takeEstimate_counted (hs : Counted c n s) : Counted c n (takeEstimate s) := by
  unfold takeEstimate; split
  · exact hs
  · exact hs.ite (judge_counted _ _ _ _ hs)

end

/-! ## A record is taken (R30) -/

/-- The count of a candidate that a desire confirms or replaces (R30). -/
def countAfter (s : State) (m : Mode) : Nat := if s.seq.candidate = some m then min 30 (s.seq.count + 1) else 1

theorem updateCandidate_eq (m : Mode) (s : State) :
    updateCandidate m s = s.setSeq { s.seq with candidate := some m, count := countAfter s m } := by
  unfold updateCandidate countAfter
  split
  next h => rw [← h]
  · rfl

/-- A record is taken while the station runs (R30, R42 to R45, R52). -/
theorem takeRecord_counted {s : State} {m : Mode} (hr : running s = true) (hd : s.decision.last.desired = some m)
    (hf : s.seq.forcedPending = none) : Counted (some m) (countAfter s m) (takeRecord s) := by
  have h1 : Counted (some m) (countAfter s m) (updateCandidate m s) := by rw [updateCandidate_eq]; exact ⟨rfl, rfl, hf⟩
  unfold takeRecord
  simp only [hd, hr]
  rw [if_neg (by decide)]
  split
  · exact startTest_counted (runningUpdate_counted h1)
  · exact h1
  · exact desireAgainst_counted _ h1
  · exact h1

theorem running_iff {s : State} : running s = true ↔ s.port.closed = true ∧ s.port.restarting = false := by simp [running]

/-! ## An evaluation (R4, R8, R25) -/

theorem evalRecord_desired (c : Settings) (n : Word16) (i : EvalInputs) : ∃ m, (evalRecord c n i).desired = some m := by
  obtain ⟨_, _, _, _, h, _⟩ | ⟨m, _, h, _⟩ := evalRecord_free_or_other c n i
  · exact ⟨_, h⟩
  · exact ⟨m, h⟩

theorem evalRecord_number (c : Settings) (n : Word16) (i : EvalInputs) : (evalRecord c n i).number = n := by
  unfold evalRecord; dsimp only; (repeat' split) <;> rfl

theorem unordered_cases (f g : State → State) (s : State) :
    ∃ n, unordered f g s = (g (f s)).setChoices n ∨ unordered f g s = (f (g s)).setChoices n := by
  unfold unordered; dsimp only; split
  · exact ⟨(g (f s)).choices, .inl rfl⟩
  · split
    · exact ⟨_, .inl rfl⟩
    · exact ⟨_, .inr rfl⟩

theorem disagreementCheck_setDecision (peers : List Sample) (d : Decision) (s : State) :
    disagreementCheck peers (s.setDecision d) = (disagreementCheck peers s).setDecision d := by
  unfold disagreementCheck; dsimp only; (repeat' split) <;> first | rfl | contradiction

theorem foundValue_setDecision (v : BandValue) (d : Decision) (s : State) :
    foundValue v (s.setDecision d) = (foundValue v s).setDecision d := by
  unfold foundValue; dsimp only; (repeat' split) <;> first | rfl | contradiction

theorem foundNone_setDecision (d : Decision) (s : State) : foundNone (s.setDecision d) = (foundNone s).setDecision d := by
  by_cases h : s.band.status = .valid
  · by_cases hHold : s.cfg.band.tBANDHOLD = 0
    · rw [foundNone_of_no_hold h hHold, foundNone_of_no_hold (s := s.setDecision d) h hHold]; rfl
    · rcases Option.eq_none_or_eq_some s.band.value with hv | ⟨v, hv⟩
      · rw [foundNone_of_no_value h hHold hv, foundNone_of_no_value (s := s.setDecision d) h hHold hv]; rfl
      · rw [foundNone_of_value h hHold hv, foundNone_of_value (s := s.setDecision d) h hHold hv]; rfl
  · rw [foundNone_of_not_valid h, foundNone_of_not_valid (s := s.setDecision d) h]

/-- The estimate neither reads nor changes the Decision Unit (R147). -/
theorem estimate_setDecision (d : Decision) (s : State) : estimate (s.setDecision d) = (estimate s).setDecision d := by
  have hCheck : disagreementCheck (peerSamples (s.setDecision d)) (s.setDecision d) = (disagreementCheck (peerSamples s) s).setDecision d :=
    disagreementCheck_setDecision (peerSamples s) d s
  rcases h : sourceValue (disagreementCheck (peerSamples s) s).band.source (ownQuality (disagreementCheck (peerSamples s) s))
      (ownReading (disagreementCheck (peerSamples s) s)) (peerSamples s) (disagreementCheck (peerSamples s) s).now with _ | v
  · rw [estimate_of_none h, estimate_of_none (s := s.setDecision d) (by rw [hCheck]; exact h), hCheck, foundNone_setDecision]
  · rw [estimate_of_value h, estimate_of_value (s := s.setDecision d) (by rw [hCheck]; exact h), hCheck, foundValue_setDecision]

/-- What the estimate leaves as it is. -/
theorem estimate_same (s : State) :
    (estimate s).cfg = s.cfg ∧ (estimate s).now = s.now ∧ (estimate s).decision = s.decision ∧ (estimate s).seq = s.seq
      ∧ (estimate s).peers = s.peers ∧ (estimate s).port.meas = s.port.meas ∧ (estimate s).port.closed = s.port.closed
      ∧ (estimate s).port.restarting = s.port.restarting := by
  have h : Acts (fun p => p == .band || p == .notices) s (estimate s) := estimate_acts .refl rfl rfl
  exact ⟨h.cfg, h.now, h.decision_eq rfl, h.seq_eq rfl, h.peers_eq rfl, h.meas_eq rfl, h.closed, h.restarting_eq rfl⟩

/-- The parts that the taking of a record changes: none that the record was made from. -/
def Part.handed : Part → Bool := fun p => p != .decision && p != .peers && p != .band && p != .meas && p != .restarting

theorem handed_supervises : Supervises Part.handed := ⟨⟨rfl, rfl, rfl, rfl, rfl, rfl⟩, rfl, rfl⟩

theorem handOff_acts (s : State) : Acts Part.handed s (unordered handToSequencer handToLimits s) :=
  unordered_acts (fun _ h => handToSequencer_acts h handed_supervises.toSequences) (fun _ h => handToLimits_acts h handed_supervises)
    .refl rfl

theorem handToSequencer_counted {s : State} {m : Mode} (hr : running s = true) (hd : s.decision.last.desired = some m)
    (hf : s.seq.forcedPending = none) : Counted (some m) (countAfter s m) (handToSequencer s) :=
  settleRamps_counted (takeRecord_counted hr hd hf)

theorem handToLimits_counted {c : Option Mode} {n : Nat} {s : State} (hs : Counted c n s) : Counted c n (handToLimits s) :=
  settleRamps_counted (takeEstimate_counted hs)

/-- Either order of the hand-offs leaves the candidate the record counts toward (R25, R30). -/
theorem handOff_counted {s : State} {m : Mode} (hr : running s = true) (hd : s.decision.last.desired = some m)
    (hf : s.seq.forcedPending = none) : Counted (some m) (countAfter s m) (unordered handToSequencer handToLimits s) := by
  have hLimits : Counted s.seq.candidate s.seq.count (handToLimits s) := handToLimits_counted ⟨rfl, rfl, hf⟩
  have hActs : Acts Part.handed s (handToLimits s) := handToLimits_acts .refl handed_supervises
  have hRunning : running (handToLimits s) = true := by
    rw [running_iff] at hr ⊢
    exact ⟨hActs.closed.trans hr.1, (hActs.restarting_eq rfl).trans hr.2⟩
  have hCount : countAfter (handToLimits s) m = countAfter s m := by rw [countAfter, countAfter, hLimits.candidate, hLimits.count]
  obtain ⟨n, h | h⟩ := unordered_cases handToSequencer handToLimits s
  · rw [h]
    exact (handToLimits_counted (handToSequencer_counted hr hd hf)).of_seq rfl
  · rw [h, ← hCount]
    exact (handToSequencer_counted hRunning (by rw [hActs.decision_eq rfl]; exact hd) hLimits.forced).of_seq rfl

/-- The record that an expiry of the evaluation timer makes (R4, R5). -/
def expiryRecord (s : State) : Decision :=
  { s.decision with
    timer := some (s.now + s.cfg.decision.tEVAL * 1000), counter := s.decision.counter + 1
    last := evalRecord s.cfg (s.decision.counter + 1) (readInputs (estimate s)) }

theorem makeRecord_of_expiry (s : State) :
    makeRecord (s.setDecision { s.decision with timer := evalFromNow s }) = (estimate s).setDecision (expiryRecord s) := by
  obtain ⟨hCfg, hNow, hDec, hSeq, hPeers, hMeas, hPortClosed, hPortRun⟩ := estimate_same s
  have hInputs : readInputs ((estimate s).setDecision { s.decision with timer := evalFromNow s }) = readInputs (estimate s) := by
    unfold readInputs
    rw [hDec]
    rfl
  unfold makeRecord
  rw [estimate_setDecision]
  dsimp only
  rw [hInputs, show ((estimate s).setDecision { s.decision with timer := evalFromNow s }).cfg = s.cfg from hCfg]
  rfl

/-- Settles O33: the record is made of the inputs after the estimate, and the two hand-offs follow in either order; neither moves the
candidate that the record counts toward. -/
theorem evaluationTimerMakesOneRecord : Obligations.EvaluationTimerMakesOneRecord := by
  intro s
  refine ⟨fun h => congrArg Host.Outcome.next (if_neg (by rw [h]; decide)), fun hClosed hRun hTimer => ?_⟩
  obtain ⟨x, hx, hle⟩ := hTimer
  have hDue : evalDue s = true := by simp [evalDue, running, hClosed, hRun, due, hx, hle]
  obtain ⟨hCfg, hNow, hDec, hSeq, hPeers, hMeas, hPortClosed, hPortRun⟩ := estimate_same s
  refine ⟨_, congrArg Host.Outcome.next (if_pos hDue), ?_⟩
  unfold evaluate
  rw [makeRecord_of_expiry]
  have hActs := handOff_acts ((estimate s).setDecision (expiryRecord s))
  have hDecision : _ = expiryRecord s := hActs.decision_eq rfl
  refine ⟨hDecision, by rw [hDecision]; exact evalRecord_number .., (hActs.peers_eq rfl).trans hPeers, (hActs.meas_eq rfl).trans hMeas,
    hActs.band_eq rfl, ?orders, fun hf => ?candidate⟩
  case orders =>
    obtain ⟨n, h | h⟩ := unordered_cases handToSequencer handToLimits ((estimate s).setDecision (expiryRecord s))
    · exact ⟨n, .inl (by rw [hDecision]; exact h)⟩
    · exact ⟨n, .inr (by rw [hDecision]; exact h)⟩
  case candidate =>
    obtain ⟨m, hm⟩ := evalRecord_desired s.cfg (s.decision.counter + 1) (readInputs (estimate s))
    have hRunning : running ((estimate s).setDecision (expiryRecord s)) = true :=
      running_iff.2 ⟨hPortClosed.trans hClosed, hPortRun.trans hRun⟩
    have hCounted := handOff_counted hRunning hm (show (estimate s).seq.forcedPending = none by rw [hSeq]; exact hf)
    refine ⟨m, by rw [hDecision]; exact hm, hCounted.candidate, hCounted.count.trans ?_⟩
    show countAfter (estimate s) m = countAfter s m
    rw [countAfter, countAfter, hSeq]

end Sys2Proof.Machine
end

section
/-! PROOF. The Output Unit: winners, jumps, slew steps and manual demands (R161 to R172). -/

namespace Sys2Proof.Machine

/-! ## The winner of a channel (R164, R165) -/

/-- The place of a source in the tie order. -/
def tieRank : DemandSource → Nat
  | .fire => 0
  | .guard => 1
  | .manual => 2
  | .sequencer => 3

theorem tieRank_injective {x y : DemandSource} (h : tieRank x = tieRank y) : x = y := by
  cases x <;> cases y <;> first | rfl | cases h

/-- A source yields to another one: a lower level, or the same one and no earlier place. -/
def YieldsTo (c : Settings) (x b : DemandSource) : Prop := levelOf c x < levelOf c b ∨ (levelOf c x = levelOf c b ∧ tieRank b ≤ tieRank x)

/-- The choice among the sources taken so far. -/
structure Chosen (c : Settings) (o : OutputUnit) (ch : Channel) (l : List DemandSource) (best : Option DemandSource) : Prop where
  ofNone : best = none → ∀ x ∈ l, demandOf o ch x = none
  ofSome : ∀ b, best = some b → b ∈ l ∧ demandOf o ch b ≠ none ∧ ∀ x ∈ l, demandOf o ch x ≠ none → YieldsTo c x b

theorem chosen_better {c : Settings} {o : OutputUnit} {ch : Channel} {l : List DemandSource} {best : Option DemandSource}
    (h : Chosen c o ch l best) {x : DemandSource} (hx : ∀ y ∈ l, tieRank y ≤ tieRank x) : Chosen c o ch (l ++ [x]) (better c o ch best x) := by
  have hMem : ∀ {y}, y ∈ l ++ [x] ↔ y ∈ l ∨ y = x := by simp
  unfold better
  split
  next hNone =>
    have hNone : demandOf o ch x = none := Option.isNone_iff_eq_none.1 hNone
    refine ⟨fun hb y hy => ?_, fun b hb => ?_⟩
    · rcases hMem.1 hy with hy | rfl
      · exact h.ofNone hb y hy
      · exact hNone
    · obtain ⟨hIn, hDemand, hBest⟩ := h.ofSome b hb
      refine ⟨hMem.2 (.inl hIn), hDemand, fun y hy hd => ?_⟩
      rcases hMem.1 hy with hy | rfl
      · exact hBest y hy hd
      · exact absurd hNone hd
  next hSome =>
    have hSome : demandOf o ch x ≠ none := fun e => hSome (Option.isNone_iff_eq_none.2 e)
    cases best with
    | none =>
      refine ⟨nofun, fun b hb => ?_⟩
      cases hb
      refine ⟨hMem.2 (.inr rfl), hSome, fun y hy hd => ?_⟩
      rcases hMem.1 hy with hy | rfl
      · exact absurd (h.ofNone rfl y hy) hd
      · exact .inr ⟨rfl, Nat.le_refl _⟩
    | some b =>
      obtain ⟨hIn, hDemand, hBest⟩ := h.ofSome b rfl
      dsimp only
      split
      next hlt =>
        refine ⟨nofun, fun b' hb => ?_⟩
        cases hb
        refine ⟨hMem.2 (.inr rfl), hSome, fun y hy hd => ?_⟩
        rcases hMem.1 hy with hy | rfl
        · rcases hBest y hy hd with hl | ⟨hl, _⟩
          · exact .inl (Nat.lt_trans hl hlt)
          · exact .inl (hl ▸ hlt)
        · exact .inr ⟨rfl, Nat.le_refl _⟩
      next hle =>
        refine ⟨nofun, fun b' hb => ?_⟩
        cases hb
        refine ⟨hMem.2 (.inl hIn), hDemand, fun y hy hd => ?_⟩
        rcases hMem.1 hy with hy | rfl
        · exact hBest y hy hd
        · rcases Nat.lt_or_eq_of_le (Nat.not_lt.1 hle) with hl | hl
          · exact .inl hl
          · exact .inr ⟨hl, hx b hIn⟩

theorem chosen_winner (c : Settings) (o : OutputUnit) (ch : Channel) :
    Chosen c o ch [.fire, .guard, .manual, .sequencer] (winner c o ch) := by
  have h0 : Chosen c o ch [] none := ⟨fun _ _ h => absurd h List.not_mem_nil, nofun⟩
  have h1 := chosen_better h0 (x := .fire) (by simp)
  have h2 := chosen_better h1 (x := .guard) (by simp [tieRank])
  have h3 := chosen_better h2 (x := .manual) (by simp [tieRank])
  exact chosen_better h3 (x := .sequencer) (by simp [tieRank])

theorem mem_sources (x : DemandSource) : x ∈ [DemandSource.fire, .guard, .manual, .sequencer] := by cases x <;> decide

theorem winner_eq_none_iff {c : Settings} {o : OutputUnit} {ch : Channel} : winner c o ch = none ↔ ∀ x, demandOf o ch x = none := by
  refine ⟨fun h x => (chosen_winner c o ch).ofNone h x (mem_sources x), fun h => ?_⟩
  rcases hw : winner c o ch with _ | b
  · rfl
  · exact absurd (h b) ((chosen_winner c o ch).ofSome b hw).2.1

theorem winner_eq_some_iff {c : Settings} {o : OutputUnit} {ch : Channel} {src : DemandSource} :
    winner c o ch = some src ↔ demandOf o ch src ≠ none ∧ ∀ x, demandOf o ch x ≠ none → YieldsTo c x src := by
  have hForward : ∀ b, winner c o ch = some b → demandOf o ch b ≠ none ∧ ∀ x, demandOf o ch x ≠ none → YieldsTo c x b := fun b hb =>
    have ⟨_, hDemand, hBest⟩ := (chosen_winner c o ch).ofSome b hb
    ⟨hDemand, fun x => hBest x (mem_sources x)⟩
  refine ⟨hForward src, fun ⟨hDemand, hBest⟩ => ?_⟩
  rcases hw : winner c o ch with _ | b
  · exact absurd (winner_eq_none_iff.1 hw src) hDemand
  · obtain ⟨hDemandB, hBestB⟩ := hForward b hw
    have h1 := hBest b hDemandB
    have h2 := hBestB src hDemand
    refine congrArg some (tieRank_injective ?_)
    unfold YieldsTo at h1 h2
    omega

/-! ## Jumps (R167) -/

theorem aim_of_winner {c : Settings} {o : OutputUnit} {ch : Channel} {src : DemandSource} (h : winner c o ch = some src) :
    aim c o ch = (demandOf o ch src).map fun d => (d, jumps o ch src) := by rw [aim, h]

theorem jumps_iff {o : OutputUnit} {ch : Channel} {src : DemandSource} :
    jumps o ch src = true ↔ src = .fire ∨ (src = .guard ∧ (chGet o.guard ch).map (·.immediate) = some true) := by
  cases src <;> simp [jumps]
  cases chGet o.guard ch <;> simp

theorem setPresent_acc (ch : Channel) (v acc : Nat) (s : State) : (setPresent ch v acc s).out.acc = chSet s.out.acc ch acc := by
  rw [setPresent, wheelFollows_out]; rfl

/-- What settling a channel makes of the accumulators (R166, R167). -/
theorem settleChannel_acc (old : OutputUnit) (ch : Channel) (s : State) :
    (∀ x, x ≠ ch → chGet (settleChannel old ch s).out.acc x = chGet s.out.acc x)
      ∧ ∀ v, aim s.cfg s.out ch = some (v, true) → chGet (settleChannel old ch s).out.acc ch = 0 := by
  have hOther : ∀ (a : PerChannel Nat) (n : Nat) (x : Channel), x ≠ ch → chGet (chSet a ch n) x = chGet a x := fun a n x h => by rw [chGet_chSet, if_neg h]
  unfold settleChannel
  split
  next h => exact ⟨fun _ _ => rfl, fun v hv => absurd (h.symm.trans hv) nofun⟩
  next d h => exact ⟨fun x hx => by rw [setPresent_acc, hOther _ _ _ hx], fun _ _ => by rw [setPresent_acc, chGet_chSet, if_pos rfl]⟩
  next d h =>
    refine ⟨fun x hx => ?_, fun v hv => absurd (h.symm.trans hv) (by simp)⟩
    dsimp only
    split
    · rfl
    · exact hOther _ _ _ hx

/-- A channel that jumps has its accumulator cleared by a change of demands (R167). -/
theorem changeDemands_acc_of_jump {f : OutputUnit → OutputUnit} {s : State} {ch : Channel} {v : Nat}
    (h : aim s.cfg (f s.out) ch = some (v, true)) : chGet (changeDemands f s).out.acc ch = 0 := by
  have h1 := settleChannel_moved s.out .oda (s.setOut (f s.out))
  have h2 := h1.trans (settleChannel_moved s.out .byp _)
  unfold changeDemands; dsimp only
  cases ch with
  | oda =>
    rw [(settleChannel_acc ..).1 _ (by decide), (settleChannel_acc ..).1 _ (by decide)]
    exact (settleChannel_acc s.out .oda _).2 v h
  | byp =>
    rw [(settleChannel_acc ..).1 _ (by decide)]
    exact (settleChannel_acc s.out .byp _).2 v (by rw [h1.cfg, h1.aim]; exact h)
  | whl => exact (settleChannel_acc s.out .whl _).2 v (by rw [h2.cfg, h2.aim]; exact h)

/-- Settles O42: the winner is the choice of the whole list of sources, and a change of demands sets a jumping channel to its demand. -/
theorem highestLevelWinsAndFireAndImmediateGuardsJump : Obligations.HighestLevelWinsAndFireAndImmediateGuardsJump := by
  refine ⟨fun c o ch => ⟨rfl, winner_eq_none_iff, fun src => winner_eq_some_iff⟩, fun f s ch hPresent => ?_⟩
  dsimp only
  refine ⟨fun src v hw hSudden hv => ?sudden, fun hSlow => ?slow⟩
  case sudden =>
    have hJumps : jumps (f s.out) ch src = true := jumps_iff.2 (by simpa [hw] using hSudden)
    have hAim : aim s.cfg (f s.out) ch = some (v, true) := by rw [aim_of_winner hw, hv, hJumps]; rfl
    exact ⟨(changeDemands_present f s ch).trans (settledAt_of_jump hAim), changeDemands_acc_of_jump hAim⟩
  case slow =>
    rw [changeDemands_present, settledAt_of_slewed fun d hd => hSlow ?_, hPresent]
    rcases hw : winner s.cfg (f s.out) ch with _ | src
    · rw [aim, hw] at hd; cases hd
    · rw [aim_of_winner hw, Option.map_eq_some_iff] at hd
      obtain ⟨_, _, hd⟩ := hd
      have hJumps := jumps_iff.1 (Prod.ext_iff.1 hd).2
      simpa [hw] using hJumps

/-! ## A slew step (R163, R166) -/

/-- The Limit Supervisor after the wheel-run output has followed (R184, R192). -/
def limitsAfterRun (s : State) (on : Bool) : Limits :=
  if on = s.out.wheelRun then s.limits
  else if on then { s.limits with
    stallTimer := if s.limits.stall = .clear then some (s.now + s.cfg.limits.tSTALL * 1000) else s.limits.stallTimer
    lastWrap := none }
  else { s.limits with stallTimer := none }

theorem wheelFollows_eq (s : State) : wheelFollows s =
    (s.setOut { s.out with wheelRun := decide (0 < s.out.present.whl) }).setLimits (limitsAfterRun s (decide (0 < s.out.present.whl))) := by
  unfold wheelFollows limitsAfterRun
  dsimp only
  split
  next h => rw [h]; rfl
  · split <;> rfl

theorem slewOnce_of_aim {s : State} {ch : Channel} {v : Nat} (h : aim s.cfg s.out ch = some (v, false)) :
    slewOnce ch s = setPresent ch (if chGet s.out.present ch < v then chGet s.out.present ch + 1 else chGet s.out.present ch - 1)
      (if (if chGet s.out.present ch < v then chGet s.out.present ch + 1 else chGet s.out.present ch - 1) = v then 0
        else chGet s.out.acc ch - 1000) s := by
  unfold slewOnce
  split
  next d hd => cases h.symm.trans hd; rfl
  next hNot => exact absurd h (hNot v)

theorem heading_of_aim {s : State} {ch : Channel} {v : Nat} (h : aim s.cfg s.out ch = some (v, false)) :
    heading s.cfg s.out ch = Int.sign ((v : Int) - chGet s.out.present ch) := by rw [heading, h]

theorem slewDue_of_aim {s : State} {ch : Channel} {v : Nat} (h : aim s.cfg s.out ch = some (v, false)) (hAway : chGet s.out.present ch ≠ v)
    (hAcc : 1000 ≤ chGet s.out.acc ch) : slewDue s ch = true := by
  have hSign : Int.sign ((v : Int) - chGet s.out.present ch) ≠ 0 := fun e => by
    rw [Int.sign_eq_zero_iff_zero] at e; omega
  simp [slewDue, heading_of_aim h, hSign, hAcc]

/-- Settles O43: a step sets one channel, and the wheel-run output follows. -/
theorem slewStepMovesOnePerMille : Obligations.SlewStepMovesOnePerMille := by
  intro s ch
  refine ⟨fun h => congrArg Host.Outcome.next (if_neg (by rw [h]; decide)), fun v hAim hAway hAcc => ?_⟩
  intro p q present on u hDue
  have hStep : slewOnce ch s = (s.setOut u).setLimits (limitsAfterRun s on) := by
    rw [slewOnce_of_aim hAim, setPresent, wheelFollows_eq]
    rfl
  have hSettled : completionDue (slewOnce ch s) = false := by
    rw [hStep]; exact hDue
  have hExec : exec (.slewStep ch) s = .next (settleRamps (slewOnce ch s)) :=
    congrArg Host.Outcome.next (if_pos (slewDue_of_aim hAim hAway hAcc))
  rw [hExec, settleRamps_of_not_due hSettled, hStep]
  rfl

/-! ## Manual demands (R171, R172) -/

/-- The parts that a change of a manual demand leaves as they are. -/
def Part.undemanded : Part → Bool := fun p => p != .guards && p != .manuals && p != .fire && p != .reply

theorem settleRamps_demands (s : State) :
    (settleRamps s).out.manual = s.out.manual ∧ (settleRamps s).out.guard = s.out.guard ∧ (settleRamps s).out.fire = s.out.fire
      ∧ (settleRamps s).port.reply = s.port.reply := by
  have h : Acts Part.undemanded s (settleRamps s) := settleRamps_acts .refl ⟨rfl, rfl, rfl, rfl, rfl, rfl⟩
  exact ⟨h.manual_eq rfl, h.guard_eq rfl, (h.fire_eq rfl).1, h.reply_eq rfl⟩

/-- What a manual demand that is set or removed does to the demands (R171, R172). -/
theorem setManual_out (ch : Channel) (m : Option Manual) (s : State) : (setManual ch m s).out = { s.out with
    manual := chSet s.out.manual ch m, present := (setManual ch m s).out.present, acc := (setManual ch m s).out.acc
    wheelRun := (setManual ch m s).out.wheelRun } := changeDemands_out ..

theorem setManual_demands (ch : Channel) (m : Option Manual) (s : State) :
    (setManual ch m s).out.manual = chSet s.out.manual ch m ∧ (setManual ch m s).out.guard = s.out.guard
      ∧ (setManual ch m s).out.fire = s.out.fire ∧ (setManual ch m s).out.seqSet = s.out.seqSet
      ∧ (setManual ch m s).out.completionPending = s.out.completionPending := by
  rw [setManual_out]
  exact ⟨rfl, rfl, rfl, rfl, rfl⟩

theorem settled_setManual_demands (ch : Channel) (m : Option Manual) (s : State) :
    (settleRamps (setManual ch m s)).out.manual = chSet s.out.manual ch m ∧ (settleRamps (setManual ch m s)).out.guard = s.out.guard
      ∧ (settleRamps (setManual ch m s)).out.fire = s.out.fire := by
  obtain ⟨hManual, hGuard, hFire, _⟩ := settleRamps_demands (setManual ch m s)
  obtain ⟨hManual', hGuard', hFire', _⟩ := setManual_demands ch m s
  exact ⟨hManual.trans hManual', hGuard.trans hGuard', hFire.trans hFire'⟩

theorem settled_setManual {s : State} (h : s.out.completionPending = false) (ch : Channel) (m : Option Manual) :
    settleRamps (setManual ch m s) = setManual ch m s :=
  settleRamps_of_not_due (completionDue_of_not_pending ((setManual_demands ch m s).2.2.2.2.trans h))

theorem setManual_onlyOutputs (ch : Channel) (m : Option Manual) (s : State) : OnlyOutputs s (setManual ch m s) :=
  changeDemands_onlyOutputs ..

/-- A channel that MANUAL wins does not jump (R166, R167). -/
theorem setManual_present_of_manual {s : State} {ch : Channel} {m : Option Manual}
    (h : winner (setManual ch m s).cfg (setManual ch m s).out ch = some .manual) :
    chGet (setManual ch m s).out.present ch = chGet s.out.present ch := by
  have hMoved := changeDemands_moved (fun o => { o with manual := chSet o.manual ch m }) s
  rw [show (setManual ch m s).cfg = s.cfg from hMoved.cfg, show winner s.cfg (setManual ch m s).out ch = _ from hMoved.winner s.cfg ch] at h
  refine (changeDemands_present _ s ch).trans (settledAt_of_slewed fun d hd => ?_)
  obtain ⟨x, -, hx⟩ := Option.map_eq_some_iff.1 ((aim_of_winner h).symm.trans hd)
  exact Bool.false_ne_true (Prod.mk.inj hx).2

theorem manualPost_of_running {s : State} (hc : s.port.closed = true) (hr : s.port.restarting = false) (ch : Channel) {pos dur : Nat}
    (hOk : manualOk pos dur = true) (hLevel : s.cfg.outputs.lvlManual ≠ 0) :
    exec (.manualPost (some ch) pos dur) s =
      .next (replyOk (settleRamps (setManual ch (some { value := pos, expiry := s.now + secs dur }) s))) := by
  refine congrArg Host.Outcome.next ((admitOperating_of_running hc hr _).trans ?_)
  dsimp only
  rw [hOk, if_neg (by decide), if_neg hLevel]

theorem manualCancel_of_running {s : State} (hc : s.port.closed = true) (hr : s.port.restarting = false) {ch : Channel}
    (h : chGet s.out.manual ch ≠ none) :
    exec (.manualCancel (some ch)) s = .next (replyOk (settleRamps (setManual ch none s))) := by
  refine congrArg Host.Outcome.next ((admitOperating_of_running hc hr _).trans (if_neg ?_))
  rwa [Option.isNone_iff_eq_none]

theorem manualExpired_of_due {s : State} {ch : Channel} {m : Manual} (h : chGet s.out.manual ch = some m) (hDue : m.expiry ≤ s.now) :
    exec (.manualExpired ch) s = .next (settleRamps (setManual ch none (post (.manualExpired ch m.value) s))) := by
  have hExpired : expiredManual s ch = some m := by unfold expiredManual; rw [h]; exact if_pos hDue
  show Host.Outcome.next _ = _
  rw [hExpired]

theorem manualExpired_of_not_due {s : State} {ch : Channel} (h : ∀ m, chGet s.out.manual ch = some m → s.now < m.expiry) :
    exec (.manualExpired ch) s = .next s := by
  have hExpired : expiredManual s ch = none := by
    unfold expiredManual
    split
    next m hm => exact if_neg (Nat.not_le.2 (h m hm))
    · rfl
  show Host.Outcome.next _ = _
  rw [hExpired]

theorem manualOk_iff {pos dur : Nat} : manualOk pos dur = true ↔ pos ≤ 1000 ∧ 1 ≤ dur ∧ dur ≤ 3600 := by
  simp [manualOk, and_assoc]

/-- A reply to a state in which only the actuators moved. -/
theorem onlyOutputs_replyOk {s t : State} (h : OnlyOutputs s t) :
    OnlyOutputs (s.setPort { s.port with reply := some ⟨.ok, .none⟩ }) (replyOk t) := by
  have hPort : t.port = s.port := by rw [h]; rfl
  unfold OnlyOutputs at h ⊢
  unfold replyOk reply
  rw [hPort]
  rw [h]
  rfl

/-- Settles O26: the port's tests in their order, and the Output Unit's demands after each of the three. -/
theorem manualDemandsArePostedAndRemoved : Obligations.ManualDemandsArePostedAndRemoved := by
  intro s
  refine ⟨fun hc hr => ⟨fun ch pos dur => ⟨fun h => ?bad, fun hch hPos hLow hHigh hLevel => ?off⟩, fun ch pos dur hPos hLow hHigh hLevel => ?post,
    congrArg Host.Outcome.next (admitOperating_of_running hc hr _), fun ch h => ?notPosted, fun ch h => ?cancel⟩,
    fun ch => ⟨fun m hm hDue => ?expired, fun h => manualExpired_of_not_due h⟩⟩
  case bad =>
    refine congrArg Host.Outcome.next ((admitOperating_of_running hc hr _).trans ?_)
    cases ch with
    | none => rfl
    | some ch =>
      have hBad : manualOk pos dur = false := Bool.not_eq_true _ ▸ fun hOk => by
        have := manualOk_iff.1 hOk
        rcases h with h | h | h | h
        · cases h
        all_goals omega
      dsimp only
      rw [hBad, if_pos (by decide)]
      rfl
  case off =>
    refine congrArg Host.Outcome.next ((admitOperating_of_running hc hr _).trans ?_)
    obtain ⟨ch, rfl⟩ := Option.ne_none_iff_exists'.1 hch
    dsimp only
    rw [manualOk_iff.2 ⟨hPos, hLow, hHigh⟩, if_neg (by decide), if_pos hLevel]
    rfl
  case post =>
    refine ⟨_, manualPost_of_running hc hr ch (manualOk_iff.2 ⟨hPos, hLow, hHigh⟩) hLevel, rfl, ?_⟩
    obtain ⟨hManual, hGuard, hFire⟩ := settled_setManual_demands ch (some { value := pos, expiry := s.now + secs dur }) s
    refine ⟨hManual, hGuard, hFire, fun hPending => ?_⟩
    rw [settled_setManual hPending]
    exact ⟨onlyOutputs_replyOk (setManual_onlyOutputs ..), (setManual_demands ..).2.2.2.1, setManual_present_of_manual⟩
  case notPosted =>
    exact congrArg Host.Outcome.next ((admitOperating_of_running hc hr _).trans (if_pos (by rw [h]; rfl)))
  case cancel =>
    refine ⟨_, manualCancel_of_running hc hr h, rfl, ?_⟩
    obtain ⟨hManual, hGuard, hFire⟩ := settled_setManual_demands ch none s
    refine ⟨hManual, hGuard, hFire, fun hPending => ?_⟩
    rw [settled_setManual hPending]
    exact ⟨onlyOutputs_replyOk (setManual_onlyOutputs ..), (setManual_demands ..).2.2.2.1⟩
  case expired =>
    refine ⟨_, manualExpired_of_due hm hDue, ?_⟩
    obtain ⟨hManual, hGuard, hFire⟩ := settled_setManual_demands ch none (post (.manualExpired ch m.value) s)
    refine ⟨hManual, hGuard, hFire, fun hPending hRoom => ?_⟩
    rw [settled_setManual (s := post (.manualExpired ch m.value) s) hPending]
    have hOnly := setManual_onlyOutputs ch none (post (.manualExpired ch m.value) s)
    have hPort : (setManual ch none (post (.manualExpired ch m.value) s)).port = (post (.manualExpired ch m.value) s).port :=
      (changeDemands_moved _ _).port
    refine ⟨?_, ?_, (setManual_demands ..).2.2.2.1⟩
    · rw [Posted, hPort]
      exact posted_post_of_room hRoom _
    · rw [hPort]
      exact hOnly

end Sys2Proof.Machine
end

section
/-! PROOF. What the blocks' work on an event leaves of the link: the Sequencer, the Claim Unit, the Output Unit and the Limit Supervisor
reach the link only through the transmit queue, so its state and timers stand. With it the link's timers (O56) are settled. -/

namespace Sys2Proof.Machine

/-- State s is reached from state r by work that reaches the link only through the queueing of a BEACON and of claim frames and the
removal of an INTENT, and the Claim Unit only through its processes and the own records; a STARVED process is left alone. -/
inductive Works (r : State) : State → Prop where
  | refl : Works r r
  | still {s t : State} : Works r s → t.link = s.link → t.claims = s.claims → t.cfg = s.cfg →
      t.port.restarting = s.port.restarting → t.now = s.now → Works r t
  | beacon {s : State} : Works r s → Works r (queueBeacon s)
  | place {s : State} (m : ClaimMsg) : Works r s → (procOf s (claimResource m)).state ≠ .starved → Works r (placeClaim m s)
  | unIntent {s : State} (x : Resource) : Works r s → (procOf s x).state ≠ .starved → Works r (removeIntent x s)
  | proc {s : State} (x : Resource) (p : Process) : Works r s → (procOf s x).state ≠ .starved →
      p.disturbed = (procOf s x).disturbed ∧ (p.state = .held → (procOf s x).state = .held) → Works r (setProc x p s)
  | drop {s : State} (x : Resource) : Works r s → Works r (removeRecord (ownAddr s) x s)

/-- Two links in the same state, with the same timers and the same receive sequence. -/
structure SameLine (a b : Link) : Prop where
  state : b.state = a.state
  join : b.joinTimer = a.joinTimer
  beacon : b.beaconTimer = a.beaconTimer
  quiet : b.quietTimer = a.quietTimer
  wish : b.offlineWish = a.offlineWish
  sequence : b.sequence = a.sequence
  alert : b.alertSlot = a.alertSlot

section
variable {r s t : State}

/-! ## What the work leaves -/

theorem SameLine.refl (a : Link) : SameLine a a := ⟨rfl, rfl, rfl, rfl, rfl, rfl, rfl⟩

theorem SameLine.trans {a b c : Link} (h : SameLine a b) (h' : SameLine b c) : SameLine a c :=
  ⟨h'.state.trans h.state, h'.join.trans h.join, h'.beacon.trans h.beacon, h'.quiet.trans h.quiet, h'.wish.trans h.wish,
    h'.sequence.trans h.sequence, h'.alert.trans h.alert⟩

theorem SameLine.of_eq {a b : Link} (h : b = { a with
    beaconSlot := b.beaconSlot, claimSlot := b.claimSlot, beaconMark := b.beaconMark, alertMark := b.alertMark
    attempt := b.attempt, failSlot := b.failSlot }) : SameLine a b := by
  rw [h]
  exact ⟨rfl, rfl, rfl, rfl, rfl, rfl, rfl⟩

theorem dropFrame_sameLine (sl : Slot) (l : Link) : SameLine l (dropFrame sl l) := by
  unfold dropFrame
  dsimp only
  (repeat' split) <;> exact .of_eq rfl

theorem clearClaimSlot_sameLine (x : Resource) (l : Link) : SameLine l (clearClaimSlot x l) :=
  (dropFrame_sameLine (slotOf x) l).trans (.of_eq rfl)

theorem queueBeacon_sameLine (s : State) : SameLine s.link (queueBeacon s).link := by
  unfold queueBeacon
  dsimp only
  split
  · exact .refl _
  · split
    · exact .of_eq rfl
    · exact (dropFrame_sameLine .beacon s.link).trans (.of_eq rfl)

theorem placeClaim_sameLine (m : ClaimMsg) (s : State) : SameLine s.link (placeClaim m s).link := by
  unfold placeClaim
  split
  · exact .refl _
  · exact (dropFrame_sameLine (slotOf (claimResource m)) s.link).trans (.of_eq rfl)

theorem removeIntent_sameLine (x : Resource) (s : State) : SameLine s.link (removeIntent x s).link := by
  unfold removeIntent
  split
  · exact clearClaimSlot_sameLine x s.link
  · exact .refl _

theorem queueBeacon_port (s : State) : (queueBeacon s).port = s.port := by rw [queueBeacon_eq]; rfl
theorem queueBeacon_now (s : State) : (queueBeacon s).now = s.now := by rw [queueBeacon_eq]; rfl

theorem Works.sameLine (h : Works r s) : SameLine r.link s.link := by
  induction h with
  | refl => exact .refl _
  | still _ hl _ _ _ _ ih => rw [hl]; exact ih
  | beacon _ ih => exact ih.trans (queueBeacon_sameLine _)
  | place m _ _ ih => exact ih.trans (placeClaim_sameLine m _)
  | unIntent x _ _ ih => exact ih.trans (removeIntent_sameLine x _)
  | proc x p _ _ _ ih => exact ih
  | drop x _ ih => exact ih

theorem Works.cfg_port_now (h : Works r s) : s.cfg = r.cfg ∧ s.port.restarting = r.port.restarting ∧ s.now = r.now := by
  induction h with
  | refl => exact ⟨rfl, rfl, rfl⟩
  | still _ _ _ hc hr hn ih => exact ⟨hc.trans ih.1, hr.trans ih.2.1, hn.trans ih.2.2⟩
  | beacon _ ih => rw [queueBeacon_eq]; exact ih
  | place m _ _ ih => rw [placeClaim_eq]; exact ih
  | unIntent x _ _ ih => rw [removeIntent_eq]; exact ih
  | proc x p _ _ _ ih => exact ih
  | drop x _ ih => exact ih

theorem Works.now_eq (h : Works r s) : s.now = r.now := h.cfg_port_now.2.2

theorem Works.trans (h : Works r s) (h' : Works s t) : Works r t := by
  induction h' with
  | refl => exact h
  | still _ hl hcl hc hr hn ih => exact ih.still hl hcl hc hr hn
  | beacon _ ih => exact ih.beacon
  | place m _ hm ih => exact ih.place m hm
  | unIntent x _ hx ih => exact ih.unIntent x hx
  | proc x p _ hx hp ih => exact ih.proc x p hx hp
  | drop x _ ih => exact ih.drop x

/-! ## What the work leaves of the Claim Unit -/

/-- The records of other stations, the capacities, the fire set and the freeze, and the processes' disturbed flags. -/
structure SameClaims (s t : State) : Prop where
  others : ∀ a x, a ≠ ownAddr s → findRecord t a x = findRecord s a x
  capacity : t.claims.capacity = s.claims.capacity
  mismatch : t.claims.mismatch = s.claims.mismatch
  fireSet : t.claims.fireSet = s.claims.fireSet
  freeze : t.claims.freeze = s.claims.freeze
  disturbed : ∀ x, (procOf t x).disturbed = (procOf s x).disturbed

theorem findRecord_congr (h : t.claims.list = s.claims.list) (a : Nat) (x : Resource) : findRecord t a x = findRecord s a x := by
  unfold findRecord
  rw [h]

theorem findRecord_removeRecord (s : State) (a b : Nat) (x y : Resource) :
    findRecord (removeRecord a x s) b y = if b = a ∧ y = x then none else findRecord s b y := by
  refine List.find?_filter.trans ?_
  split
  next h =>
    refine List.find?_eq_none.2 fun c _ => ?_
    simp [h]
  next h =>
    refine congrArg (fun f => List.find? f s.claims.list) (funext fun c => ?_)
    by_cases hk : hasKey b y c = true
    · have hNot : hasKey a x c = false := by
        simp only [hasKey, Bool.and_eq_true, decide_eq_true_eq] at hk
        obtain ⟨rfl, rfl⟩ := hk
        simpa [hasKey] using h
      rw [hk, hNot]
      rfl
    · rw [Bool.not_eq_true] at hk
      rw [hk]
      simp

theorem SameClaims.of_claims (hs : SameClaims r s) (h : t.claims = s.claims) : SameClaims r t where
  others a x ha := (findRecord_congr (congrArg ClaimUnit.list h) a x).trans (hs.others a x ha)
  capacity := h ▸ hs.capacity
  mismatch := h ▸ hs.mismatch
  fireSet := h ▸ hs.fireSet
  freeze := h ▸ hs.freeze
  disturbed x := (congrArg Process.disturbed (procOf_congr h x)).trans (hs.disturbed x)

theorem Works.sameClaims (h : Works r s) : SameClaims r s := by
  induction h with
  | refl => exact ⟨fun _ _ _ => rfl, rfl, rfl, rfl, rfl, fun _ => rfl⟩
  | still _ _ h _ _ _ ih => exact ih.of_claims h
  | beacon _ ih => exact ih.of_claims (by rw [queueBeacon_eq]; rfl)
  | place m _ _ ih => exact ih.of_claims (placeClaim_claims m _)
  | unIntent x _ _ ih => exact ih.of_claims (removeIntent_claims x _)
  | @proc s x p _ _ hp ih =>
    refine ⟨ih.others, ih.capacity, ih.mismatch, ih.fireSet, ih.freeze, fun y => ?_⟩
    rw [procOf_setProc]
    split
    next h => rw [hp.1, h]; exact ih.disturbed x
    · exact ih.disturbed y
  | @drop s x hw ih =>
    refine ⟨fun a y ha => ?_, ih.capacity, ih.mismatch, ih.fireSet, ih.freeze, ih.disturbed⟩
    have hOwn : ownAddr s = ownAddr r := congrArg (fun c : Settings => c.ident.addr.getD 0) hw.cfg_port_now.1
    rw [findRecord_removeRecord, if_neg fun h => ha (h.1.trans hOwn)]
    exact ih.others a y ha

/-- A STARVED process, and the frame in its slot, stand (R77). -/
theorem Works.starved (h : Works r s) {x : Resource} (hx : (procOf r x).state = .starved) :
    procOf s x = procOf r x ∧ claimIn s x = claimIn r x := by
  induction h with
  | refl => exact ⟨rfl, rfl⟩
  | still _ hl hc _ _ _ ih => exact ⟨(procOf_congr hc x).trans ih.1, (claimIn_congr hl x).trans ih.2⟩
  | @beacon s _ ih =>
    refine ⟨(procOf_congr (by rw [queueBeacon_eq]; rfl) x).trans ih.1, Eq.trans ?_ ih.2⟩
    have hSlots : (queueBeacon s).link.claimSlot = s.link.claimSlot := by
      unfold queueBeacon
      dsimp only
      split
      · rfl
      · split
        · rfl
        · exact dropFrame_claimSlot _ _
    rw [claimIn, claimIn, hSlots]
  | @place s m _ hm ih =>
    refine ⟨(procOf_placeClaim m s x).trans ih.1, ?_⟩
    by_cases hClashed : s.link.state = .clashed
    · rw [placeClaim_of_clashed m s hClashed]; exact ih.2
    · rw [claimIn_placeClaim m s hClashed, if_neg fun he => hm (by rw [← he, ih.1]; exact hx)]
      exact ih.2
  | @unIntent s y _ hy ih =>
    refine ⟨(procOf_removeIntent y s x).trans ih.1, ?_⟩
    rw [claimIn_removeIntent, if_neg fun he => hy (by rw [← he.1, ih.1]; exact hx)]
    exact ih.2
  | @proc s y p _ hy _ ih =>
    refine ⟨?_, ih.2⟩
    rw [procOf_setProc_other fun he => hy (by rw [← he, ih.1]; exact hx)]
    exact ih.1
  | @drop s y _ ih => exact ih

/-- No work makes a process HELD. -/
theorem Works.unheld (h : Works r s) {x : Resource} (hx : (procOf r x).state ≠ .held) : (procOf s x).state ≠ .held := by
  induction h with
  | refl => exact hx
  | still _ _ hc _ _ _ ih => rw [procOf_congr hc x]; exact ih
  | @beacon s _ ih => rw [procOf_congr (s := s) (by rw [queueBeacon_eq]; rfl) x]; exact ih
  | @place s m _ _ ih => rw [procOf_placeClaim]; exact ih
  | @unIntent s y _ _ ih => rw [procOf_removeIntent]; exact ih
  | @proc s y p _ _ hp ih =>
    rw [procOf_setProc]
    split
    next h => subst h; exact fun h => ih (hp.2 h)
    · exact ih
  | drop y _ ih => exact ih

/-! ## A BEACON that waits, with no attempt in progress -/

/-- No attempt is in progress, and a BEACON queued at this time waits. -/
def BeaconWaits (s : State) : Prop := s.link.attempt = none ∧ s.link.beaconSlot = some s.now

theorem dropFrame_attempt_of_other {l : Link} {sl : Slot} (h : ∀ a, l.attempt = some a → a.slot ≠ sl) :
    (dropFrame sl l).attempt = l.attempt := by
  have hMark : (if l.failSlot = some sl then { l with failSlot := none } else l).attempt = l.attempt := by split <;> rfl
  unfold dropFrame
  dsimp only
  split
  · exact hMark
  next a ha => rw [if_neg (h a (hMark.symm.trans ha))]; exact hMark

theorem dropFrame_beaconSlot (sl : Slot) (l : Link) : (dropFrame sl l).beaconSlot = l.beaconSlot := by
  unfold dropFrame
  dsimp only
  (repeat' split) <;> rfl

theorem not_underAttempt {l : Link} {sl : Slot} (h : ∀ a, l.attempt = some a → a.slot ≠ sl) : underAttempt l sl = false := by
  unfold underAttempt
  cases hA : l.attempt with
  | none => rfl
  | some a => simp [h a hA]

theorem queueBeacon_of_free {s : State} (hr : s.port.restarting = false) (hs : s.link.state = .online ∨ s.link.state = .quiet)
    (h : ∀ a, s.link.attempt = some a → a.slot ≠ .beacon) :
    queueBeacon s = s.setLink { dropFrame .beacon s.link with beaconSlot := some s.now } := by
  unfold queueBeacon
  simp only [hr, not_underAttempt h, Bool.false_or, Bool.not_eq_true', Bool.or_eq_false_iff, decide_eq_false_iff_not,
    Bool.false_eq_true, ↓reduceIte]
  rw [if_neg fun hn => hs.elim hn.1 hn.2]

theorem queueBeacon_of_waiting (s : State) (h : BeaconWaits s) : BeaconWaits (queueBeacon s) := by
  unfold queueBeacon
  dsimp only
  split
  · exact h
  · rw [if_neg (by simp [underAttempt, h.1])]
    exact ⟨(dropFrame_attempt_of_other fun a ha => by rw [h.1] at ha; cases ha).trans h.1, rfl⟩

theorem placeClaim_of_waiting (m : ClaimMsg) (s : State) (h : BeaconWaits s) : BeaconWaits (placeClaim m s) := by
  unfold placeClaim
  split
  · exact h
  · exact ⟨(dropFrame_attempt_of_other fun a ha => by rw [h.1] at ha; cases ha).trans h.1, (dropFrame_beaconSlot _ _).trans h.2⟩

theorem removeIntent_of_waiting (x : Resource) (s : State) (h : BeaconWaits s) : BeaconWaits (removeIntent x s) := by
  unfold removeIntent
  split
  · exact ⟨(dropFrame_attempt_of_other fun a ha => by rw [h.1] at ha; cases ha).trans h.1, (dropFrame_beaconSlot _ _).trans h.2⟩
  · exact h

theorem Works.beaconWaits (h : Works r s) (hr : BeaconWaits r) : BeaconWaits s := by
  induction h with
  | refl => exact hr
  | still _ hl _ _ _ hn ih => exact ⟨by rw [hl]; exact ih.1, by rw [hl, hn]; exact ih.2⟩
  | beacon _ ih => exact queueBeacon_of_waiting _ ih
  | place m _ _ ih => exact placeClaim_of_waiting m _ ih
  | unIntent x _ _ ih => exact removeIntent_of_waiting x _ ih
  | proc x p _ _ _ ih => exact ih
  | drop x _ ih => exact ih

end

/-! ## The work of the Claim Unit -/

section
variable {r s : State}

theorem ite_works {c : Prop} [Decidable c] {a b : State} (ha : Works r a) (hb : Works r b) : Works r (if c then a else b) := by
  split <;> assumption

theorem Works.seq (h : Works r s) (q : Sequencer) : Works r (s.setSeq q) := h.still rfl rfl rfl rfl rfl
theorem Works.limits (h : Works r s) (l : Limits) : Works r (s.setLimits l) := h.still rfl rfl rfl rfl rfl
theorem Works.out (h : Works r s) (o : OutputUnit) : Works r (s.setOut o) := h.still rfl rfl rfl rfl rfl
theorem Works.post (h : Works r s) (b : NoticeBody) : Works r (post b s) := h.still rfl rfl rfl rfl rfl

/-- A process is replaced and a frame of its resource placed. -/
theorem Works.procPlaced {x : Resource} {p : Process} (m : ClaimMsg) (h : Works r s) (hx : (procOf s x).state ≠ .starved)
    (hd : p.disturbed = (procOf s x).disturbed ∧ (p.state = .held → (procOf s x).state = .held)) (hp : p.state ≠ .starved) (hm : claimResource m = x) :
    Works r (placeClaim m (setProc x p s)) :=
  (h.proc x p hx hd).place m (by rw [hm, procOf_setProc_same]; exact hp)

theorem beginAttempt_works {x : Resource} (n : Nat) (h : Works r s) (hx : (procOf s x).state ≠ .starved) :
    Works r (beginAttempt x n s) :=
  ite_works (h.proc x _ hx ⟨rfl, nofun⟩) (h.procPlaced _ hx ⟨rfl, nofun⟩ nofun rfl)

theorem takeWaiting_works (x : Resource) (h : Works r s) : Works r (takeWaiting x s) := by
  unfold takeWaiting
  dsimp only
  split
  next hw =>
    refine beginAttempt_works 1 h ?_
    simp only [Bool.and_eq_true, decide_eq_true_eq] at hw
    rw [hw.1.1]
    exact nofun
  · exact h

theorem requestClaim_works (x : Resource) (h : Works r s) : Works r (requestClaim x s).1 := by
  unfold requestClaim
  dsimp only
  split
  next hp =>
    have hx : (procOf s x).state ≠ .starved := by rw [hp]; exact nofun
    split
    · exact h
    · split
      · exact h.proc x _ hx ⟨rfl, id⟩
      · exact beginAttempt_works 1 h hx
  next hp => exact h.proc x _ (by rw [hp]; exact nofun) ⟨rfl, id⟩
  next hp => exact h.proc x _ (by rw [hp]; exact nofun) ⟨rfl, id⟩
  all_goals exact h

theorem cancelClaim_works (x : Resource) (h : Works r s) : Works r (cancelClaim x s) := by
  unfold cancelClaim
  dsimp only
  split
  next hp => exact h.proc x _ (by rw [hp]; exact nofun) ⟨rfl, id⟩
  next hp =>
    have hx : (procOf s x).state ≠ .starved := by rw [hp]; exact nofun
    exact (h.unIntent x hx).proc x _ (by rw [procOf_removeIntent]; exact hx) ⟨rfl, nofun⟩
  next hp => exact h.procPlaced _ (by rw [hp]; exact nofun) ⟨rfl, nofun⟩ nofun rfl
  next hp => exact h.procPlaced _ (by rw [hp]; exact nofun) ⟨rfl, nofun⟩ nofun rfl
  next hp => exact h.proc x _ (by rw [hp]; exact nofun) ⟨rfl, nofun⟩
  next hp => exact h.proc x _ (by rw [hp]; exact nofun) ⟨rfl, id⟩
  all_goals exact h

theorem releaseClaim_works (x : Resource) (h : Works r s) : Works r (releaseClaim x s) := by
  unfold releaseClaim
  dsimp only
  split
  next hp => exact h.procPlaced _ (by rw [hp]; exact nofun) ⟨rfl, nofun⟩ nofun rfl
  next hp =>
    have hx : (procOf s x).state ≠ .starved := by rw [hp]; exact nofun
    split
    · exact Works.drop x (show Works r (toIdle x (procOf s x).request s) from h.proc x _ hx ⟨rfl, nofun⟩)
    · exact h.procPlaced _ hx ⟨rfl, nofun⟩ nofun rfl
  · exact h

/-! ## The work of the Output Unit -/

theorem Works.moved {t : State} (h : Works r s) (hm : Moved s t) : Works r t := h.still hm.link hm.claims hm.cfg (by rw [hm.port]) hm.now

theorem changeDemands_works (f : OutputUnit → OutputUnit) (h : Works r s) : Works r (changeDemands f s) :=
  (h.out (f s.out)).moved (changeDemands_moved f s)

theorem postSet_works (d : DemandSet) (h : Works r s) : Works r (postSet d s) := changeDemands_works _ (h.seq _)

/-! ## The work of the Mode Sequencer -/

theorem setMode_works (m : Mode) (h : Works r s) : Works r (setMode m s) := ite_works h (h.seq _).beacon

theorem setPhase_works (p : Phase) (h : Works r s) : Works r (setPhase p s) := ite_works h (h.seq _).beacon

theorem enterRamping_works (m : Mode) (h : Works r s) : Works r (enterRamping m s) :=
  (postSet_works _ (setPhase_works _ (h.seq _))).seq _

theorem enterWaitOrRamp_works (m : Mode) (f : Bool) (h : Works r s) : Works r (enterWaitOrRamp m f s) :=
  ite_works (enterRamping_works m h) (setPhase_works _ (h.seq _))

theorem enterFirstPhase_works (m : Mode) (f : Bool) (h : Works r s) : Works r (enterFirstPhase m f s) := by
  unfold enterFirstPhase
  split
  · exact ite_works (enterWaitOrRamp_works m f h) (requestClaim_works _ (setPhase_works _ h))
  · exact enterWaitOrRamp_works m f h

theorem beginTransition_works (m : Mode) (f : Bool) (h : Works r s) : Works r (beginTransition m f s) :=
  enterFirstPhase_works m f (h.seq _)

theorem startTest_works (h : Works r s) : Works r (startTest s) := by
  unfold startTest
  split
  · exact h
  · exact ite_works (beginTransition_works _ _ h) h

theorem exitTest_works (h : Works r s) : Works r (exitTest s) := ite_works (beginTransition_works _ _ h) h

theorem afterSettled_works (h : Works r s) : Works r (afterSettled s) := exitTest_works (startTest_works h)

theorem releaseUnless_works (m : Option Mode) (x : Resource) (h : Works r s) : Works r (releaseUnless m x s) :=
  ite_works (releaseClaim_works x h) h

theorem releaseUnneeded_works (m : Option Mode) (h : Works r s) : Works r (releaseUnneeded m s) :=
  releaseUnless_works m .defrost (releaseUnless_works m .relief h)

theorem cancelRequest_works (h : Works r s) : Works r (cancelRequest s) := by
  unfold cancelRequest
  split
  · exact h
  · split
    · exact h
    · exact cancelClaim_works _ h

theorem toSettled_works (h : Works r s) : Works r (toSettled s) := setPhase_works _ (h.seq _)

theorem cancelTransition_works (h : Works r s) : Works r (cancelTransition s) :=
  toSettled_works ((releaseUnneeded_works _ (cancelRequest_works h)).seq _)

theorem abandon_works (m : Mode) (h : Works r s) : Works r (abandon m s) :=
  afterSettled_works ((toSettled_works (h.seq _)).post _)

theorem abortToSafe_works (h : Works r s) : Works r (abortToSafe s) :=
  enterRamping_works _ (Works.seq (Works.seq (cancelClaim_works .defrost (cancelClaim_works .relief h)) _) _)

theorem runningUpdate_works (h : Works r s) : Works r (runningUpdate s) := by
  unfold runningUpdate
  (repeat' split) <;> first | exact h | exact postSet_works _ h

theorem updateCandidate_works (m : Mode) (h : Works r s) : Works r (updateCandidate m s) := ite_works (h.seq _) (h.seq _)

theorem desireAgainst_works (x : Transition) (h : Works r s) : Works r (desireAgainst x s) := by
  unfold desireAgainst
  split
  · exact h
  · exact ite_works h (ite_works (abortToSafe_works h) (ite_works h (afterSettled_works (cancelTransition_works h))))

theorem takeRecord_works (h : Works r s) : Works r (takeRecord s) := by
  unfold takeRecord
  dsimp only
  split
  · exact h
  · split
    · exact h
    · split
      · exact startTest_works (runningUpdate_works (updateCandidate_works _ h))
      · exact updateCandidate_works _ h
      · exact desireAgainst_works _ (updateCandidate_works _ h)
      · exact updateCandidate_works _ h

theorem leaveNow_works (m : Mode) (h : Works r s) : Works r (leaveNow m s) :=
  ite_works (beginTransition_works _ _ (Works.seq (h.seq _) _)) (afterSettled_works (Works.seq (h.seq _) _))

theorem forceLeave_works (m : Mode) (h : Works r s) : Works r (forceLeave m s) := by
  have hLater : Works r (leaveLater m s) := Works.seq (h.seq _) _
  have hWaiting : Works r (if s.seq.mode = some m then leaveNow m (endWait (cancelRequest s))
      else if targetOf s = some m then afterSettled (clearCandidate (cancelTransition s)) else s) :=
    ite_works (leaveNow_works _ ((cancelRequest_works h).seq _))
      (ite_works (afterSettled_works ((cancelTransition_works h).seq _)) h)
  unfold forceLeave
  split
  · exact h
  · dsimp only
    split
    · exact ite_works (leaveNow_works _ h) h
    · simpa using hWaiting
    · simpa using hWaiting
    · exact ite_works hLater h
    · exact ite_works hLater h
    · exact h

theorem linkLost_works (h : Works r s) : Works r (linkLost s) :=
  ite_works (forceLeave_works _ (forceLeave_works _ h)) (forceLeave_works _ (forceLeave_works _ h))

theorem enterMode_works (m : Mode) (h : Works r s) : Works r (enterMode m s) := (setMode_works m (h.seq _)).post _

theorem defrostTimers_works (old : Option Mode) (m : Mode) (h : Works r s) : Works r (defrostTimers old m s) :=
  ite_works (h.seq _) (ite_works (h.seq _) h)

theorem rampCompleted_works (m : Mode) (h : Works r s) : Works r (rampCompleted m s) := by
  have h1 : Works r (if s.seq.mode = some m then s else enterMode m s) := ite_works h (enterMode_works m h)
  have h2 := releaseUnneeded_works (some m) h1
  have h4 := toSettled_works (ite_works (c := s.seq.mode = some m) h2 (defrostTimers_works s.seq.mode m h2))
  unfold rampCompleted
  dsimp only
  split
  · exact leaveNow_works _ h4
  · exact afterSettled_works h4

theorem reportOnce_works (h : Works r s) : Works r (reportOnce s) := by
  unfold reportOnce
  split
  · unfold takeCompletion
    split
    · exact h.out _
    · exact ite_works (rampCompleted_works _ (h.out _)) (h.out _)
  · exact h

theorem reportAll_works (n : Nat) (h : Works r s) : Works r (reportAll n s) := by
  induction n generalizing s with
  | zero => exact h
  | succ n ih => exact ite_works (ih (reportOnce_works h)) h

theorem settleRamps_works (h : Works r s) : Works r (settleRamps s) := reportAll_works 8 h

theorem takeClaimReport_works (x : ClaimReport) (h : Works r s) : Works r (takeClaimReport x s) := by
  unfold takeClaimReport
  split
  · exact h
  · dsimp only
    split
    · split
      · exact enterWaitOrRamp_works _ _ h
      · exact h
    · split
      · exact abandon_works _ h
      · exact h
    · exact forceLeave_works _ h
    · exact h
    · exact startTest_works h

theorem takeClaimReports_works (l : List ClaimReport) (h : Works r s) : Works r (takeClaimReports l s) := by
  induction l generalizing s with
  | nil => exact h
  | cons x rest ih => exact ih (takeClaimReport_works x h)

theorem reported_works {x : Reported} (h : Works r x.1) : Works r (reported x) := takeClaimReports_works x.2 h

/-! ## The work of the Limit Supervisor, and of an evaluation -/

theorem postGuards_works (h : Works r s) : Works r (postGuards s) := ite_works h (changeDemands_works _ (h.limits _))

theorem followHold_works (h : Works r s) : Works r (followHold s) := ite_works (startTest_works (h.limits _)) (h.limits _)

theorem moveLimit_works (n : LimitName) (v : LimitState) (b : NoticeBody) (h : Works r s) : Works r (moveLimit n v b s) :=
  followHold_works (postGuards_works (ite_works (h.limits _) ((h.limits _).post _)))

theorem takeEstimate_works (h : Works r s) : Works r (takeEstimate s) := by
  have hJudge (v : Int) : Works r (judgeFrost v .estimate s) := by
    unfold judgeFrost judge
    split
    · exact ite_works (moveLimit_works _ _ _ h) h
    · exact ite_works (moveLimit_works _ _ _ h) h
  unfold takeEstimate
  split
  · exact h
  · exact ite_works h (hJudge _)

theorem handOff_works (h : Works r s) : Works r (unordered handToSequencer handToLimits s) := by
  obtain ⟨n, hn | hn⟩ := unordered_cases handToSequencer handToLimits s
  · rw [hn]
    exact (settleRamps_works (takeEstimate_works (settleRamps_works (takeRecord_works h)))).still rfl rfl rfl rfl rfl
  · rw [hn]
    exact (settleRamps_works (takeRecord_works (settleRamps_works (takeEstimate_works h)))).still rfl rfl rfl rfl rfl

theorem makeRecord_works (h : Works r s) : Works r (makeRecord s) := by
  have hActs : Acts (fun p => p == .band || p == .notices || p == .decision) s (makeRecord s) := makeRecord_acts .refl rfl rfl rfl
  exact h.still (hActs.link_eq rfl rfl) (hActs.claims_eq rfl) hActs.cfg (hActs.restarting_eq rfl) hActs.now

theorem requestEvaluation_works (h : Works r s) : Works r (requestEvaluation s) := ite_works (handOff_works (makeRecord_works h)) h

end

/-! ## The link's timers (O56) -/

/-- The state in which a link that leaves JOINING asks for its first evaluation: ONLINE, the first BEACON asked for (R5, R108). -/
def joined (s : State) : State :=
  queueBeacon (s.setLink { s.link with
    state := .online, joinTimer := none, beaconTimer := some (s.now + s.cfg.line.tBCN * 1000) })

theorem joined_eq (s : State) : joined s = s.setLink (joined s).link := queueBeacon_eq _

theorem leaveJoining_eq (s : State) : leaveJoining s = requestEvaluation (joined s) := rfl

theorem joined_sameLine (s : State) : SameLine { s.link with
    state := .online, joinTimer := none, beaconTimer := some (s.now + s.cfg.line.tBCN * 1000) } (joined s).link :=
  queueBeacon_sameLine (s.setLink _)

theorem requestEvaluation_counter {s : State} (hc : s.port.closed = true) (hr : s.port.restarting = false) :
    (requestEvaluation s).decision.counter = s.decision.counter + 1 ∧ (requestEvaluation s).decision.timer = s.decision.timer := by
  have hRunning : running s = true := running_iff.2 ⟨hc, hr⟩
  have hActs := (handOff_acts (makeRecord s)).decision_eq rfl
  have hSame := (estimate_same s).2.2.1
  unfold requestEvaluation
  rw [if_pos hRunning]
  unfold evaluate
  rw [hActs]
  exact ⟨congrArg (·.counter + 1) hSame, congrArg (·.timer) hSame⟩

theorem requestEvaluation_of_not_running {s : State} (h : s.port.closed = false ∨ s.port.restarting = true) :
    requestEvaluation s = s := if_neg fun hr => by
  obtain ⟨hc, hn⟩ := running_iff.1 hr
  rcases h with h | h
  · rw [h] at hc; cases hc
  · rw [h] at hn; cases hn

theorem beaconPeriod_eq (s : State) : beaconPeriod s
    = s.setLink { (queueBeacon s).link with beaconTimer := some (s.now + s.cfg.line.tBCN * 1000) } := by
  unfold beaconPeriod
  rw [queueBeacon_eq]
  rfl

theorem queueBeacon_of_attempted {s : State} {a : Attempt} (hr : s.port.restarting = false) (hs : s.link.state = .online)
    (ha : s.link.attempt = some a) (hb : a.slot = .beacon) : queueBeacon s = s.setLink { s.link with beaconMark := true } := by
  simp [queueBeacon, hr, hs, underAttempt, ha, hb]

/-- Settles O56: the joining period's evaluation reaches the link only through the transmit queue. -/
theorem linkTimersAct : Obligations.LinkTimersAct := by
  intro s
  refine ⟨fun h => congrArg Host.Outcome.next (if_neg (by rw [h]; decide)), ?quiet,
    fun h => congrArg Host.Outcome.next (if_neg (by rw [h]; decide)), ?joining,
    fun h => congrArg Host.Outcome.next (if_neg (by rw [h]; decide)), ?beacon⟩
  case quiet =>
    intro hState ⟨x, hx, hle⟩
    have hDue : quietDue s = true := by simp [quietDue, due, hState, hx, hle]
    exact ⟨leaveQuiet s, congrArg Host.Outcome.next (if_pos hDue), rfl, fun hRoom => posted_post_of_room (s := s.setLink _) hRoom _⟩
  case joining =>
    intro hState ⟨x, hx, hle⟩
    have hDue : joiningDue s = true := by simp [joiningDue, due, hState, hx, hle]
    have hWorks : Works (joined s) (leaveJoining s) := requestEvaluation_works .refl
    have hLine := (joined_sameLine s).trans hWorks.sameLine
    refine ⟨leaveJoining s, congrArg Host.Outcome.next (if_pos hDue), hLine.state, hLine.join, hLine.beacon, ?_, ?_, ?_⟩
    · intro hAttempt hRun
      have hFree := queueBeacon_of_free (s := s.setLink { s.link with
        state := .online, joinTimer := none, beaconTimer := some (s.now + s.cfg.line.tBCN * 1000) }) hRun (.inl rfl)
        (fun a ha => by cases hAttempt.symm.trans ha)
      have hWaits : BeaconWaits (joined s) := by
        unfold joined
        rw [hFree]
        exact ⟨(dropFrame_attempt_of_other fun a ha => by cases hAttempt.symm.trans ha).trans hAttempt, rfl⟩
      have hNow : (leaveJoining s).now = s.now := hWorks.now_eq.trans (by rw [joined_eq]; rfl)
      rw [← hNow]
      exact (hWorks.beaconWaits hWaits).2
    · intro hClosed hRun
      have hDecision : (joined s).decision = s.decision := by rw [joined_eq]; rfl
      have := requestEvaluation_counter (s := joined s) (by rw [joined_eq]; exact hClosed) (by rw [joined_eq]; exact hRun)
      rwa [hDecision] at this
    · intro hStop
      rw [leaveJoining_eq, requestEvaluation_of_not_running (by rw [joined_eq]; exact hStop), joined_eq]
      rfl
  case beacon =>
    intro ⟨x, hx, hle⟩
    have hDue : beaconDue s = true := by simp [beaconDue, due, hx, hle]
    refine ⟨beaconPeriod s, congrArg Host.Outcome.next (if_pos hDue), by rw [beaconPeriod_eq]; rfl, by rw [beaconPeriod_eq]; rfl, ?_, ?_⟩
    · intro hRun hState hOther
      rw [beaconPeriod_eq, queueBeacon_of_free hRun hState hOther]
      exact ⟨rfl, dropFrame_attempt_of_other hOther⟩
    · intro a hRun hState hAttempt hSlot
      rw [beaconPeriod_eq, queueBeacon_of_attempted hRun hState hAttempt hSlot]
      exact ⟨rfl, rfl, rfl⟩

end Sys2Proof.Machine
end

section
/-! PROOF. Peer records and measurements age (O57), and the end of a FOLLOW_WAIT that the loss of a member brings (R37). -/

namespace Sys2Proof.Machine

/-! ## The end of a FOLLOW_WAIT (R37) -/

theorem waitOver_iff {s : State} {set : List Nat} :
    waitOver s set = true ↔ ¬∃ p ∈ s.peers.records, p.addr ∈ set ∧ p.phase = .ramping := by
  simp [waitOver, rampingMembers, List.filter_eq_nil_iff]

/-- The station with another wait set. -/
def waitingFor (set : List Nat) (s : State) : State := s.setSeq { s.seq with waitSet := set }

theorem waitTest_of_over {x : Transition} {s : State} (hx : s.seq.transition = some x) (hp : s.seq.phase = some .followWait)
    (h : waitOver s s.seq.waitSet = true) : waitTest s = enterRamping x.target s := by
  simp [waitTest, hx, hp, h]

theorem waitTest_of_held {s : State} (h : waitOver s s.seq.waitSet = false) : waitTest s = s := by
  unfold waitTest
  split
  · exact if_neg (by simp [h])
  · rfl

/-- A test of the end of the wait, made with a wait set. -/
theorem settled_waitTest {s : State} {set : List Nat} (hs : completionDue s = false) (hp : s.seq.phase = some .followWait) :
    WaitTested set s (settleRamps (waitTest (waitingFor set s))) := by
  intro x hx
  have hPeers : (settleRamps (waitTest (waitingFor set s))).peers = s.peers :=
    (settleRamps_acts (waitTest_acts (Acts.refl.seq _ rfl) ⟨rfl, rfl, rfl, rfl, rfl, rfl⟩)
      (P := fun p => p != .peers) ⟨rfl, rfl, rfl, rfl, rfl, rfl⟩).peers_eq rfl
  rw [hPeers]
  refine ⟨fun hHeld => ?goesOn, fun hFree hAway => ?ends⟩
  case goesOn =>
    have hOver : waitOver s set = false := by
      rw [← Bool.not_eq_true]
      exact fun hOver => waitOver_iff.1 hOver hHeld
    rw [waitTest_of_held (s := waitingFor set s) hOver,
      settleRamps_of_not_due (s := waitingFor set s) ((completionDue_congr rfl rfl).trans hs)]
    exact ⟨rfl, rfl⟩
  case ends =>
    rw [waitTest_of_over (s := waitingFor set s) hx hp (waitOver_iff.2 hFree),
      settleRamps_of_not_due (enterRamping_completionDue x.target (waitingFor set s) hAway)]
    obtain ⟨hSeq, hSet, hPosting⟩ := enterRamping_rampingTo (s := waitingFor set s) (target := x.target) (forced := x.forced) hx
    exact ⟨hSeq, hSet, hPosting⟩

section
variable {s : State}

theorem takePeerReport_of_stopped {x : PeerReport} (h : running s = false ∨ s.seq.phase ≠ some .followWait) :
    takePeerReport x s = s := if_pos (by simpa using h)

theorem takeGone_of_member {a : Nat} (hr : running s = true) (hp : s.seq.phase = some .followWait) (ha : a ∈ s.seq.waitSet) :
    takePeerReport (.gone a) s = waitTest (waitingFor (s.seq.waitSet.filter (· != a)) s) := by
  simp [takePeerReport, hr, hp, ha, waitingFor]

theorem takeGone_of_stranger {a : Nat} (ha : a ∉ s.seq.waitSet) : takePeerReport (.gone a) s = s := by
  simp [takePeerReport, ha]

theorem takeGone_of_not_waiting {a : Nat} (h : ¬(s.seq.phase = some .followWait ∧ a ∈ s.seq.waitSet)) :
    takePeerReport (.gone a) s = s := by
  by_cases hp : s.seq.phase = some .followWait
  · exact takeGone_of_stranger fun ha => h ⟨hp, ha⟩
  · exact takePeerReport_of_stopped (.inr hp)

end

/-! ## A STALE peer is not waited for -/

/-- The Peer Table is as given, and an address is not in the wait set. -/
structure Unawaited (a : Nat) (table : PeerTable) (s : State) : Prop where
  peers : s.peers = table
  out : a ∉ s.seq.waitSet

/-- No record of an address is FRESH. -/
def NotFresh (a : Nat) (table : PeerTable) : Prop := ∀ p ∈ table.records, p.addr = a → p.fresh = false

theorem mem_chooseWaitSet {s : State} {a : Nat} (h : a ∈ chooseWaitSet s) : ∃ p ∈ s.peers.records, p.addr = a ∧ p.fresh = true := by
  unfold chooseWaitSet at h
  split at h
  · cases h
  · obtain ⟨p, hp, rfl⟩ := List.mem_map.1 h
    have hSorted := (sortBy_perm _ _).mem_iff.1 (List.mem_of_mem_take hp)
    have hFresh := List.mem_filter.1 (List.mem_filter.1 hSorted).1
    exact ⟨p, hFresh.1, rfl, hFresh.2⟩
  · obtain ⟨p, hp, rfl⟩ := List.mem_map.1 h
    have hFresh := List.mem_filter.1 (List.mem_filter.1 hp).1
    exact ⟨p, hFresh.1, rfl, hFresh.2⟩

section
variable {a : Nat} {table : PeerTable} {s t : State}

theorem Unawaited.of_seq (hs : Unawaited a table s) (hp : t.peers = s.peers) (h : t.seq.waitSet = s.seq.waitSet) :
    Unawaited a table t := ⟨hp.trans hs.peers, h ▸ hs.out⟩

theorem Unawaited.ite {c : Prop} [Decidable c] {u v : State} (hu : Unawaited a table u) (hv : Unawaited a table v) :
    Unawaited a table (if c then u else v) := by
  split <;> assumption

theorem enterRamping_unawaited (m : Mode) (hs : Unawaited a table s) : Unawaited a table (enterRamping m s) :=
  ⟨(enterRamping_peers m s).trans hs.peers, by rw [enterRamping_seq]; exact List.not_mem_nil⟩

theorem setPhase_unawaited (p : Phase) (hs : Unawaited a table s) : Unawaited a table (setPhase p s) :=
  hs.of_seq (setPhase_peers p s) (by rw [setPhase_seq])

theorem enterWaitOrRamp_unawaited (m : Mode) (f : Bool) (ha : NotFresh a table) (hs : Unawaited a table s) :
    Unawaited a table (enterWaitOrRamp m f s) := by
  refine (enterRamping_unawaited m hs).ite (setPhase_unawaited _ ⟨hs.peers, fun hIn => ?_⟩)
  obtain ⟨p, hp, hAddr, hFresh⟩ := mem_chooseWaitSet (s := s) hIn
  rw [ha p (hs.peers ▸ hp) hAddr] at hFresh
  cases hFresh

theorem beginTransition_unawaited (m : Mode) (f : Bool) (ha : NotFresh a table) (hs : Unawaited a table s) :
    Unawaited a table (beginTransition m f s) := by
  have hBegun : Unawaited a table (begun m f s) := hs.of_seq rfl rfl
  rw [beginTransition_eq]
  unfold enterFirstPhase
  split
  next r _ =>
    have hActs := requestClaim_claimActs r (setPhase .claiming (begun m f s))
    exact (enterWaitOrRamp_unawaited m f ha hBegun).ite
      ((setPhase_unawaited .claiming hBegun).of_seq (hActs.peers_eq rfl) (by rw [ClaimActs.seq hActs]))
  · exact enterWaitOrRamp_unawaited m f ha hBegun

theorem afterSettled_unawaited (ha : NotFresh a table) (hs : Unawaited a table s) : Unawaited a table (afterSettled s) := by
  have hStart : Unawaited a table (startTest s) := by
    unfold startTest
    split
    · exact hs
    · exact (beginTransition_unawaited _ _ ha hs).ite hs
  exact (beginTransition_unawaited _ _ ha hStart).ite hStart

theorem leaveNow_unawaited (m : Mode) (ha : NotFresh a table) (hs : Unawaited a table s) : Unawaited a table (leaveNow m s) := by
  have hCleared : Unawaited a table (clearCandidate (s.setSeq { s.seq with forcedPending := none })) := hs.of_seq rfl rfl
  exact (beginTransition_unawaited _ _ ha hCleared).ite (afterSettled_unawaited ha hCleared)

theorem arrived_unawaited (m : Mode) (hs : Unawaited a table s) : Unawaited a table (arrived m s) := by
  have hActs : Acts (fun p => p != .peers) s (arrived m s) := by
    have hp : Sequences (fun p => p != .peers) := ⟨rfl, rfl, rfl, rfl, rfl, rfl⟩
    exact ite_acts (toSettled_acts (releaseUnneeded_acts _ .refl hp) hp)
      (toSettled_acts (defrostTimers_acts _ _ (releaseUnneeded_acts _ (enterMode_acts _ .refl hp) hp) hp) hp)
  refine hs.of_seq (hActs.peers_eq rfl) ?_
  unfold arrived
  split
  · rw [toSettled_seq, releaseUnneeded_seq]
  · have hTimers : ∀ u : State, (defrostTimers s.seq.mode m u).seq.waitSet = u.seq.waitSet := fun u => by
      unfold defrostTimers
      split
      · rfl
      · split <;> rfl
    rw [toSettled_seq]
    exact (hTimers _).trans (by rw [releaseUnneeded_seq, enterMode_seq])

theorem reportOnce_unawaited (ha : NotFresh a table) (hs : Unawaited a table s) : Unawaited a table (reportOnce s) := by
  have hTaken : Unawaited a table (s.setOut { s.out with completionPending := false }) := hs.of_seq rfl rfl
  refine Unawaited.ite ?_ hs
  unfold takeCompletion
  split
  · exact hTaken
  next x _ =>
    refine Unawaited.ite ?_ hTaken
    have hArrived := arrived_unawaited x.target hTaken
    cases hPending : (arrived x.target (s.setOut { s.out with completionPending := false })).seq.forcedPending with
    | none => rw [rampCompleted_of_free hPending]; exact afterSettled_unawaited ha hArrived
    | some m => rw [rampCompleted_of_forced hPending]; exact leaveNow_unawaited m ha hArrived

theorem settleRamps_unawaited (ha : NotFresh a table) (hs : Unawaited a table s) : Unawaited a table (settleRamps s) := by
  suffices h : ∀ k s, Unawaited a table s → Unawaited a table (reportAll k s) from h 8 s hs
  intro k
  induction k with
  | zero => exact fun _ h => h
  | succ k ih => exact fun s h => Unawaited.ite (ih _ (reportOnce_unawaited ha h)) h

theorem takeGone_unawaited (hr : running s = true) (hp : s.seq.phase = some .followWait) :
    Unawaited a s.peers (takePeerReport (.gone a) s) := by
  by_cases hIn : a ∈ s.seq.waitSet
  · rw [takeGone_of_member hr hp hIn]
    have hOut : Unawaited a s.peers (waitingFor (s.seq.waitSet.filter (· != a)) s) := ⟨rfl, fun h => by simp [waitingFor] at h⟩
    unfold waitTest
    split
    · exact (enterRamping_unawaited _ hOut).ite hOut
    · exact hOut
  · rw [takeGone_of_stranger hIn]
    exact ⟨rfl, hIn⟩

end

/-! ## The Peer Table's ages -/

theorem findPeer_map {s : State} {f : PeerRecord → PeerRecord} (hf : ∀ p, (f p).addr = p.addr) (b : Nat) :
    findPeer (s.setPeers { s.peers with records := s.peers.records.map f }) b = (findPeer s b).map f := by
  have hKey : (fun p : PeerRecord => decide (p.addr = b)) ∘ f = fun p => decide (p.addr = b) := by
    funext p
    simp only [Function.comp, hf]
  exact List.find?_map.trans (by rw [hKey]; rfl)

theorem findPeer_addr {s : State} {a : Nat} {p : PeerRecord} (h : findPeer s a = some p) : p.addr = a := by
  simpa using List.find?_some h

theorem findPeer_goesStale (s : State) (a b : Nat) :
    findPeer (peerGoesStale a s) b = (findPeer s b).map fun p => if p.addr = a then { p with fresh := false } else p :=
  findPeer_map (fun p => by split <;> rfl) b

theorem findPeer_withoutPeer {s : State} (a b : Nat) :
    findPeer (s.setPeers { s.peers with records := withoutPeer a s.peers.records }) b = if b = a then none else findPeer s b := by
  refine List.find?_filter.trans ?_
  split
  next h =>
    refine List.find?_eq_none.2 fun p _ => ?_
    simp [h]
  next h =>
    congr 1
    funext p
    by_cases hp : p.addr = b <;> simp [hp, h]

theorem findPeer_congr {s t : State} (h : t.peers = s.peers) (a : Nat) : findPeer t a = findPeer s a := by
  unfold findPeer
  rw [h]

theorem notFresh_goesStale (a : Nat) (s : State) : NotFresh a (peerGoesStale a s).peers := by
  intro p hp hAddr
  obtain ⟨q, _, rfl⟩ := List.mem_map.1 hp
  by_cases h : q.addr = a
  · rw [if_pos h]
  · rw [if_neg h] at hAddr
    exact absurd hAddr h

/-- Everything but the Peer Table. -/
def Part.unpeered : Part → Bool := fun p => p != .peers

theorem goneTaken_peers (a : Nat) (s : State) : (settleRamps (takePeerReports [.gone a] s)).peers = s.peers :=
  (settleRamps_acts (takePeerReport_acts _ (Acts.refl (P := Part.unpeered)) ⟨rfl, rfl, rfl, rfl, rfl, rfl⟩)
    ⟨rfl, rfl, rfl, rfl, rfl, rfl⟩).peers_eq rfl

/-- A member that is lost, or goes STALE, is taken from the wait set, and the end of the wait tested (R37). -/
theorem settled_goneTaken {a : Nat} {s : State} (hs : completionDue s = false) (hr : running s = true)
    (h : s.seq.phase = some .followWait ∧ a ∈ s.seq.waitSet) :
    WaitTested (s.seq.waitSet.filter (· != a)) s (settleRamps (takePeerReports [.gone a] s)) := by
  have hTaken : takePeerReports [.gone a] s = waitTest (waitingFor (s.seq.waitSet.filter (· != a)) s) :=
    takeGone_of_member hr h.1 h.2
  rw [hTaken]
  exact settled_waitTest hs h.1

theorem settled_goneOther {a : Nat} {s : State} (hs : completionDue s = false)
    (h : ¬(s.seq.phase = some .followWait ∧ a ∈ s.seq.waitSet)) : settleRamps (takePeerReports [.gone a] s) = s := by
  have hTaken : takePeerReports [.gone a] s = s := takeGone_of_not_waiting h
  rw [hTaken, settleRamps_of_not_due hs]

/-! ## Measurements age (R205) -/

theorem measOf_setMeas (m : MeasStore) (ch ch' : MeasChannel) (x : Meas) :
    measOf (setMeas m ch x) ch' = if ch' = ch then x else measOf m ch' := by
  cases ch <;> cases ch' <;> rfl

theorem neededByBasis_iff {b : Basis} {ch : MeasChannel} :
    neededByBasis b ch = true ↔ ch = .returnT ∨ (ch = .returnW ∧ b ≠ .drybulb) := by
  cases ch <;> simp [neededByBasis]

/-- The measurement store with one channel's lapse taken (R205). -/
def lapsed (ch : MeasChannel) (s : State) : State :=
  s.setPort { s.port with meas := setMeas s.port.meas ch { measOf s.port.meas ch with lapsed := true } }

theorem lapse_of_value {ch : MeasChannel} {s : State} {v : Int} (h : (measOf s.port.meas ch).value = some v) :
    lapse ch s = if neededByBasis s.cfg.decision.basis ch then post (.measurementStale ch v) (lapsed ch s) else lapsed ch s := by
  unfold lapse lapsed
  simp only [h]

theorem not_fresh_of_old {s : State} {ch : MeasChannel} {x : Time} (hx : (measOf s.port.meas ch).arrival = some x)
    (h : x + s.cfg.band.tMEASAGE * 1000 ≤ s.now) : fresh s ch = false := by
  unfold fresh
  dsimp only
  split
  next t _ ht =>
    cases hx.symm.trans ht
    have hAged : aged x (secs s.cfg.band.tMEASAGE) s.now = true := decide_eq_true h
    rw [hAged]
    rfl
  · rfl

/-- Settles O57: a record's age reaches the Sequencer as the loss of a member of its wait set, after which a STALE peer is not chosen
again. -/
theorem peerRecordsAndMeasurementsAge : Obligations.PeerRecordsAndMeasurementsAge := by
  intro s
  refine ⟨fun a => ⟨fun h => congrArg Host.Outcome.next (if_neg (by rw [h]; decide)), ?stale,
    fun h => congrArg Host.Outcome.next (if_neg (by rw [h]; decide)), ?lost⟩,
    fun ch => ⟨fun h => congrArg Host.Outcome.next (if_neg (by rw [h]; decide)), ?measurement⟩⟩
  case stale =>
    intro p hClosed hRun hFind hFresh hAge
    have hRunning : running s = true := running_iff.2 ⟨hClosed, hRun⟩
    have hDue : staleDue s a = true := by simp [staleDue, hFind, hRunning, hFresh, aged, secs, hAge]
    have hPeers := goneTaken_peers a (peerGoesStale a s)
    refine ⟨_, congrArg Host.Outcome.next (if_pos hDue), ?_, fun b hb => ?_, fun hp => ?_,
      fun hs hw => settled_goneTaken (s := peerGoesStale a s) hs hRunning hw, fun hs hw => ?_, fun hs hp => ?_⟩
    · rw [findPeer_congr hPeers, findPeer_goesStale, hFind, Option.map_some, if_pos (findPeer_addr hFind)]
    · rw [findPeer_congr hPeers, findPeer_goesStale]
      rcases Option.eq_none_or_eq_some (findPeer s b) with hNone | ⟨q, hq⟩
      · rw [hNone]; rfl
      · rw [hq, Option.map_some, if_neg (by rw [findPeer_addr hq]; exact hb)]
    · exact (settleRamps_unawaited (notFresh_goesStale a s) (takeGone_unawaited (s := peerGoesStale a s) hRunning hp)).out
    · rw [settled_goneOther (s := peerGoesStale a s) hs hw]
      exact ⟨rfl, rfl⟩
    · rw [settled_goneOther (s := peerGoesStale a s) hs fun hw => hp hw.1]
      rfl
  case lost =>
    intro p hClosed hRun hFind hAge
    have hRunning : running s = true := running_iff.2 ⟨hClosed, hRun⟩
    have hDue : lostDue s a = true := by simp [lostDue, hFind, hRunning, aged, secs, hAge]
    have hPeers := goneTaken_peers a (losePeer a .expired s)
    have hGone (b : Nat) : findPeer (settleRamps (takePeerReports [.gone a] (losePeer a .expired s))) b
        = if b = a then none else findPeer s b := (findPeer_congr hPeers b).trans (findPeer_withoutPeer a b)
    refine ⟨_, congrArg Host.Outcome.next (if_pos hDue), (hGone a).trans (if_pos rfl), fun b hb => (hGone b).trans (if_neg hb),
      fun hs hw => settled_goneTaken (s := losePeer a .expired s) hs hRunning hw, fun hs hw => ?_, fun hs hp => ?_⟩
    · rw [settled_goneOther (s := losePeer a .expired s) hs hw]
      exact ⟨rfl, rfl⟩
    · rw [settled_goneOther (s := losePeer a .expired s) hs fun hw => hp hw.1]
      exact ⟨rfl, fun hRoom => posted_post_of_room (s := s.setPeers _) hRoom _⟩
  case measurement =>
    intro v x hValue hArrival hLapsed hAge
    have hDue : lapseDue s ch = true := by simp [lapseDue, hValue, hArrival, hLapsed, aged, secs, hAge]
    have hOld : fresh (lapsed ch s) ch = false := not_fresh_of_old (x := x)
      (show (measOf (setMeas s.port.meas ch _) ch).arrival = some x by rw [measOf_setMeas, if_pos rfl]; exact hArrival) hAge
    refine ⟨lapse ch s, congrArg Host.Outcome.next (if_pos hDue), ?_⟩
    rw [lapse_of_value hValue, ← neededByBasis_iff]
    split
    next hNeeded => exact ⟨rfl, rfl, hOld, fun _ hRoom => posted_post_of_room (s := lapsed ch s) hRoom _, fun h => absurd hNeeded h⟩
    next hNeeded => exact ⟨rfl, rfl, hOld, fun h => absurd h hNeeded, fun _ => rfl⟩

end Sys2Proof.Machine
end

section
/-! PROOF. The Limit Supervisor: what the change of a limit's state does (R180, R186 to R189), the stall watch (O58), and the judging of
values and LIMIT CLEAR (O24, O27). -/

namespace Sys2Proof.Machine

/-! ## Limits that differ in what the wheel-run output starts and stops -/

/-- The limits are the same but for the stall timer and the last wrap time (R184, R192). -/
def SameLimits (a b : Limits) : Prop := b = { a with stallTimer := b.stallTimer, lastWrap := b.lastWrap }

section
variable {a b c : Limits}

theorem SameLimits.refl (a : Limits) : SameLimits a a := rfl

theorem SameLimits.trans (h : SameLimits a b) (h' : SameLimits b c) : SameLimits a c := by
  unfold SameLimits at *
  rw [h'.trans (congrArg (fun l : Limits => { l with stallTimer := c.stallTimer, lastWrap := c.lastWrap }) h)]

theorem SameLimits.limitOf (h : SameLimits a b) (n : LimitName) : limitOf b n = limitOf a n := by
  rw [show b = _ from h]
  cases n <;> rfl

theorem SameLimits.hold (h : SameLimits a b) : b.hold = a.hold := by rw [show b = _ from h]
theorem SameLimits.posted (h : SameLimits a b) : b.posted = a.posted := by rw [show b = _ from h]
theorem SameLimits.stall (h : SameLimits a b) : b.stall = a.stall := h.limitOf .stall
theorem SameLimits.supplyLow (h : SameLimits a b) : b.supplyLow = a.supplyLow := h.limitOf .supplyLow
theorem SameLimits.frostTrip (h : SameLimits a b) : b.frostTrip = a.frostTrip := h.limitOf .frostTrip
theorem SameLimits.ring (h : SameLimits a b) : b.ring = a.ring := by rw [show b = _ from h]
theorem SameLimits.revCount (h : SameLimits a b) : b.revCount = a.revCount := by rw [show b = _ from h]
theorem SameLimits.revPeriod (h : SameLimits a b) : b.revPeriod = a.revPeriod := by rw [show b = _ from h]

/-- The combined guards are made of the limits' states alone. -/
theorem combinedGuards_congr (cfg : Settings) (h : ∀ n, limitOf b n = limitOf a n) : combinedGuards cfg b = combinedGuards cfg a := by
  simp only [combinedGuards, combinedGuard, limitGuard, h]

/-- The hold is made of the limits' states alone. -/
theorem holdNow_congr (cfg : Settings) (h : ∀ n, limitOf b n = limitOf a n) : holdNow cfg b = holdNow cfg a := by
  simp only [holdNow, holdsBack, h]

end

theorem sameLimits_of_acts {P : Part → Bool} {r s : State} (h : Acts P r s) (h0 : P .limits = false) : SameLimits r.limits s.limits :=
  h.limits_eq h0

/-- What leaves the limits' states alone does not start the stall timer of a STALL that is not CLEAR (R184). -/
theorem stallTimer_none_of_acts {P : Part → Bool} {r s : State} (h : Acts P r s) (h0 : P .limits = false)
    (hStall : r.limits.stall ≠ .clear) (hTimer : r.limits.stallTimer = none) : s.limits.stallTimer = none := by
  induction h with
  | moved ch v acc hs _ _ ih =>
    have hSame := (sameLimits_of_acts hs h0).stall
    unfold setPresent wheelFollows
    dsimp only
    split
    · exact ih
    · split
      · refine (if_neg fun hc => hStall (hSame.symm.trans hc)).trans ih
      · rfl
  | limits l _ hl _ => rw [h0] at hl; cases hl
  | _ => assumption

/-! ## A limit's change of state (R180, R187, R188) -/

/-- The limits after one has changed its state: the combination posted, and the hold, follow (R187, R188). -/
def limitMoved (c : Settings) (n : LimitName) (v : LimitState) (l : Limits) : Limits :=
  { setLimit n v l with posted := combinedGuards c (setLimit n v l), hold := holdNow c (setLimit n v l) }

theorem limitOf_setLimit (n k : LimitName) (v : LimitState) (l : Limits) :
    limitOf (setLimit n v l) k = if k = n then v else limitOf l k := by
  cases n <;> cases k <;> rfl

theorem limitOf_limitMoved (c : Settings) (n k : LimitName) (v : LimitState) (l : Limits) :
    limitOf (limitMoved c n v l) k = if k = n then v else limitOf l k := by
  rw [← limitOf_setLimit]
  cases k <;> rfl

/-- The notice of a limit's change of state, which an ignored limit does not give (R180, R189). -/
def limitNoted (n : LimitName) (b : NoticeBody) (s : State) : State := if actionOf s.cfg n = .ignore then s else post b s

theorem limitNoted_eq (n : LimitName) (b : NoticeBody) (s : State) : limitNoted n b s = s.setPort (limitNoted n b s).port := by
  unfold limitNoted
  split <;> rfl

theorem limitNoted_notices (n : LimitName) (b : NoticeBody) {s : State} (hRoom : HasRoom s) :
    if actionOf s.cfg n = .ignore then (limitNoted n b s).port.notices = s.port.notices else Posted b s (limitNoted n b s) := by
  unfold limitNoted
  split
  · rfl
  · exact posted_post_of_room hRoom b

theorem moveLimit_eq (n : LimitName) (v : LimitState) (b : NoticeBody) (s : State) :
    moveLimit n v b s = followHold (postGuards (limitNoted n b (s.setLimits (setLimit n v s.limits)))) := rfl

/-- The guard demands are replaced where the combination changed, and the outputs take them (R187). -/
theorem postGuards_moved (s : State) : ∃ g, Moved ((s.setLimits { s.limits with posted := combinedGuards s.cfg s.limits }).setOut
    { s.out with guard := g }) (postGuards s) := by
  unfold postGuards
  dsimp only
  split
  next h =>
    refine ⟨s.out.guard, ?_⟩
    rw [h]
    exact Moved.refl s
  · exact ⟨_, changeDemands_moved _ _⟩

theorem postGuards_sameLimits (s : State) :
    SameLimits { s.limits with posted := combinedGuards s.cfg s.limits } (postGuards s).limits := by
  obtain ⟨g, hg⟩ := postGuards_moved s
  exact hg.limits

theorem postGuards_cfg (s : State) : (postGuards s).cfg = s.cfg := by
  obtain ⟨g, hg⟩ := postGuards_moved s
  exact hg.cfg

theorem followHold_sameLimits (s : State) : SameLimits { s.limits with hold := holdNow s.cfg s.limits } (followHold s).limits := by
  unfold followHold
  dsimp only
  split
  · exact sameLimits_of_acts (P := fun p => p != .limits) (startTest_acts .refl ⟨rfl, rfl, rfl, rfl, rfl, rfl⟩) rfl
  · exact .refl _

theorem moveLimit_sameLimits (n : LimitName) (v : LimitState) (b : NoticeBody) (s : State) :
    SameLimits (limitMoved s.cfg n v s.limits) (moveLimit n v b s).limits := by
  have hLimits : (limitNoted n b (s.setLimits (setLimit n v s.limits))).limits = setLimit n v s.limits := by
    rw [limitNoted_eq]
    rfl
  have hCfg : (limitNoted n b (s.setLimits (setLimit n v s.limits))).cfg = s.cfg := by
    unfold limitNoted
    split <;> rfl
  have hPosted := postGuards_sameLimits (limitNoted n b (s.setLimits (setLimit n v s.limits)))
  rw [hLimits, hCfg] at hPosted
  have hHold := followHold_sameLimits (postGuards (limitNoted n b (s.setLimits (setLimit n v s.limits))))
  rw [postGuards_cfg, hCfg, holdNow_congr s.cfg hPosted.limitOf] at hHold
  refine SameLimits.trans (b := { (postGuards (limitNoted n b (s.setLimits (setLimit n v s.limits)))).limits with
    hold := holdNow s.cfg (setLimit n v s.limits) }) ?_ hHold
  rw [show (postGuards (limitNoted n b (s.setLimits (setLimit n v s.limits)))).limits = _ from hPosted]
  rfl

/-- A change that does not clear the hold leaves the Sequencer as it stands. -/
theorem followHold_of_still {s : State} (h : s.limits.hold = false ∨ holdNow s.cfg s.limits = true) :
    followHold s = s.setLimits { s.limits with hold := holdNow s.cfg s.limits } := by
  refine if_neg fun hc => ?_
  rcases h with h | h <;> simp [h] at hc

/-- What a limit's change of state leaves alone while it does not clear the hold. -/
structure LimitStands (b : State) (s : State) : Prop where
  seq : s.seq = b.seq
  claims : s.claims = b.claims
  link : s.link = b.link
  port : s.port = b.port
  now : s.now = b.now
  pending : s.out.completionPending = b.out.completionPending

theorem moveLimit_of_still {n : LimitName} {v : LimitState} {b : NoticeBody} {s : State}
    (h : s.limits.hold = false ∨ holdNow s.cfg (setLimit n v s.limits) = true) : LimitStands (limitNoted n b s) (moveLimit n v b s) := by
  have hNoted : limitNoted n b (s.setLimits (setLimit n v s.limits)) = (limitNoted n b s).setLimits (setLimit n v s.limits) := by
    unfold limitNoted
    split
    next h => rw [if_pos (show actionOf s.cfg n = .ignore from h)]
    next h =>
      rw [if_neg (show ¬actionOf s.cfg n = .ignore from h)]
      rfl
  have hCfg : (limitNoted n b s).cfg = s.cfg := by
    unfold limitNoted
    split <;> rfl
  obtain ⟨g, hg⟩ := postGuards_moved ((limitNoted n b s).setLimits (setLimit n v s.limits))
  have hOf := (show SameLimits _ _ from hg.limits).limitOf
  have hHold : (postGuards ((limitNoted n b s).setLimits (setLimit n v s.limits))).limits.hold = s.limits.hold :=
    (show SameLimits _ _ from hg.limits).hold.trans (by cases n <;> rfl)
  rw [moveLimit_eq, hNoted, followHold_of_still]
  · exact ⟨hg.seq, hg.claims, hg.link, hg.port, hg.now, congrArg (·.completionPending) hg.out⟩
  · rw [hHold, postGuards_cfg]
    refine h.imp_right fun h => ?_
    rw [holdNow_congr (a := setLimit n v s.limits) _ hOf]
    exact (congrArg (fun c => holdNow c _) hCfg).trans h

/-! ## STALL and the rotation monitor (R184, R190 to R192) -/

/-- Everything but the Limit Supervisor's own part. -/
def Part.unlimited : Part → Bool := fun p => p != .limits

theorem unlimited_sequences : Sequences Part.unlimited := ⟨rfl, rfl, rfl, rfl, rfl, rfl⟩

theorem settleRamps_sameLimits (s : State) : SameLimits s.limits (settleRamps s).limits :=
  sameLimits_of_acts (P := Part.unlimited) (settleRamps_acts .refl unlimited_sequences) rfl

/-- A change of STALL to ACTIVE leaves a stopped stall timer stopped (R184). -/
theorem moveLimit_stallTimer {v : LimitState} {b : NoticeBody} {s : State} (hv : v ≠ .clear) (h : s.limits.stallTimer = none) :
    (moveLimit .stall v b s).limits.stallTimer = none := by
  have hNoted : (limitNoted .stall b (s.setLimits (setLimit .stall v s.limits))).limits = setLimit .stall v s.limits := by
    rw [limitNoted_eq]
    rfl
  have hPosted : (postGuards (limitNoted .stall b (s.setLimits (setLimit .stall v s.limits)))).limits.stallTimer = none
      ∧ (postGuards (limitNoted .stall b (s.setLimits (setLimit .stall v s.limits)))).limits.stall = v := by
    refine ⟨?_, ((postGuards_sameLimits _).stall).trans (congrArg (·.stall) hNoted)⟩
    unfold postGuards
    dsimp only
    split
    · rw [hNoted]; exact h
    · refine stallTimer_none_of_acts (P := Part.unlimited) (setGuards_acts _ .refl rfl rfl rfl) rfl ?_ ?_
      · exact fun hc => hv ((congrArg (·.stall) hNoted).symm.trans hc)
      · exact (congrArg (·.stallTimer) hNoted).trans h
  rw [moveLimit_eq]
  unfold followHold
  dsimp only
  split
  · exact stallTimer_none_of_acts (P := Part.unlimited) (startTest_acts .refl unlimited_sequences) rfl
      (fun hc => hv (hPosted.2.symm.trans hc)) hPosted.1
  · exact hPosted.1

/-- A filtered rotation pulse (R191, R192). -/
theorem rotationPulse_of_running {s : State} (h : s.limits.ring + 1 < s.cfg.limits.ppr) :
    rotationPulse s = s.setLimits { s.limits with
      stallTimer := s.limits.stallTimer.map fun _ => s.now + s.cfg.limits.tSTALL * 1000, ring := s.limits.ring + 1 } := by
  unfold rotationPulse
  dsimp only
  rw [if_pos h]
  cases s.limits.stallTimer <;> rfl

theorem rotationPulse_of_wrap {s : State} (h : s.cfg.limits.ppr ≤ s.limits.ring + 1) :
    rotationPulse s = s.setLimits { s.limits with
      stallTimer := s.limits.stallTimer.map fun _ => s.now + s.cfg.limits.tSTALL * 1000
      ring := 0, revCount := s.limits.revCount + 1, lastWrap := some s.now, revPeriod := wrapPeriod s.limits s.now } := by
  unfold rotationPulse
  dsimp only
  rw [if_neg (Nat.not_lt.2 h)]
  cases s.limits.stallTimer <;> rfl

/-- The filtered ROT level takes the pin's level (R190). -/
def rotTaken (s : State) : State := s.setLimits { s.limits with rotFiltered := s.rotPin, rotSince := none }

theorem rotChanges_of_pulse {s : State} (hPin : s.rotPin = true) (hFiltered : s.limits.rotFiltered = false) :
    rotChanges s = rotationPulse (rotTaken s) := if_pos (by simp [hPin, hFiltered])

theorem steadiness_eq (old level filtered : Bool) (since : Option Time) (now : Time) :
    steadiness old level filtered since now = if level = old then since else if level = filtered then none else some now :=
  ite_cond_congr (propext eq_comm)

theorem rotPinChange_eq (s : State) (level : Bool) : exec (.rotPinChange level) s = .next ((s.setRotPin level).setLimits { s.limits with
    rotSince := if level = s.rotPin then s.limits.rotSince else if level = s.limits.rotFiltered then none else some s.now }) := by
  rw [← steadiness_eq]
  rfl

theorem rotFilterDue_iff {s : State} :
    rotFilterDue s = true ↔ ∃ x, s.limits.rotSince = some x ∧ x + s.cfg.limits.rotFilter ≤ s.now := by
  unfold rotFilterDue
  rcases Option.eq_none_or_eq_some s.limits.rotSince with h | ⟨x, h⟩ <;> simp [h, aged]

/-- Settles O58: once STALL is ACTIVE nothing starts its timer, whatever the guards move. -/
theorem stallIsFoundAndRotationCounted : Obligations.StallIsFoundAndRotationCounted := by
  intro s
  refine ⟨fun h => congrArg Host.Outcome.next (if_neg (by rw [h]; decide)), ?found, rotPinChange_eq s, rotFilterDue_iff,
    fun h => congrArg Host.Outcome.next (if_neg (by rw [h]; decide)), ?steady, ?pulse⟩
  case found =>
    intro ⟨x, hx, hle⟩
    have hDue : stallDue s = true := by simp [stallDue, due, hx, hle]
    have hMoved : SameLimits _ (stallFound s).limits := moveLimit_sameLimits _ _ _ _
    have hSame := hMoved.trans (settleRamps_sameLimits (stallFound s))
    have hOf := hSame.limitOf
    refine ⟨settleRamps (stallFound s), congrArg Host.Outcome.next (if_pos hDue), hSame.stall, ?_, hSame.supplyLow, hSame.frostTrip,
      hSame.ring, hSame.revCount, ?_, ?_, ?_⟩
    · exact stallTimer_none_of_acts (P := Part.unlimited) (settleRamps_acts .refl unlimited_sequences) rfl
        (fun hc => by rw [hMoved.stall] at hc; cases hc) (moveLimit_stallTimer nofun rfl)
    · rw [combinedGuards_congr _ hOf]
      exact hSame.posted
    · rw [holdNow_congr _ hOf]
      exact hSame.hold
    · intro hPending hHold hRoom
      have hStands : LimitStands _ (stallFound s) := moveLimit_of_still (.inl hHold)
      have hStill : (limitNoted .stall (.limitTripped .stall s.cfg.limits.tSTALL .stallPeriod s.cfg.limits.stallAct)
          (s.setLimits { s.limits with stallTimer := none })).out = s.out := by
        rw [limitNoted_eq]; rfl
      rw [settleRamps_of_not_due (completionDue_of_not_pending (hStands.pending.trans
        ((congrArg (·.completionPending) hStill).trans hPending)))]
      refine ⟨hStands.seq.trans (by rw [limitNoted_eq]; rfl), hStands.claims.trans (by rw [limitNoted_eq]; rfl), ?_⟩
      unfold Posted
      rw [hStands.port]
      exact limitNoted_notices .stall _ (s := s.setLimits { s.limits with stallTimer := none }) hRoom
  case steady =>
    intro hDue hStill
    refine congrArg Host.Outcome.next ((if_pos hDue).trans (if_neg ?_))
    rcases hStill with h | h <;> simp [h]
  case pulse =>
    intro hDue hPin hFiltered
    refine ⟨fun h => congrArg Host.Outcome.next ((if_pos hDue).trans ?_), fun h => congrArg Host.Outcome.next ((if_pos hDue).trans ?_)⟩
    · rw [rotChanges_of_pulse hPin hFiltered, rotationPulse_of_running (s := rotTaken s) h]
      unfold rotTaken
      rw [hPin]
      rfl
    · rw [rotChanges_of_pulse hPin hFiltered, rotationPulse_of_wrap (s := rotTaken s) h]
      unfold rotTaken
      rw [hPin]
      rfl

end Sys2Proof.Machine
end

section
/-! PROOF. MEAS WRITE (O23), the judging of values against the limits (O24), and LIMIT CLEAR (O27). -/

namespace Sys2Proof.Machine

/-! ## What a limit says after a judgement (R181, R183, R187, R188) -/

/-- One limit has a state and the others keep theirs; where the state changed, the hold and the posted combination follow. -/
def Follows (c : Settings) (n : LimitName) (st : LimitState) (a b : Limits) : Prop :=
  limitOf b n = st ∧ (∀ k, k ≠ n → limitOf b k = limitOf a k)
    ∧ (st ≠ limitOf a n → b.hold = holdNow c b ∧ b.posted = combinedGuards c b)

section
variable {c : Settings} {n : LimitName} {st : LimitState} {a a' b b' : Limits}

theorem Follows.after (h : Follows c n st a b) (h' : SameLimits b b') : Follows c n st a b' := by
  obtain ⟨hState, hOthers, hMoved⟩ := h
  refine ⟨(h'.limitOf n).trans hState, fun k hk => (h'.limitOf k).trans (hOthers k hk), fun hst => ?_⟩
  rw [holdNow_congr c h'.limitOf, combinedGuards_congr c h'.limitOf, h'.hold, h'.posted]
  exact hMoved hst

theorem Follows.before (h : Follows c n st a b) (h' : ∀ k, limitOf a k = limitOf a' k) : Follows c n st a' b := by
  obtain ⟨hState, hOthers, hMoved⟩ := h
  exact ⟨hState, fun k hk => (hOthers k hk).trans (h' k), fun hst => hMoved (by rwa [h' n])⟩

theorem follows_of_still (h : st = limitOf a n) : Follows c n st a a :=
  ⟨h.symm, fun _ _ => rfl, fun hst => absurd h hst⟩

theorem follows_limitMoved (c : Settings) (n : LimitName) (st : LimitState) (a : Limits) : Follows c n st a (limitMoved c n st a) := by
  have hOf : ∀ k, limitOf (limitMoved c n st a) k = limitOf (setLimit n st a) k := fun k => by cases k <;> rfl
  refine ⟨(limitOf_limitMoved ..).trans (if_pos rfl), fun k hk => (limitOf_limitMoved ..).trans (if_neg hk), fun _ => ?_⟩
  rw [holdNow_congr c hOf, combinedGuards_congr c hOf]
  exact ⟨rfl, rfl⟩

end

section
variable {n : LimitName} {trip v v0 : Int} {src src0 : TripSource} {s : State}

theorem judge_of_clear (h : limitOf s.limits n = .clear) : judge n trip v src s =
    if v < trip then moveLimit n (.active v src) (.limitTripped n v src (actionOf s.cfg n)) s else s := by
  unfold judge
  simp only [h]

theorem judge_of_active (h : limitOf s.limits n = .active v0 src0) : judge n trip v src s =
    if trip + s.cfg.limits.limHyst ≤ v then moveLimit n .clear (.limitCleared n (.value v)) s else s := by
  unfold judge
  simp only [h]

/-- A judgement moves its limit to the state that R181 and R183 give, and no other. -/
theorem judge_follows (n : LimitName) (trip v : Int) (src : TripSource) (s : State) :
    Follows s.cfg n (judged (limitOf s.limits n) trip s.cfg.limits.limHyst v src) s.limits (judge n trip v src s).limits := by
  cases h : limitOf s.limits n with
  | clear =>
    rw [judge_of_clear h]
    unfold judged
    dsimp only
    split
    · exact (follows_limitMoved ..).after (moveLimit_sameLimits ..)
    · exact follows_of_still h.symm
  | active v0 src0 =>
    rw [judge_of_active h]
    unfold judged
    dsimp only
    split
    · exact (follows_limitMoved ..).after (moveLimit_sameLimits ..)
    · exact follows_of_still h.symm

end

/-! ## The last hold to clear (R188) -/

/-- The station after the last limit that held has cleared, before the start test. -/
def holdCleared (n : LimitName) (b : NoticeBody) (s : State) : State :=
  post b (s.setLimits { setLimit n .clear s.limits with hold := false })

theorem limitGuard_setLimit_of_hold {c : Settings} {n : LimitName} (hAct : actionOf c n = .hold) (v : LimitState) (l : Limits)
    (k : LimitName) (ch : Channel) : limitGuard c (setLimit n v l) k ch = limitGuard c l k ch := by
  by_cases hk : k = n
  · subst hk
    rw [limitGuard_of_unguarded (by rw [hAct]; rfl), limitGuard_of_unguarded (by rw [hAct]; rfl)]
  · unfold limitGuard
    rw [limitOf_setLimit, if_neg hk]

theorem combinedGuards_setLimit_of_hold {c : Settings} {n : LimitName} (hAct : actionOf c n = .hold) (v : LimitState) (l : Limits) :
    combinedGuards c (setLimit n v l) = combinedGuards c l := by
  simp only [combinedGuards, combinedGuard, limitGuard_setLimit_of_hold hAct]

theorem holdsBack_iff {c : Settings} {l : Limits} {k : LimitName} :
    holdsBack c l k = true ↔ limitOf l k ≠ .clear ∧ actionOf c k = .hold := by
  simp [holdsBack]

theorem holdNow_iff {c : Settings} {l : Limits} :
    holdNow c l = true ↔ ∃ k, limitOf l k ≠ .clear ∧ actionOf c k = .hold := by
  simp only [holdNow, Bool.or_eq_true, holdsBack_iff]
  constructor
  · rintro ((h | h) | h)
    · exact ⟨_, h⟩
    · exact ⟨_, h⟩
    · exact ⟨_, h⟩
  · rintro ⟨k, h⟩
    cases k
    · exact .inl (.inl h)
    · exact .inl (.inr h)
    · exact .inr h

theorem holdNow_setLimit_clear {c : Settings} {n : LimitName} {l : Limits}
    (h : ∀ k, k ≠ n → limitOf l k = .clear ∨ actionOf c k ≠ .hold) : holdNow c (setLimit n .clear l) = false := by
  rw [← Bool.not_eq_true, holdNow_iff]
  rintro ⟨k, hOf, hAct⟩
  rw [limitOf_setLimit] at hOf
  split at hOf
  · exact hOf rfl
  next hk => exact (h k hk).elim hOf fun h => h hAct

theorem moveLimit_of_lastHold {n : LimitName} {b : NoticeBody} {s : State} (hAct : actionOf s.cfg n = .hold)
    (hHold : s.limits.hold = true) (hOthers : ∀ k, k ≠ n → limitOf s.limits k = .clear ∨ actionOf s.cfg k ≠ .hold)
    (hPosted : s.limits.posted = combinedGuards s.cfg s.limits) :
    moveLimit n .clear b s = if running s then startTest (holdCleared n b s) else holdCleared n b s := by
  have hNoted : limitNoted n b (s.setLimits (setLimit n .clear s.limits)) = post b (s.setLimits (setLimit n .clear s.limits)) :=
    if_neg fun h : actionOf s.cfg n = .ignore => by rw [hAct] at h; cases h
  have hSetPosted : (setLimit n .clear s.limits).posted = s.limits.posted := by cases n <;> rfl
  have hSetHold : (setLimit n .clear s.limits).hold = true := by cases n <;> exact hHold
  have hGuards : postGuards (post b (s.setLimits (setLimit n .clear s.limits))) = post b (s.setLimits (setLimit n .clear s.limits)) := by
    refine if_pos ?_
    exact (combinedGuards_setLimit_of_hold hAct .clear s.limits).trans (hPosted.symm.trans hSetPosted.symm)
  have hNow : holdNow (post b (s.setLimits (setLimit n .clear s.limits))).cfg (post b (s.setLimits (setLimit n .clear s.limits))).limits
      = false := holdNow_setLimit_clear hOthers
  rw [moveLimit_eq, hNoted, hGuards]
  unfold followHold
  rw [hNow, show (post b (s.setLimits (setLimit n .clear s.limits))).limits.hold = true from hSetHold]
  rfl

/-! ## A reply, or a stall timer, beside a start test -/

/-- The station with its reply and its limits replaced. -/
def repliedWith (x : Option Reply) (l : Limits) (s : State) : State := (s.setPort { s.port with reply := x }).setLimits l

/-- The start of a transition does not depend on the reply nor on the stall timer. -/
theorem starts_repliedWith {m : Mode} {s t : State} (h : Starts m s t) (x : Option Reply) (l l' : Limits) :
    Starts m (repliedWith x l s) (repliedWith x l' t) := by
  obtain ⟨hClaiming, hWaiting, hRamping⟩ := h
  have hPort (hp : t.port = s.port) : (repliedWith x l' t).port = (repliedWith x l s).port :=
    congrArg (fun p : Port => { p with reply := x }) hp
  refine ⟨fun r hr hp => ?_, fun hb hm hw => ?_, fun hb hm ha => ?_⟩
  · obtain ⟨hSeq, hOut, hp', hRest⟩ := hClaiming r hr hp
    exact ⟨hSeq, hOut, hPort hp', hRest⟩
  · obtain ⟨hSeq, hOut, hClaims, hp'⟩ := hWaiting hb hm hw
    exact ⟨hSeq, hOut, hClaims, hPort hp'⟩
  · obtain ⟨hTo, hDue, hClaims, hp'⟩ := hRamping hb hm ha
    exact ⟨hTo, hDue, hClaims, hPort hp'⟩

/-! ## MEAS WRITE (R204) -/

section
variable {s : State}

theorem measWrite_of_closed (h : s.port.closed = true) (ch : MeasChannel) (v : Option Int) :
    exec (.measWrite (some ch) v) s = .next (writeMeas ch v s) := congrArg Host.Outcome.next (admitClosed_of_closed h _)

/-- A stored value is judged, and the ramp completions follow. -/
theorem writeMeas_value (ch : MeasChannel) (v : Int) (s : State) : writeMeas ch (some v) s =
    reply (okOrClamped (measClamp ch v != v)) .none (settleRamps (afterValue ch (measClamp ch v) (storeValue ch v s))) := rfl

theorem storeValue_completionDue (ch : MeasChannel) (v : Int) (hs : completionDue s = false) :
    completionDue (storeValue ch v s) = false := (completionDue_congr rfl rfl).trans hs

theorem measClamp_reply (ch : MeasChannel) (v : Int) : okOrClamped (measClamp ch v != v)
    = if (measRange ch).1 ≤ v ∧ v ≤ (measRange ch).2 then .ok else .clamped := okOrClamped_eq _ _ (clampInt_ne_iff v)

theorem writeMeas_of_unjudged {ch : MeasChannel} (hSupply : ch ≠ .supplyT) (hExhaust : ch ≠ .exhaustT) (hs : completionDue s = false)
    (v : Int) : writeMeas ch (some v) s = reply (okOrClamped (measClamp ch v != v)) .none (storeValue ch v s) := by
  rw [writeMeas_value]
  have hAfter : afterValue ch (measClamp ch v) (storeValue ch v s) = storeValue ch v s := by
    cases ch <;> first | rfl | exact absurd rfl hSupply | exact absurd rfl hExhaust
  rw [hAfter, settleRamps_of_not_due (storeValue_completionDue ch v hs)]

/-- The parts that the judging of a value may change. -/
def Part.judging : Part → Bool := fun p => p != .peers && p != .band && p != .decision && p != .meas && p != .reply

theorem judging_supervises : Supervises Part.judging := ⟨⟨rfl, rfl, rfl, rfl, rfl, rfl⟩, rfl, rfl⟩

theorem afterValue_judging (ch : MeasChannel) (w : Int) (s : State) : Acts Part.judging s (settleRamps (afterValue ch w s)) := by
  refine settleRamps_acts ?_ judging_supervises.toSequences
  cases ch
  case supplyT => exact judge_acts _ _ _ _ .refl judging_supervises
  case exhaustT => exact judge_acts _ _ _ _ .refl judging_supervises
  all_goals exact .refl

/-- MEAS WRITE of a value to a channel of a range (R204). -/
theorem measWrite_value (hClosed : s.port.closed = true) (hs : completionDue s = false) {ch : MeasChannel} {lo hi : Int}
    (hRange : measRange ch = (lo, hi)) (v : Int) :
    let w := clampInt lo hi v
    let st : ReplyStatus := if lo ≤ v ∧ v ≤ hi then .ok else .clamped
    let m := setMeas s.port.meas ch { value := some w, arrival := some s.now, clamped := decide (w ≠ v), lapsed := false }
    (ch ≠ .supplyT → ch ≠ .exhaustT →
        exec (.measWrite (some ch) (some v)) s = .next (s.setPort { s.port with meas := m, reply := some ⟨st, .none⟩ }))
      ∧ ∃ t, exec (.measWrite (some ch) (some v)) s = .next t ∧ t.port.meas = m ∧ t.port.reply = some ⟨st, .none⟩
          ∧ t.peers = s.peers ∧ t.band = s.band ∧ t.decision = s.decision := by
  have hReply := measClamp_reply ch v
  have hClamp : measClamp ch v = clampInt (measRange ch).1 (measRange ch).2 v := rfl
  rw [hRange] at hReply hClamp
  have hBne : (measClamp ch v != v) = decide (measClamp ch v ≠ v) := by rw [Bool.eq_iff_iff, bne_iff_ne, decide_eq_true_iff]
  have hMeas : (storeValue ch v s).port.meas = setMeas s.port.meas ch
      { value := some (measClamp ch v), arrival := some s.now, clamped := decide (measClamp ch v ≠ v), lapsed := false } := by
    rw [← hBne]; rfl
  have hActs := afterValue_judging ch (measClamp ch v) (storeValue ch v s)
  dsimp only
  rw [← hClamp, ← hMeas, ← hReply]
  refine ⟨fun hSupply hExhaust => ?_, writeMeas ch (some v) s, measWrite_of_closed hClosed ch _, hActs.meas_eq rfl, rfl,
    hActs.peers_eq rfl, hActs.band_eq rfl, hActs.decision_eq rfl⟩
  rw [measWrite_of_closed hClosed, writeMeas_of_unjudged hSupply hExhaust hs]
  rfl

theorem measRange_eq (ch : MeasChannel) : measRange ch =
    (if ch = .returnW ∨ ch = .probeW then 0 else -500, if ch = .returnW ∨ ch = .probeW then 300 else 600) := by
  cases ch <;> rfl

end

/-- Settles O23: a stored value reaches the other blocks through the limits alone. -/
theorem measurementWriteStoresTheChannel : Obligations.MeasurementWriteStoresTheChannel := by
  intro s hClosed hs
  refine ⟨fun v => congrArg Host.Outcome.next (admitClosed_of_closed hClosed _),
    fun ch v => measWrite_value hClosed hs (measRange_eq ch) v, fun ch => ?none, fun ch ch' x => measOf_setMeas _ ch ch' x⟩
  case none =>
    have hRunning (hRun : s.port.restarting = false) : running s = true := running_iff.2 ⟨hClosed, hRun⟩
    refine ⟨fun h => ?_, fun h hRun => ?_⟩
    · rw [measWrite_of_closed hClosed]
      by_cases hProbe : ch = .probeT ∨ ch = .probeW
      · have hWait : s.port.restarting = true := h.resolve_left fun hn => hProbe.elim hn.1 hn.2
        have hVerdict : clearVerdict (storeNone ch s) = storeNone ch s := if_neg fun hr => by
          have := (running_iff.1 hr).2
          rw [show (storeNone ch s).port.restarting = true from hWait] at this
          cases this
        rcases hProbe with rfl | rfl
        · exact congrArg (fun u => Host.Outcome.next (replyOk u)) hVerdict
        · exact congrArg (fun u => Host.Outcome.next (replyOk u)) hVerdict
      · cases ch <;> first | rfl | exact absurd (.inl rfl) hProbe | exact absurd (.inr rfl) hProbe
    · rw [measWrite_of_closed hClosed]
      have hVerdict : clearVerdict (storeNone ch s) = (storeNone ch s).setBand { s.band with disagree := false, counter := 0 } :=
        if_pos (hRunning hRun)
      rcases h with rfl | rfl
      · exact congrArg (fun u => Host.Outcome.next (replyOk u)) hVerdict
      · exact congrArg (fun u => Host.Outcome.next (replyOk u)) hVerdict

/-! ## Values judged (R181 to R183) -/

section
variable {s : State}

theorem settled_judge_follows (n : LimitName) (trip v : Int) (src : TripSource) (s : State) :
    Follows s.cfg n (judged (limitOf s.limits n) trip s.cfg.limits.limHyst v src) s.limits (settleRamps (judge n trip v src s)).limits :=
  (judge_follows n trip v src s).after (settleRamps_sameLimits _)

theorem takeEstimate_of_fresh (h : s.decision.last.tX = none ∨ fresh s .exhaustT = true) : takeEstimate s = s := by
  unfold takeEstimate
  split
  · rfl
  next x hx => exact if_pos (h.resolve_left fun hn => by cases hn.symm.trans hx)

theorem takeEstimate_of_stale {x : Int} (hx : s.decision.last.tX = some x) (hf : fresh s .exhaustT = false) :
    takeEstimate s = judgeFrost x .estimate s := by
  simp [takeEstimate, hx, hf]

/-- A judgement that moves its limit without clearing the hold gives its notice and leaves the rest of the port. -/
theorem settled_moveLimit_port {n : LimitName} {v : LimitState} {b : NoticeBody} (hPending : s.out.completionPending = false)
    (hHold : s.limits.hold = false) : (settleRamps (moveLimit n v b s)).port = (limitNoted n b s).port := by
  have hStands := moveLimit_of_still (n := n) (v := v) (b := b) (.inl hHold)
  have hOut : (limitNoted n b s).out = s.out := by rw [limitNoted_eq]; rfl
  rw [settleRamps_of_not_due (completionDue_of_not_pending (hStands.pending.trans (by rw [hOut]; exact hPending)))]
  exact hStands.port

/-- A value that clears the last limit that held (R188, R195). -/
theorem settled_judge_lastHold {n : LimitName} {trip v : Int} {src : TripSource} (hActive : limitOf s.limits n ≠ .clear)
    (hValue : trip + s.cfg.limits.limHyst ≤ v) (hAct : actionOf s.cfg n = .hold) (hHold : s.limits.hold = true)
    (hOthers : ∀ k, k ≠ n → limitOf s.limits k = .clear ∨ actionOf s.cfg k ≠ .hold)
    (hPosted : s.limits.posted = combinedGuards s.cfg s.limits) (hs : completionDue s = false) :
    (running s = false → settleRamps (judge n trip v src s) = holdCleared n (.limitCleared n (.value v)) s)
      ∧ (running s = true → StartTested (holdCleared n (.limitCleared n (.value v)) s) (settleRamps (judge n trip v src s))) := by
  have hDue : completionDue (holdCleared n (.limitCleared n (.value v)) s) = false := (completionDue_congr rfl rfl).trans hs
  cases h : limitOf s.limits n with
  | clear => exact absurd h hActive
  | active v0 src0 =>
    rw [judge_of_active h, if_pos hValue, moveLimit_of_lastHold hAct hHold hOthers hPosted]
    refine ⟨fun hr => ?_, fun hr => ?_⟩
    · rw [if_neg (by rw [hr]; decide), settleRamps_of_not_due hDue]
    · rw [if_pos hr]
      exact settled_startTest hDue

/-- The start test does not depend on the reply. -/
theorem startTested_replied {s t : State} (h : StartTested s t) (x : Option Reply) :
    StartTested (s.setPort { s.port with reply := x }) (t.setPort { t.port with reply := x }) :=
  ⟨fun hNone => congrArg (fun u : State => u.setPort { u.port with reply := x }) (h.1 hNone),
    fun m hp => starts_repliedWith (h.2 m hp) x s.limits t.limits⟩

/-- The value as a channel of the range −500..600 stores it, with its reply. -/
theorem judged_storeValue {ch : MeasChannel} (hRange : measRange ch = (-500, 600)) (v : Int) (s : State) :
    let w := clampInt (-500) 600 v
    measClamp ch v = w
      ∧ (storeValue ch v s).port.meas = setMeas s.port.meas ch {
          value := some w, arrival := some s.now, clamped := decide (w ≠ v), lapsed := false }
      ∧ okOrClamped (measClamp ch v != v) = if w = v then .ok else .clamped := by
  have hClamp : measClamp ch v = clampInt (-500) 600 v := by unfold measClamp; rw [hRange]
  have hBne : (measClamp ch v != v) = decide (measClamp ch v ≠ v) := by rw [Bool.eq_iff_iff, bne_iff_ne, decide_eq_true_iff]
  dsimp only
  rw [← hClamp]
  refine ⟨rfl, by rw [← hBne]; rfl, okOrClamped_eq _ _ bne_iff_ne⟩

end

/-- The Limit Supervisor before an evaluation's hand-offs is as it stood (R25). -/
theorem handOff_follows {s r : State} (hLimits : r.limits = s.limits) (hCfg : r.cfg = s.cfg) (hNow : r.now = s.now)
    (hMeas : r.port.meas = s.port.meas) :
    let t := unordered handToSequencer handToLimits r
    (∀ x, t.decision.last.tX = some x → fresh s .exhaustT = false →
        Follows s.cfg .frostTrip (judged s.limits.frostTrip s.cfg.limits.tFrostTrip s.cfg.limits.limHyst x .estimate) s.limits t.limits)
      ∧ (t.decision.last.tX = none ∨ fresh s .exhaustT = true → ∀ n, limitOf t.limits n = limitOf s.limits n) := by
  have hDecision : (unordered handToSequencer handToLimits r).decision = r.decision := (handOff_acts r).decision_eq rfl
  -- What either order hands to the Limit Supervisor: the limits, the record and the store as they stood.
  have hHand (u : State) (hu : Acts Part.handed r u) (hSame : SameLimits s.limits u.limits) :
      (∀ x, r.decision.last.tX = some x → fresh s .exhaustT = false → Follows s.cfg .frostTrip
          (judged s.limits.frostTrip s.cfg.limits.tFrostTrip s.cfg.limits.limHyst x .estimate) s.limits (handToLimits u).limits)
        ∧ (r.decision.last.tX = none ∨ fresh s .exhaustT = true → SameLimits s.limits (handToLimits u).limits) := by
    have huDecision : u.decision = r.decision := hu.decision_eq rfl
    have huCfg : u.cfg = s.cfg := hu.cfg.trans hCfg
    have huFresh : fresh u .exhaustT = fresh s .exhaustT :=
      fresh_congr ((hu.meas_eq rfl).trans hMeas) huCfg (hu.now.trans hNow) _
    refine ⟨fun x hx hf => ?_, fun h => ?_⟩
    · have hTaken : takeEstimate u = judge .frostTrip s.cfg.limits.tFrostTrip x .estimate u := by
        rw [takeEstimate_of_stale (by rw [huDecision]; exact hx) (huFresh.trans hf), judgeFrost, huCfg]
      have hFollows := settled_judge_follows .frostTrip s.cfg.limits.tFrostTrip x .estimate u
      unfold handToLimits
      rw [hTaken]
      rw [huCfg] at hFollows
      have hOld : limitOf u.limits .frostTrip = s.limits.frostTrip := hSame.frostTrip
      rw [hOld] at hFollows
      exact hFollows.before hSame.limitOf
    · unfold handToLimits
      rw [takeEstimate_of_fresh (by rw [huDecision, huFresh]; exact h)]
      exact hSame.trans (settleRamps_sameLimits u)
  have hSequencer (u : State) : SameLimits u.limits (handToSequencer u).limits :=
    sameLimits_of_acts (P := Part.unlimited) (handToSequencer_acts .refl unlimited_sequences) rfl
  have hActs : Acts Part.handed r (handToSequencer r) := handToSequencer_acts .refl handed_supervises.toSequences
  have hStart : SameLimits s.limits r.limits := by rw [hLimits]; exact .refl _
  dsimp only
  rw [hDecision]
  obtain ⟨n, h | h⟩ := unordered_cases handToSequencer handToLimits r
  · obtain ⟨hStale, hFresh⟩ := hHand (handToSequencer r) hActs (hStart.trans (hSequencer r))
    rw [h]
    exact ⟨hStale, fun hf => (hFresh hf).limitOf⟩
  · obtain ⟨hStale, hFresh⟩ := hHand r .refl hStart
    rw [h]
    exact ⟨fun x hx hf => (hStale x hx hf).after (hSequencer _), fun hf => ((hFresh hf).trans (hSequencer _)).limitOf⟩

/-- Settles O24: each value reaches its limit through one judgement; the rest of the event leaves the limits' states alone. -/
theorem limitsAreJudgedOnValues : Obligations.LimitsAreJudgedOnValues := by
  intro s
  refine ⟨fun hClosed hs => ⟨fun v => ⟨_, measWrite_of_closed hClosed .supplyT (some v), ?supply⟩,
    fun v => ⟨_, measWrite_of_closed hClosed .exhaustT (some v), ?exhaust⟩, fun v t ht hClear hLow hPending hHold hRoom => ?tripped,
    fun v v0 src t ht hActive hHigh hPending hHold hRoom => ?cleared,
    fun n ch trip v hn hActive hValue hAct hHold hOthers hPosted => ?lastHold⟩,
    fun x hx hf => ?estimate, fun h => takeEstimate_of_fresh h, fun hClosed hRun hTimer => ?evaluated⟩
  case supply => exact settled_judge_follows .supplyLow s.cfg.limits.tSupLow _ .supplyT (storeValue .supplyT v s)
  case exhaust => exact settled_judge_follows .frostTrip s.cfg.limits.tFrostTrip _ .exhaustT (storeValue .exhaustT v s)
  case tripped =>
    rw [measWrite_of_closed hClosed] at ht
    cases ht
    have hJudge : afterValue .supplyT (measClamp .supplyT v) (storeValue .supplyT v s) = _ :=
      judge_of_clear (n := .supplyLow) (s := storeValue .supplyT v s) hClear
    have hMoved := hJudge.trans (if_pos hLow)
    rw [writeMeas_value, hMoved]
    unfold Posted
    rw [show ∀ u : State, (reply (okOrClamped (measClamp .supplyT v != v)) .none u).port.notices = u.port.notices from fun _ => rfl,
      settled_moveLimit_port (s := storeValue .supplyT v s) hPending hHold]
    exact limitNoted_notices .supplyLow _ (s := storeValue .supplyT v s) hRoom
  case cleared =>
    rw [measWrite_of_closed hClosed] at ht
    cases ht
    have hJudge : afterValue .exhaustT (measClamp .exhaustT v) (storeValue .exhaustT v s) = _ :=
      judge_of_active (n := .frostTrip) (s := storeValue .exhaustT v s) hActive
    have hMoved := hJudge.trans (if_pos hHigh)
    rw [writeMeas_value, hMoved]
    unfold Posted
    rw [show ∀ u : State, (reply (okOrClamped (measClamp .exhaustT v != v)) .none u).port.notices = u.port.notices from fun _ => rfl,
      settled_moveLimit_port (s := storeValue .exhaustT v s) hPending hHold]
    exact limitNoted_notices .frostTrip _ (s := storeValue .exhaustT v s) hRoom
  case lastHold =>
    have hRange : measRange ch = (-500, 600) := by
      rcases hn with h | h <;> cases h <;> rfl
    have hAfter (u : State) (w : Int) (hu : u.cfg = s.cfg) : ∃ src, afterValue ch w u = judge n trip w src u := by
      rcases hn with h | h <;> cases h
      · exact ⟨.supplyT, by rw [← hu]; rfl⟩
      · exact ⟨.exhaustT, by rw [← hu]; rfl⟩
    obtain ⟨hClamp, hMeas, hReply⟩ := judged_storeValue hRange v s
    obtain ⟨src, hSrc⟩ := hAfter (storeValue ch v s) (measClamp ch v) rfl
    have hValue' : trip + s.cfg.limits.limHyst ≤ measClamp ch v := by rw [hClamp]; exact hValue
    obtain ⟨hWaits, hRuns⟩ := settled_judge_lastHold (s := storeValue ch v s) (src := src) hActive hValue' hAct hHold hOthers hPosted
      (storeValue_completionDue ch v hs)
    have hCleared : (holdCleared n (.limitCleared n (.value (clampInt (-500) 600 v))) (storeValue ch v s)).setPort
        { (holdCleared n (.limitCleared n (.value (clampInt (-500) 600 v))) (storeValue ch v s)).port with
          reply := some ⟨if clampInt (-500) 600 v = v then .ok else .clamped, .none⟩ }
      = post (.limitCleared n (.value (clampInt (-500) 600 v))) ((s.setPort { s.port with
          meas := (storeValue ch v s).port.meas
          reply := some ⟨if clampInt (-500) 600 v = v then .ok else .clamped, .none⟩ }).setLimits
        { setLimit n .clear s.limits with hold := false }) := rfl
    refine ⟨_, measWrite_of_closed hClosed ch _, fun hWait => ?_, fun hRun => ?_⟩
    · have hNot : running (storeValue ch v s) = false := by
        rw [← Bool.not_eq_true]
        exact fun hr => by rw [show s.port.restarting = false from (running_iff.1 hr).2] at hWait; cases hWait
      rw [writeMeas_value, hSrc, hWaits hNot, hReply, hClamp]
      rw [hMeas] at hCleared
      exact hCleared
    · have hTested := startTested_replied (hRuns (running_iff.2 ⟨hClosed, hRun⟩))
        (some ⟨if clampInt (-500) 600 v = v then .ok else .clamped, .none⟩)
      rw [writeMeas_value, hSrc, hReply]
      rw [hClamp] at hTested ⊢
      rw [hCleared, hMeas] at hTested
      exact hTested
  case estimate =>
    rw [takeEstimate_of_stale hx hf]
    exact judge_follows .frostTrip s.cfg.limits.tFrostTrip x .estimate s
  case evaluated =>
    obtain ⟨x, hx, hle⟩ := hTimer
    have hDue : evalDue s = true := by simp [evalDue, running, hClosed, hRun, due, hx, hle]
    have hActs : Acts (fun p => p == .band || p == .notices || p == .decision) (s.setDecision { s.decision with timer := evalFromNow s })
        (makeRecord (s.setDecision { s.decision with timer := evalFromNow s })) := makeRecord_acts .refl rfl rfl rfl
    exact ⟨_, congrArg Host.Outcome.next (if_pos hDue),
      handOff_follows (s := s) (hActs.limits_all_eq rfl rfl) hActs.cfg hActs.now (hActs.meas_eq rfl)⟩

end Sys2Proof.Machine
end

section
/-! PROOF. The start test where a hold clears, and where a dwell, a DEFROST cycle or a follow wait expires (O27, O45, O46). -/

namespace Sys2Proof.Machine

/-! ## LIMIT CLEAR (R185, R188) -/

/-- The stall timer starts where the wheel runs (R185). -/
def stallRestarted (s : State) : State :=
  if s.out.wheelRun then s.setLimits { s.limits with stallTimer := stallFromNow s } else s

theorem clearStall_eq (s : State) : clearStall s = stallRestarted (moveLimit .stall .clear (.limitCleared .stall .command) s) := rfl

theorem stallRestarted_eq (s : State) : ∃ x, stallRestarted s = s.setLimits { s.limits with stallTimer := x } := by
  unfold stallRestarted
  split
  · exact ⟨_, rfl⟩
  · exact ⟨s.limits.stallTimer, rfl⟩

theorem stallRestarted_sameLimits (s : State) : SameLimits s.limits (stallRestarted s).limits := by
  obtain ⟨x, hx⟩ := stallRestarted_eq s
  rw [hx]
  rfl

theorem stallRestarted_sameStart (s : State) : SameStart s (stallRestarted s) := by
  obtain ⟨x, hx⟩ := stallRestarted_eq s
  rw [hx]
  exact ⟨rfl, rfl, rfl, rfl, rfl⟩

theorem stallRestarted_completionDue (s : State) : completionDue (stallRestarted s) = completionDue s :=
  completionDue_congr (congrArg Port.cfg (stallRestarted_sameStart s).port) (stallRestarted_sameStart s).out

theorem limitClear_of_running {s : State} (hClosed : s.port.closed = true) (hRun : s.port.restarting = false) :
    exec .limitClear s = .next (if s.limits.stall = .clear then refuse .notLatched s else replyOk (settleRamps (clearStall s))) :=
  congrArg Host.Outcome.next (admitOperating_of_running hClosed hRun _)

/-- LIMIT CLEAR where STALL was the last limit that held (R185, R188): the start test is made of the station with its reply and its
stall timer as they will stand. -/
theorem limitClear_startTested {s : State} (hRunning : running s = true) (hAct : s.cfg.limits.stallAct = .hold)
    (hHold : s.limits.hold = true) (hOthers : ∀ k, k ≠ .stall → limitOf s.limits k = .clear ∨ actionOf s.cfg k ≠ .hold)
    (hPosted : s.limits.posted = combinedGuards s.cfg s.limits) (hs : completionDue s = false) :
    StartTested (repliedWith (some ⟨.ok, .none⟩) (stallRestarted (holdCleared .stall (.limitCleared .stall .command) s)).limits
      (holdCleared .stall (.limitCleared .stall .command) s)) (replyOk (settleRamps (clearStall s))) := by
  have hDue : completionDue (holdCleared .stall (.limitCleared .stall .command) s) = false := (completionDue_congr rfl rfl).trans hs
  rw [clearStall_eq, moveLimit_of_lastHold (n := .stall) hAct hHold hOthers hPosted, if_pos hRunning]
  generalize hU : holdCleared .stall (.limitCleared .stall .command) s = u at hDue ⊢
  have hSettled (h : completionDue (startTest u) = false) : settleRamps (stallRestarted (startTest u)) = stallRestarted (startTest u) :=
    settleRamps_of_not_due ((stallRestarted_completionDue _).trans h)
  refine ⟨fun hNone => ?_, fun m ⟨hp, hc, hm, hb⟩ => ?_⟩
  · have hSelf : startTest u = u := startTest_eq_self fun m hm => by
      refine Classical.byContradiction fun hNot => ?_
      simp only [not_or, Classical.not_not, Bool.not_eq_true] at hNot
      exact hNone m ⟨hNot.1, hm, hNot.2.1, (by
        obtain ⟨x, hx⟩ := stallRestarted_eq u
        rw [hx]
        exact hNot.2.2)⟩
    rw [hSettled (by rw [hSelf]; exact hDue), hSelf]
    obtain ⟨x, hx⟩ := stallRestarted_eq u
    rw [hx]
    rfl
  · have hb' : blocked u m = false := by
      obtain ⟨x, hx⟩ := stallRestarted_eq u
      rw [hx] at hb
      exact hb
    have hTest : startTest u = beginTransition m false u := startTest_of_passed hp hc hm hb'
    have hStarts : Starts m u (settleRamps (stallRestarted (startTest u))) := by
      refine beginTransition_starts hDue (not_clashed_of_not_blocked hb') fun h => ?_
      rw [← hTest] at h ⊢
      rw [hSettled h]
      exact stallRestarted_sameStart _
    exact starts_repliedWith hStarts _ _ _

/-- Settles O27: the stall timer and the reply stand beside the start test that the end of the hold brings. -/
theorem limitClearUnlatchesStall : Obligations.LimitClearUnlatchesStall := by
  intro s hClosed hRun
  have hRunning : running s = true := running_iff.2 ⟨hClosed, hRun⟩
  have hExec := limitClear_of_running hClosed hRun
  refine ⟨fun h => hExec.trans (congrArg Host.Outcome.next (if_pos h)), fun h => ?cleared, fun h hAct hHold hNone hPosted hs => ?last⟩
  case cleared =>
    have hMoved := (moveLimit_sameLimits .stall .clear (.limitCleared .stall .command) s).trans (stallRestarted_sameLimits _)
    have hSame := hMoved.trans (settleRamps_sameLimits (clearStall s))
    have hOf := hSame.limitOf
    refine ⟨replyOk (settleRamps (clearStall s)), hExec.trans (congrArg Host.Outcome.next (if_neg h)), rfl, hSame.stall, hSame.supplyLow,
      hSame.frostTrip, ?_, ?_, hSame.ring, hSame.revCount, hSame.revPeriod, fun hPending hHold => ?_⟩
    · exact hSame.posted.trans (combinedGuards_congr _ hOf).symm
    · exact hSame.hold.trans (holdNow_congr _ hOf).symm
    · have hStands : LimitStands _ (moveLimit .stall .clear (.limitCleared .stall .command) s) := moveLimit_of_still <| by
        refine hHold.imp_right fun ⟨k, hk, hOf, hAct⟩ => ?_
        refine holdNow_iff.2 ⟨k, ?_, hAct⟩
        rw [limitOf_setLimit, if_neg hk]
        exact hOf
      have hStart := stallRestarted_sameStart (moveLimit .stall .clear (.limitCleared .stall .command) s)
      have hDue : completionDue (clearStall s) = false := completionDue_of_not_pending (by
        rw [clearStall_eq, hStart.out, hStands.pending, limitNoted_eq]
        exact hPending)
      rw [settleRamps_of_not_due hDue]
      refine ⟨hStart.seq.trans (hStands.seq.trans (by rw [limitNoted_eq]; rfl)),
        hStart.claims.trans (hStands.claims.trans (by rw [limitNoted_eq]; rfl)),
        hStart.link.trans (hStands.link.trans (by rw [limitNoted_eq]; rfl)), fun hWheel => ?_, fun hRoom => ?_⟩
      · have hOn : (moveLimit .stall .clear (.limitCleared .stall .command) s).out.wheelRun = true := by
          rw [← hStart.out]
          exact hWheel
        have hNow : (moveLimit .stall .clear (.limitCleared .stall .command) s).now = s.now :=
          hStands.now.trans (by rw [limitNoted_eq]; rfl)
        have hCfg : (moveLimit .stall .clear (.limitCleared .stall .command) s).cfg = s.cfg := by
          refine (congrArg Port.cfg hStands.port).trans ?_
          unfold limitNoted
          split <;> rfl
        show (stallRestarted _).limits.stallTimer = _
        unfold stallRestarted
        rw [if_pos hOn]
        show stallFromNow _ = _
        rw [stallFromNow, hNow, hCfg]
        rfl
      · have hPort : (clearStall s).port = (limitNoted .stall (.limitCleared .stall .command) s).port := hStart.port.trans hStands.port
        have hNotices : (replyOk (clearStall s)).port.notices = (limitNoted .stall (.limitCleared .stall .command) s).port.notices :=
          show (clearStall s).port.notices = _ from congrArg Port.notices hPort
        unfold Posted
        rw [hNotices]
        exact limitNoted_notices .stall _ hRoom
  case last =>
    have hOthers (k : LimitName) (hk : k ≠ .stall) : limitOf s.limits k = .clear ∨ actionOf s.cfg k ≠ .hold := by
      refine Classical.byContradiction fun hNot => ?_
      simp only [not_or, Classical.not_not] at hNot
      exact hNone ⟨k, hk, hNot.1, hNot.2⟩
    refine ⟨_, hExec.trans (congrArg Host.Outcome.next (if_neg h)), ?_⟩
    have hTested := limitClear_startTested hRunning hAct hHold hOthers hPosted hs
    have hCleared : repliedWith (some ⟨.ok, .none⟩) (stallRestarted (holdCleared .stall (.limitCleared .stall .command) s)).limits
        (holdCleared .stall (.limitCleared .stall .command) s) = post (.limitCleared .stall .command)
          ((s.setPort { s.port with reply := some ⟨.ok, .none⟩ }).setLimits { s.limits with
            stall := .clear, hold := false
            stallTimer := if s.out.wheelRun = true then some (s.now + s.cfg.limits.tSTALL * 1000) else s.limits.stallTimer }) := by
      unfold stallRestarted
      by_cases hWheel : s.out.wheelRun = true
      · rw [if_pos (show (holdCleared .stall _ s).out.wheelRun = true from hWheel), if_pos hWheel]
        rfl
      · rw [if_neg (show ¬(holdCleared .stall _ s).out.wheelRun = true from hWheel), if_neg hWheel]
        rfl
    rw [hCleared] at hTested
    exact hTested

/-! ## The blocks, the desire and the demand sets of a transition (R30, R32, R39) -/

theorem dwelling_iff {s : State} :
    dwelling s = true ↔ ∃ x, s.seq.dwellStart = some x ∧ s.now < x + s.cfg.decision.tDWELL * 1000 := by
  unfold dwelling
  rcases Option.eq_none_or_eq_some s.seq.dwellStart with h | ⟨x, h⟩
  · simp [h]
  · simp only [h, aged, secs, Bool.not_eq_true', Option.some.injEq, exists_eq_left']
    exact decide_eq_false_iff_not.trans Nat.not_le

theorem starvedFor_iff {s : State} {m : Mode} : starvedFor s m = true ↔
    (m = .free ∧ (procOf s .relief).state = .starved) ∨ (m = .defrost ∧ (procOf s .defrost).state = .starved) := by
  cases m <;> simp [starvedFor, claimFor]

theorem isolatedFor_iff {s : State} {m : Mode} : isolatedFor s m = true ↔
    (m = .free ∨ m = .defrost) ∧ (s.link.state = .offline ∨ s.link.state = .clashed) := by
  unfold isolatedFor
  rw [Bool.and_eq_true, isolated_iff]
  cases m <;> simp [claimFor]

theorem blocked_iff (s : State) (m : Mode) : blocked s m = true ↔ m ≠ .safe
    ∧ (s.limits.hold = true
      ∨ ((∃ x, s.seq.dwellStart = some x ∧ s.now < x + s.cfg.decision.tDWELL * 1000) ∧ (m ≠ .defrost ∨ s.seq.mode = some .defrost))
      ∨ (s.seq.mode = some .defrost ∧ s.seq.defrostExpired = false)
      ∨ (m = .free ∧ (procOf s .relief).state = .starved) ∨ (m = .defrost ∧ (procOf s .defrost).state = .starved)
      ∨ ((m = .free ∨ m = .defrost) ∧ (s.link.state = .offline ∨ s.link.state = .clashed))) := by
  have hOr : ∀ a b c d e : Prop, a ∨ b ∨ c ∨ d ∨ e ↔ (((a ∨ b) ∨ c) ∨ d) ∨ e := fun a b c d e => by simp only [or_assoc]
  rw [← dwelling_iff, ← isolatedFor_iff, ← or_assoc (a := m = .free ∧ _), ← starvedFor_iff, hOr]
  simp only [blocked, Bool.and_eq_true, Bool.or_eq_true, bne_iff_ne, decide_eq_true_eq, Bool.not_eq_true']

theorem confirmed_iff (s : State) (m : Mode) : confirmed s = some m ↔ s.seq.candidate = some m
    ∧ (if m = .safe ∨ m = .defrost then 1 else s.cfg.decision.confirm) ≤ s.seq.count := by
  have hNeed : ∀ k, confirmNeed s.cfg k = if k = .safe ∨ k = .defrost then 1 else s.cfg.decision.confirm := fun k => by
    unfold confirmNeed
    simp only [Bool.or_eq_true, decide_eq_true_eq]
  rw [← hNeed]
  unfold confirmed
  rcases Option.eq_none_or_eq_some s.seq.candidate with h | ⟨k, h⟩
  · simp [h]
  · simp only [h]
    constructor
    · intro hk
      split at hk
      next hCount =>
        cases hk
        exact ⟨rfl, hCount⟩
      next => cases hk
    · rintro ⟨hk, hCount⟩
      cases hk
      exact if_pos hCount

theorem rampSet_recover {c : Settings} {e : EvalRecord} {v : Nat} (h : e.speed = some v) :
    rampSet c e .recover = ⟨c.outputs.oaMin, 0, if e.frostRisk = true ∧ c.decision.frostCap < v then c.decision.frostCap else v⟩ := by
  have hCap : (if e.frostRisk then min v c.decision.frostCap else v)
      = if e.frostRisk = true ∧ c.decision.frostCap < v then c.decision.frostCap else v := by
    by_cases hRisk : e.frostRisk = true
    · by_cases hLow : c.decision.frostCap < v
      · rw [if_pos hRisk, if_pos ⟨hRisk, hLow⟩, Nat.min_eq_right (Nat.le_of_lt hLow)]
      · rw [if_pos hRisk, if_neg fun hn => hLow hn.2, Nat.min_eq_left (Nat.le_of_not_lt hLow)]
    · rw [if_neg hRisk, if_neg fun hn => hRisk hn.1]
  simp only [rampSet, h, hCap]

/-! ## The wait set (R36) -/

/-- A list sorted by a test stands in any order that the test decides between its entries. -/
theorem sortBy_pairwise {α : Type} {before : α → α → Bool} {le : α → α → Prop} {S : α → Prop}
    (hBefore : ∀ a b, S a → S b → before a b = true → le a b) (hAfter : ∀ a b, S a → S b → before a b = false → le b a)
    (hTrans : ∀ a b c, S a → S b → S c → le a b → le b c → le a c) {l : List α} (hl : ∀ a ∈ l, S a) :
    (sortBy before l).Pairwise le := by
  have hInsert : ∀ (x : α) (l : List α), S x → (∀ a ∈ l, S a) → l.Pairwise le → (insertBy before x l).Pairwise le := by
    intro x l hx hl hSorted
    induction hSorted with
    | nil => simp [insertBy]
    | @cons y rest hle hRest ih =>
      have hy : S y := hl y (List.mem_cons_self ..)
      have hRestS : ∀ a ∈ rest, S a := fun a ha => hl a (List.mem_cons_of_mem _ ha)
      simp only [insertBy]
      split
      next h =>
        have hxy := hBefore x y hx hy h
        exact .cons (List.forall_mem_cons.2 ⟨hxy, fun z hz => hTrans x y z hx hy (hRestS z hz) hxy (hle z hz)⟩) (.cons hle hRest)
      next h =>
        refine .cons (fun z hz => ?_) (ih hRestS)
        rcases (mem_insertBy _ x z rest).1 hz with rfl | hz
        · exact hAfter z y hx hy (by simpa using h)
        · exact hle z hz
  induction l with
  | nil => exact .nil
  | cons x rest ih =>
    have hRest : ∀ a ∈ rest, S a := fun a ha => hl a (List.mem_cons_of_mem _ ha)
    exact hInsert x _ (hl x (List.mem_cons_self ..)) (fun a ha => hRest a ((sortBy_perm before rest).mem_iff.1 ha)) (ih hRest)

theorem chooseWaitSet_below {s : State} (h : s.cfg.follow.follow = .below) : ∃ order : List PeerRecord,
    order.Perm (s.peers.records.filter fun p => p.fresh && p.shaft = ownShaft s && p.level < ownLevel s)
      ∧ order.Pairwise (fun p q => q.level < p.level ∨ (q.level = p.level ∧ p.addr ≤ q.addr))
      ∧ chooseWaitSet s = (order.take s.cfg.follow.followN).map (·.addr) := by
  refine ⟨sortBy (fun a b => b.level < a.level || (a.level = b.level && a.addr < b.addr))
    ((s.peers.records.filter (·.fresh)).filter fun p => p.shaft = ownShaft s && p.level < ownLevel s), ?_, ?_, ?_⟩
  · refine (sortBy_perm _ _).trans (List.Perm.of_eq ?_)
    rw [List.filter_filter]
    congr 1
    funext p
    cases p.fresh <;> simp
  · refine sortBy_pairwise (S := fun _ => True) (fun a b _ _ h => ?_) (fun a b _ _ h => ?_) (fun a b c _ _ _ hab hbc => by omega)
      (fun _ _ => trivial)
    · simp only [Bool.or_eq_true, Bool.and_eq_true, decide_eq_true_eq] at h
      omega
    · simp only [Bool.or_eq_false_iff, Bool.and_eq_false_iff, decide_eq_false_iff_not] at h
      omega
  · unfold chooseWaitSet
    simp only [h]

theorem mem_chooseWaitSet_list {s : State} (h : s.cfg.follow.follow = .list) (a : Nat) : a ∈ chooseWaitSet s ↔
    a ∈ s.cfg.follow.followList ∧ ∃ p ∈ s.peers.records, p.addr = a ∧ p.fresh = true := by
  unfold chooseWaitSet
  simp only [h, List.mem_map, List.mem_filter, List.contains_iff_mem]
  constructor
  · rintro ⟨p, ⟨⟨hp, hFresh⟩, hIn⟩, rfl⟩
    exact ⟨hIn, p, hp, rfl, hFresh⟩
  · rintro ⟨hIn, p, hp, rfl, hFresh⟩
    exact ⟨p, ⟨⟨hp, hFresh⟩, hIn⟩, rfl⟩

theorem mem_rampingMembers {s : State} {set : List Nat} {a : Nat} : a ∈ rampingMembers s set ↔
    a ∈ set ∧ ∃ p ∈ s.peers.records, p.addr = a ∧ p.phase = .ramping := by
  unfold rampingMembers
  simp only [List.mem_map, List.mem_filter, Bool.and_eq_true, List.contains_iff_mem, decide_eq_true_eq]
  constructor
  · rintro ⟨p, ⟨hp, hIn, hPhase⟩, rfl⟩
    exact ⟨hIn, p, hp, rfl, hPhase⟩
  · rintro ⟨hIn, p, hp, rfl, hPhase⟩
    exact ⟨p, ⟨hp, hIn, hPhase⟩, rfl⟩

/-- Settles O45: the dwell's expiry is taken before the start test. -/
theorem dwellExpiryMakesTheStartTest : Obligations.DwellExpiryMakesTheStartTest := by
  refine ⟨blocked_iff, confirmed_iff, fun c e => ⟨rfl, rfl, rfl, fun v h => rampSet_recover h, fun h => ?recover, fun p h => ?free,
    fun h => ?freeMin⟩, fun s => ⟨fun h => ?none, chooseWaitSet_below, mem_chooseWaitSet_list⟩, fun s set a => mem_rampingMembers,
    fun s => ⟨fun h => congrArg Host.Outcome.next (if_neg (by rw [h]; decide)), fun hDue hs => ?_⟩⟩
  case recover => simp only [rampSet, h]
  case free => simp only [rampSet, h, Option.getD_some]
  case freeMin => simp only [rampSet, h, Option.getD_none]
  case none => simp only [chooseWaitSet, h]
  exact ⟨_, congrArg Host.Outcome.next (if_pos hDue), settled_startTest ((completionDue_congr rfl rfl).trans hs)⟩

/-! ## The DEFROST cycle and the follow timer (R38, R46, R47) -/

/-- The DEFROST cycle's expiry has been taken (R46). -/
def cycleExpired (s : State) : State := s.setSeq { s.seq with defrostTimer := none, defrostExpired := true }

theorem defrostExpiry_of_due {s : State} (h : defrostDue s = true) :
    exec .defrostCycleExpiry s = .next (settleRamps (exitTest (cycleExpired s))) := congrArg Host.Outcome.next (if_pos h)

theorem exitTest_of_settled {s : State} (hp : s.seq.phase = some .settled) (hm : s.seq.mode = some .defrost)
    (he : s.seq.defrostExpired = true) : exitTest s = beginTransition (exitTarget s) false s :=
  if_pos (by simp [settled, hp, hm, he])

theorem exitTest_eq_self {s : State} (h : s.seq.phase ≠ some .settled ∨ s.seq.mode ≠ some .defrost ∨ s.seq.defrostExpired = false) :
    exitTest s = s := if_neg fun hn => by
  simp only [settled, Bool.and_eq_true, decide_eq_true_eq] at hn
  obtain ⟨⟨hp, hm⟩, he⟩ := hn
  rcases h with h | h | h
  · exact h hp
  · exact h hm
  · rw [he] at h; cases h

theorem exitTarget_eq (s : State) : exitTarget s = (match s.decision.last.desired with
    | some .safe => Mode.safe
    | some .neutral => .neutral
    | some .free =>
      if (procOf s .relief).state = .starved ∨ s.link.state = .offline ∨ s.link.state = .clashed then .recover else .free
    | _ => .recover) := by
  unfold exitTarget
  cases s.decision.last.desired with
  | none => rfl
  | some m =>
    cases m
    case free =>
      refine ite_cond_congr (propext ?_)
      rw [Bool.or_eq_true, starvedFor_iff, isolatedFor_iff]
      simp
    all_goals rfl

/-- The follow wait's end, its notice given. -/
def followNoted (s : State) : State := post (.followTimeout (rampingMembers s s.seq.waitSet).head?) s

theorem followGivenUp_of_transition {s : State} {x : Transition} (h : s.seq.transition = some x) :
    followGivenUp s = settleRamps (enterRamping x.target (followNoted s)) := by
  unfold followGivenUp
  simp only [h]
  rfl

/-- The members of a sound table are named in ascending order (R141). -/
theorem rampingMembers_pairwise {s : State} (h : PeersSound s.peers) (set : List Nat) :
    (rampingMembers s set).Pairwise (· < ·) := by
  obtain ⟨_, hOrder, _⟩ := h
  exact (hOrder.filter _).map _ fun _ _ h => h

theorem head?_least {l : List Nat} (h : l.Pairwise (· < ·)) {b : Nat} (hb : l.head? = some b) : b ∈ l ∧ ∀ d ∈ l, b ≤ d := by
  cases h with
  | nil => cases hb
  | cons hlt hrest =>
    cases hb
    exact ⟨List.mem_cons_self .., List.forall_mem_cons.2 ⟨Nat.le_refl _, fun d hd => Nat.le_of_lt (hlt d hd)⟩⟩

/-- Settles O46: the exit from DEFROST is a transition of its own, and a given-up wait ramps at once. -/
theorem defrostAndFollowTimersAct : Obligations.DefrostAndFollowTimersAct := by
  intro s hs
  have hExpired : completionDue (cycleExpired s) = false := (completionDue_congr rfl rfl).trans hs
  refine ⟨fun h => congrArg Host.Outcome.next (if_neg (by rw [h]; decide)), fun hDue hElse => ?kept,
    fun m hDue hp hm hTarget hFree hMembers hAway => ?exit, exitTarget_eq s,
    fun h => congrArg Host.Outcome.next (if_neg (by rw [h]; decide)), fun x hClosed hRun hp hTimer hx hAway => ?follow⟩
  case kept =>
    rw [defrostExpiry_of_due hDue, exitTest_eq_self (s := cycleExpired s) (hElse.imp_right .inl), settleRamps_of_not_due hExpired]
    rfl
  case exit =>
    have hUnclaimed : claimFor m = none := by rcases hFree with rfl | rfl <;> rfl
    have hUnsafe : m ≠ .safe := by rcases hFree with rfl | rfl <;> exact nofun
    have hTest : exitTest (cycleExpired s) = beginTransition m false (cycleExpired s) := by
      rw [exitTest_of_settled (s := cycleExpired s) hp hm rfl]
      exact congrArg (fun k => beginTransition k false (cycleExpired s)) hTarget
    have hNone : ∀ r, claimFor m ≠ some r := fun r hr => by cases hUnclaimed.symm.trans hr
    have hStarts : Starts m (cycleExpired s) (settleRamps (beginTransition m false (cycleExpired s))) :=
      settled_beginTransition_starts hExpired fun r hr => absurd hr (hNone r)
    obtain ⟨⟨hSeq, hSet, _⟩, _, hClaims, hPort⟩ := hStarts.2.2 (fun r hr => absurd hr (hNone r)) (.inr hMembers) hAway
    refine ⟨_, defrostExpiry_of_due hDue, ?_⟩
    rw [hTest]
    refine ⟨?_, by rw [hSet, hSeq], hClaims, hPort⟩
    rw [hSeq, if_neg hUnsafe]
    rfl
  case follow =>
    obtain ⟨y, hy, hle⟩ := hTimer
    have hDue : followDue s = true := by simp [followDue, running, hClosed, hRun, hp, due, hy, hle]
    refine ⟨settleRamps (enterRamping x.target (followNoted s)), (rampingMembers s s.seq.waitSet).head?, ?_, ?_⟩
    · exact congrArg Host.Outcome.next ((if_pos hDue).trans (followGivenUp_of_transition hx))
    · rw [settleRamps_of_not_due (enterRamping_completionDue x.target (followNoted s) hAway)]
      obtain ⟨hSeq, hSet, _⟩ := enterRamping_rampingTo (s := followNoted s) (target := x.target) (forced := x.forced) hx
      refine ⟨hSeq.trans (by rw [← hx]; rfl), ?_, enterRamping_claims .., fun hRoom => ?_, fun hSound => ⟨List.head?_eq_none_iff,
        fun b hb => head?_least (rampingMembers_pairwise hSound _) hb⟩⟩
      · rw [hSet, hSeq]
      · unfold Posted
        rw [enterRamping_port]
        exact posted_post_of_room hRoom _

end Sys2Proof.Machine
end

section
/-! PROOF. Precedence among claims and the overcommit run (O50). -/

namespace Sys2Proof.Machine

/-! ## Precedence (R66) -/

theorem earlier_iff {a b : Word32} : earlier a b = true ↔ 2 ^ 31 ≤ (a - b).toNat := by
  unfold earlier
  rw [show (0 : Word32) = 0#32 from rfl, BitVec.slt_zero_eq_msb, BitVec.msb_eq_true_iff_two_mul_ge]
  omega

theorem ahead_iff {a b : ClaimRecord} : ahead a b = true ↔ b.cls < a.cls ∨ (a.cls = b.cls ∧ 2 ^ 31 ≤ (a.seq - b.seq).toNat) := by
  unfold ahead
  simp only [Bool.or_eq_true, Bool.and_eq_true, decide_eq_true_eq, earlier_iff]

/-- Within one window of 2^31 the earlier sequence is the one nearer the window's base. -/
theorem earlier_in_window {a b base : Word32} (ha : (a - base).toNat < 2 ^ 31) (hb : (b - base).toNat < 2 ^ 31) :
    2 ^ 31 ≤ (a - b).toNat ↔ (a - base).toNat < (b - base).toNat := by
  bv_omega

/-- A record's place in precedence within a window. -/
def rank (base : Word32) (c : ClaimRecord) : Nat := (c.seq - base).toNat

theorem ahead_in_window {a b : ClaimRecord} {base : Word32} (ha : (a.seq - base).toNat < 2 ^ 31) (hb : (b.seq - base).toNat < 2 ^ 31) :
    ahead a b = true ↔ b.cls < a.cls ∨ (a.cls = b.cls ∧ rank base a < rank base b) := by
  rw [ahead_iff, earlier_in_window ha hb]
  rfl

/-! ## The run (R81) -/

/-- The own claim stands in the run when all that stands before it fits with it. -/
theorem runHasOwn_append {cap a : Nat} {pre post : List (Bool × Nat)} (h : ∀ x ∈ pre, x.1 = false) (sum : Nat) :
    runHasOwn cap (pre ++ (true, a) :: post) sum = decide (sum + (pre.map (·.2)).sum + a ≤ cap) := by
  induction pre generalizing sum with
  | nil =>
    simp only [List.nil_append, runHasOwn, Bool.true_or, List.map_nil, List.sum_nil, Nat.add_zero]
    split
    next hle => exact (decide_eq_true hle).symm
    next hgt => exact (decide_eq_false hgt).symm
  | cons x rest ih =>
    obtain ⟨own, b⟩ := x
    obtain rfl : own = false := h _ (List.mem_cons_self ..)
    simp only [List.cons_append, runHasOwn, Bool.false_or, List.map_cons, List.sum_cons,
      ih fun y hy => h y (List.mem_cons_of_mem _ hy)]
    split
    · exact decide_eq_decide.2 (by omega)
    next hgt => exact (decide_eq_false (by omega)).symm

section
variable {s : State} {r : Resource}

/-- The held records of a resource. -/
def heldOf (s : State) (r : Resource) : List ClaimRecord := s.claims.list.filter fun c => c.held && c.res = r

/-- A held record as the run counts it. -/
def runEntry (s : State) (c : ClaimRecord) : Bool × Nat := (decide (c.addr = ownAddr s), c.amount)

theorem heldOrder_eq (s : State) (r : Resource) : heldOrder s r =
    if ((sortBy ahead (heldOf s r)).map (runEntry s)).any (·.1) then (sortBy ahead (heldOf s r)).map (runEntry s)
    else (sortBy ahead (heldOf s r)).map (runEntry s) ++ [(true, ownAmount s.cfg r)] := rfl

theorem sum_amounts (s : State) (l : List ClaimRecord) : ((l.map (runEntry s)).map (·.2)).sum = (l.map (·.amount)).sum := by
  rw [List.map_map]
  rfl

/-- An own claim with no held record counts last. -/
theorem withinRun_of_unlisted (h : ∀ c ∈ heldOf s r, c.addr ≠ ownAddr s) :
    withinRun s r = true ↔ ((heldOf s r).map (·.amount)).sum + ownAmount s.cfg r ≤ effective s r := by
  have hOthers : ∀ x ∈ (sortBy ahead (heldOf s r)).map (runEntry s), x.1 = false := by
    intro x hx
    obtain ⟨c, hc, rfl⟩ := List.mem_map.1 hx
    exact decide_eq_false (h c ((sortBy_perm ahead _).mem_iff.1 hc))
  have hAny : ((sortBy ahead (heldOf s r)).map (runEntry s)).any (·.1) = false := by
    rw [List.any_eq_false]
    exact fun x hx => by rw [hOthers x hx]; exact Bool.false_ne_true
  unfold withinRun
  rw [heldOrder_eq, hAny, if_neg Bool.false_ne_true, runHasOwn_append hOthers, sum_amounts,
    ((sortBy_perm ahead (heldOf s r)).map (·.amount)).sum_nat, decide_eq_true_eq, Nat.zero_add]

/-- Of one claimant and resource there is one record (R60). -/
theorem record_unique (hSound : ClaimsSound s.claims) {c d : ClaimRecord} (hc : c ∈ s.claims.list) (hd : d ∈ s.claims.list)
    (hAddr : c.addr = d.addr) (hRes : c.res = d.res) : c = d := by
  obtain ⟨_, hOrder, _⟩ := hSound
  refine Classical.byContradiction fun hne => ?_
  have hBefore := List.Pairwise.forall_of_forall_of_flip (R := fun a b => a = b ∨ recordBefore a b = true ∨ recordBefore b a = true)
    (fun _ _ => .inl rfl) (hOrder.imp fun h => .inr (.inl h)) (hOrder.imp fun h => .inr (.inr h)) hc hd
  rcases hBefore with h | h | h
  · exact hne h
  · simp [recordBefore, hAddr, hRes] at h
    cases hr : d.res <;> simp [hr] at h
  · simp [recordBefore, hAddr, hRes] at h
    cases hr : d.res <;> simp [hr] at h

/-- The own record within a window: what is ahead of it and itself must fit. -/
theorem withinRun_of_listed (hSound : ClaimsSound s.claims) {own : ClaimRecord} {base : Word32} (hOwn : own ∈ heldOf s r)
    (hAddr : own.addr = ownAddr s) (hWindow : ∀ c ∈ heldOf s r, (c.seq - base).toNat < 2 ^ 31)
    (hDistinct : (heldOf s r).Pairwise fun c d => c.seq ≠ d.seq) :
    withinRun s r = true ↔ (((heldOf s r).filter fun c => ahead c own).map (·.amount)).sum + own.amount ≤ effective s r := by
  have hPerm := sortBy_perm ahead (heldOf s r)
  have hSeq {c d : ClaimRecord} (hc : c ∈ heldOf s r) (hd : d ∈ heldOf s r) (h : c.seq = d.seq) : c = d :=
    List.Pairwise.forall_of_forall_of_flip (R := fun a b => a.seq = b.seq → a = b) (fun _ _ _ => rfl)
      (hDistinct.imp fun hne h => absurd h hne) (hDistinct.imp fun hne h => absurd h.symm hne) hc hd h
  have hRank {c d : ClaimRecord} (hc : c ∈ heldOf s r) (hd : d ∈ heldOf s r) (h : rank base c = rank base d) : c = d := by
    refine hSeq hc hd ?_
    have hSub : c.seq - base = d.seq - base := BitVec.eq_of_toNat_eq h
    bv_omega
  have hAhead {c d : ClaimRecord} (hc : c ∈ heldOf s r) (hd : d ∈ heldOf s r) :
      ahead c d = true ↔ d.cls < c.cls ∨ (c.cls = d.cls ∧ rank base c < rank base d) := ahead_in_window (hWindow c hc) (hWindow d hd)
  have hSorted : (sortBy ahead (heldOf s r)).Pairwise fun c d => c = d ∨ ahead c d = true := by
    refine sortBy_pairwise (S := (· ∈ heldOf s r)) (fun _ _ _ _ h => .inr h) (fun c d hc hd h => ?_) (fun a b c ha hb hc hab hbc => ?_)
      fun _ h => h
    · have hNot : ¬(d.cls < c.cls ∨ (c.cls = d.cls ∧ rank base c < rank base d)) := by rw [← hAhead hc hd, h]; exact Bool.false_ne_true
      by_cases hEq : rank base c = rank base d
      · by_cases hCls : c.cls = d.cls
        · exact .inl (hRank hd hc hEq.symm)
        · exact .inr ((hAhead hd hc).2 (by omega))
      · exact .inr ((hAhead hd hc).2 (by omega))
    · rcases hab with rfl | hab
      · exact hbc
      · rcases hbc with rfl | hbc
        · exact .inr hab
        · have h1 := (hAhead ha hb).1 hab
          have h2 := (hAhead hb hc).1 hbc
          exact .inr ((hAhead ha hc).2 (by omega))
  obtain ⟨pre, post, hSplit⟩ := List.append_of_mem (hPerm.mem_iff.2 hOwn)
  have hNodup : (sortBy ahead (heldOf s r)).Nodup := hPerm.nodup_iff.2 (hDistinct.imp fun h he => h (congrArg ClaimRecord.seq he))
  rw [hSplit] at hSorted hNodup hPerm
  have hMem {c : ClaimRecord} (hc : c ∈ pre ++ own :: post) : c ∈ heldOf s r := hPerm.mem_iff.1 hc
  obtain ⟨_, hTail, hCross⟩ := List.pairwise_append.1 hSorted
  obtain ⟨hPost, _⟩ := List.pairwise_cons.1 hTail
  obtain ⟨_, hTailNodup, hApart⟩ := List.pairwise_append.1 hNodup
  have hPreNe {c : ClaimRecord} (hc : c ∈ pre) : c ≠ own := hApart c hc own (List.mem_cons_self ..)
  have hPostNe {c : ClaimRecord} (hc : c ∈ post) : own ≠ c := (List.pairwise_cons.1 hTailNodup).1 c hc
  have hPreAhead {c : ClaimRecord} (hc : c ∈ pre) : ahead c own = true := (hCross c hc own (List.mem_cons_self ..)).resolve_left (hPreNe hc)
  have hPostBehind {c : ClaimRecord} (hc : c ∈ post) : ahead c own = false := by
    have hIn : c ∈ heldOf s r := hMem (List.mem_append_right _ (List.mem_cons_of_mem _ hc))
    have h1 := (hAhead hOwn hIn).1 ((hPost c hc).resolve_left (hPostNe hc))
    rw [← Bool.not_eq_true, hAhead hIn hOwn]
    omega
  have hOwnBehind : ahead own own = false := by
    rw [← Bool.not_eq_true, hAhead hOwn hOwn]
    omega
  have hFilter : (pre ++ own :: post).filter (fun c => ahead c own) = pre := by
    rw [List.filter_append, List.filter_cons, hOwnBehind, if_neg Bool.false_ne_true,
      List.filter_eq_self.2 fun c hc => hPreAhead hc, List.filter_eq_nil_iff.2 fun c hc => by rw [hPostBehind hc]; exact Bool.false_ne_true,
      List.append_nil]
  have hOwnEntry : runEntry s own = (true, own.amount) := Prod.ext (decide_eq_true hAddr) rfl
  have hOrder : heldOrder s r = pre.map (runEntry s) ++ (true, own.amount) :: post.map (runEntry s) := by
    rw [heldOrder_eq, hSplit, if_pos, List.map_append, List.map_cons, hOwnEntry]
    rw [List.any_eq_true]
    exact ⟨_, List.mem_map_of_mem (List.mem_append_right _ (List.mem_cons_self ..)), by rw [hOwnEntry]⟩
  have hInList {c : ClaimRecord} (hc : c ∈ heldOf s r) : c ∈ s.claims.list ∧ c.res = r := by
    obtain ⟨hIn, hTest⟩ := List.mem_filter.1 hc
    simp only [Bool.and_eq_true, decide_eq_true_eq] at hTest
    exact ⟨hIn, hTest.2⟩
  have hOthers : ∀ x ∈ pre.map (runEntry s), x.1 = false := by
    intro x hx
    obtain ⟨c, hc, rfl⟩ := List.mem_map.1 hx
    have hIn := hInList (hMem (List.mem_append_left _ hc))
    refine decide_eq_false fun hca => hPreNe hc ?_
    exact record_unique hSound hIn.1 (hInList hOwn).1 (hca.trans hAddr.symm) (hIn.2.trans (hInList hOwn).2.symm)
  unfold withinRun
  rw [hOrder, runHasOwn_append hOthers, sum_amounts, decide_eq_true_eq, Nat.zero_add, ← hFilter,
    ((hPerm.filter fun c => ahead c own).map (·.amount)).sum_nat]

/-! ## The check (R81) -/

theorem overcommitCheck_of_outside (h : (procOf s r).state = .held) (hw : withinRun s r = false) :
    overcommitCheck r s = yieldProc r s := if_pos (by simp [h, hw])

theorem overcommitCheck_of_inside (h : (procOf s r).state ≠ .held ∨ withinRun s r = true) : overcommitCheck r s = (s, []) := by
  refine if_neg fun hn => ?_
  simp only [Bool.and_eq_true, decide_eq_true_eq, Bool.not_eq_true'] at hn
  rcases h with h | h
  · exact h hn.1
  · rw [h] at hn; cases hn.2

end

/-- Settles O50: within a window precedence is a strict order, so the run is the records ahead of the own one, and itself. -/
theorem precedenceRanksClaims : Obligations.PrecedenceRanksClaims := by
  refine ⟨fun a b => ahead_iff, fun s r => ⟨fun own base hSound hOwn hAddr hWindow hDistinct =>
    withinRun_of_listed hSound hOwn hAddr hWindow hDistinct, withinRun_of_unlisted, fun h hw => ?_, overcommitCheck_of_inside⟩⟩
  refine ⟨_, overcommitCheck_of_outside h hw, ?_, fun hRoom => posted_post_of_room (s := setProc r _ s) hRoom _⟩
  exact procOf_setProc_same ..

end Sys2Proof.Machine
end

section
/-! PROOF. The timers and ages of the Claim Unit: the hold-off's decision (O48), and backoffs, lockouts, waiting requests, records and
the fire set (O49). -/

namespace Sys2Proof.Machine

section
variable {s t : State} {r x : Resource}

/-! ## The hold-off's decision (R74, R75, R77) -/

theorem placeClaim_setProc (m : ClaimMsg) (x : Resource) (p : Process) (s : State) :
    placeClaim m (setProc x p s) = setProc x p (placeClaim m s) := by
  unfold placeClaim
  by_cases h : s.link.state = .clashed
  · rw [if_pos h, if_pos (show (setProc x p s).link.state = .clashed from h)]
  · rw [if_neg h, if_neg (show ¬(setProc x p s).link.state = .clashed from h)]
    rfl

theorem noticeNow_congr (b : NoticeBody) {s t : State} (h : t.now = s.now) : noticeNow b t = noticeNow b s := by
  simp only [noticeNow, stampNow, uptime, h]

/-- A notice posted by a state with the queue and the time of another. -/
theorem posted_post_after {s u : State} (hQueue : u.port.notices = s.port.notices) (hNow : u.now = s.now) (hRoom : HasRoom s)
    (b : NoticeBody) : Posted b s (post b u) := by
  have h := posted_post_of_room (s := u) (by unfold HasRoom; rw [hQueue]; exact hRoom) b
  unfold Posted at h ⊢
  rwa [noticeNow_congr b hNow, hQueue] at h

theorem placeClaim_now (m : ClaimMsg) (s : State) : (placeClaim m s).now = s.now := by rw [placeClaim_eq]; rfl

/-- The records that the sum of R74 counts beside the own amount. -/
theorem commitSum_of_record {own : ClaimRecord} (h : findRecord s (ownAddr s) r = some own) : commitSum s r
    = ((s.claims.list.filter fun c => c.res = r && c.addr != ownAddr s && (c.held || ahead c own)).map (·.amount)).sum
      + ownAmount s.cfg r := by
  unfold commitSum
  simp only [h, List.filter_filter]
  congr 3
  refine List.filter_congr fun c _ => ?_
  exact Bool.and_comm ..

theorem decideAttempt_of_fit (hd : (procOf s r).disturbed = false) (hf : commitSum s r ≤ effective s r) : decideAttempt r s = quietly
    (placeClaim (.held r (ownAmount s.cfg r) (effective s r)) (setProc r { procOf s r with state := .committing, timer := none } s)) := by
  unfold decideAttempt
  rw [if_neg (by rw [hd]; exact Bool.false_ne_true), if_pos hf]

theorem decideAttempt_of_failure (h : (procOf s r).disturbed = true ∨ ¬commitSum s r ≤ effective s r) :
    decideAttempt r s = failAttempt r (if (procOf s r).disturbed = true then .disturbed else .full) s := by
  unfold decideAttempt
  by_cases hd : (procOf s r).disturbed = true
  · rw [if_pos hd, if_pos hd]
  · rw [if_neg hd, if_neg hd, if_neg (h.resolve_left hd)]

/-- A failed attempt backs off while others are left (R75, R76). -/
theorem failAttempt_of_more (why : WithdrawReason) (h : (procOf s r).attempt < s.cfg.claims.maxTries) : failAttempt r why s
    = quietly (placeClaim (.withdraw r why) (setProc r { procOf s r with
        state := .backoff, timer := some (s.now + (s.cfg.claims.tBACK * 1000 * (procOf s r).attempt + ownAddr s % 8 * 250)) } s)) := by
  have hCfg : (placeClaim (.withdraw r why) s).cfg = s.cfg := congrArg Port.cfg (placeClaim_port _ s)
  have hOwn : ownAddr (placeClaim (.withdraw r why) s) = ownAddr s := by unfold ownAddr; rw [hCfg]
  unfold failAttempt afterFailure
  dsimp only
  rw [procOf_placeClaim, hCfg, hOwn, placeClaim_now, if_pos h, placeClaim_setProc]
  rfl

/-- A process STARVED after its last attempt, its WITHDRAW placed (R77). -/
def starvedOut (r : Resource) (why : WithdrawReason) (s : State) : State :=
  post (.claimStarved r) (placeClaim (.withdraw r why) (setProc r { procOf s r with
    state := .starved, timer := some (s.now + s.cfg.claims.tLOCK * 1000), request := false } s))

theorem failAttempt_of_last (why : WithdrawReason) (h : s.cfg.claims.maxTries ≤ (procOf s r).attempt) :
    failAttempt r why s = (starvedOut r why s, [.starved r]) := by
  have hCfg : (placeClaim (.withdraw r why) s).cfg = s.cfg := congrArg Port.cfg (placeClaim_port _ s)
  unfold failAttempt afterFailure
  dsimp only
  rw [procOf_placeClaim, hCfg, if_neg (Nat.not_lt.2 h)]
  unfold enterStarved starvedOut
  rw [placeClaim_setProc, procOf_placeClaim, hCfg, placeClaim_now]
  rfl

/-- A frame placed over a process that is set leaves the port, the Sequencer and the outputs. -/
theorem placed_same (m : ClaimMsg) (p : Process) (s : State) : (placeClaim m (setProc r p s)).port = s.port
    ∧ (placeClaim m (setProc r p s)).seq = s.seq ∧ (placeClaim m (setProc r p s)).out = s.out
    ∧ (placeClaim m (setProc r p s)).now = s.now :=
  ⟨placeClaim_port .., placeClaim_seq .., placeClaim_out .., placeClaim_now ..⟩

theorem placed_completionDue {m : ClaimMsg} {p : Process} (hs : completionDue s = false) :
    completionDue (placeClaim m (setProc r p s)) = false :=
  (completionDue_congr (congrArg Port.cfg (placeClaim_port _ _)) (placeClaim_out _ _)).trans hs

theorem starvedOut_proc (why : WithdrawReason) : procOf (starvedOut r why s) r = { procOf s r with
    state := .starved, timer := some (s.now + s.cfg.claims.tLOCK * 1000), request := false } := by
  unfold starvedOut
  rw [procOf_post, procOf_placeClaim, procOf_setProc_same]

theorem starvedOut_claimIn (why : WithdrawReason) (h : s.link.state ≠ .clashed) :
    claimIn (starvedOut r why s) r = some (.withdraw r why) := by
  refine (claimIn_placeClaim _ _ (show (setProc r _ s).link.state ≠ .clashed from h) r).trans (if_pos rfl)

theorem starvedOut_seq (why : WithdrawReason) : (starvedOut r why s).seq = s.seq := placeClaim_seq _ _
theorem starvedOut_out (why : WithdrawReason) : (starvedOut r why s).out = s.out := placeClaim_out _ _
theorem starvedOut_now (why : WithdrawReason) : (starvedOut r why s).now = s.now := placeClaim_now _ _

theorem starvedOut_cfg (why : WithdrawReason) : (starvedOut r why s).cfg = s.cfg := by
  unfold starvedOut
  rw [post_cfg, State.cfg, placeClaim_port]
  rfl

theorem starvedOut_running (why : WithdrawReason) : running (starvedOut r why s) = running s := by
  unfold starvedOut
  show running (placeClaim _ _) = _
  unfold running
  rw [placeClaim_port]
  rfl

theorem starvedOut_posted (why : WithdrawReason) (hRoom : HasRoom s) : Posted (.claimStarved r) s (starvedOut r why s) := by
  unfold starvedOut
  exact posted_post_after (by rw [placeClaim_port]; rfl) (by rw [placeClaim_now]; rfl) hRoom _

theorem starvedOut_completionDue (why : WithdrawReason) (hs : completionDue s = false) : completionDue (starvedOut r why s) = false :=
  (completionDue_congr (s := placeClaim (.withdraw r why) (setProc r _ s)) rfl rfl).trans (placed_completionDue hs)

/-! ## The Sequencer takes CLAIM_STARVED (R35) -/

theorem takeStarved_of_claiming {y : Transition} (hr : running s = true) (hp : s.seq.phase = some .claiming)
    (hy : s.seq.transition = some y) (hx : claimFor y.target = some x) : takeClaimReport (.starved x) s = abandon y.target s := by
  simp [takeClaimReport, hr, hp, hy, hx]

theorem takeStarved_of_other (hp : s.seq.phase ≠ some .claiming) : takeClaimReport (.starved x) s = s := by
  simp [takeClaimReport, hp]

theorem blocked_of_starved {m : Mode} (hm : claimFor m = some x) (hx : (procOf s x).state = .starved) : blocked s m = true := by
  have hSafe : m ≠ .safe := by rintro rfl; cases hm
  simp [blocked, starvedFor, hm, hx, hSafe]

/-- The abandonment of a transition, up to its notice (R35). -/
def abandoned (m : Mode) (s : State) : State := post (.transitionAbandoned m) (toSettled (endWait s))

theorem abandoned_seq (m : Mode) (s : State) : (abandoned m s).seq = settledSeq s.seq := by
  unfold abandoned
  rw [post_eq]
  exact (toSettled_seq (endWait s)).trans rfl

theorem abandoned_out (m : Mode) (s : State) : (abandoned m s).out = s.out := toSettled_out (endWait s)

theorem abandoned_cfg (m : Mode) (s : State) : (abandoned m s).cfg = s.cfg := toSettled_cfg (endWait s)

theorem abandoned_claims (m : Mode) (s : State) : (abandoned m s).claims = s.claims := setPhase_claims ..

/-- A transition whose claim is STARVED is abandoned, and nothing starts in its place where only its own mode is desired (R35). -/
theorem abandon_of_only {m : Mode} (hm : claimFor m = some x) (hx : (procOf s x).state = .starved) (hOnly : OnlyDesires m s)
    (hExit : NoExitWaits s) : abandon m s = abandoned m s := by
  have hSeq := abandoned_seq m s
  have hConfirmed : confirmed (abandoned m s) = confirmed s :=
    confirmed_congr (abandoned_cfg m s) (by rw [hSeq]; rfl) (by rw [hSeq]; rfl)
  have hStart : startTest (abandoned m s) = abandoned m s := startTest_eq_self fun d hd => by
    rw [hConfirmed] at hd
    rw [hOnly d hd]
    exact .inr (.inr (blocked_of_starved hm (by rw [procOf_congr (abandoned_claims m s)]; exact hx)))
  show afterSettled (abandoned m s) = _
  unfold afterSettled
  rw [hStart]
  refine exitTest_eq_self ?_
  rw [hSeq]
  by_cases hMode : s.seq.mode = some .defrost
  · exact .inr (.inr (hExit hMode))
  · exact .inr (.inl hMode)

theorem abandoned_posted (m : Mode) (hRoom : HasRoom s) : Posted (.transitionAbandoned m) s (abandoned m s) := by
  unfold abandoned
  exact posted_post_after (by rw [toSettled, setPhase_port]; rfl) (by rw [toSettled, setPhase_now]; rfl) hRoom _

end

/-- Settles O48: the process and its frame, once STARVED, stand whatever the Sequencer does with the report. -/
theorem holdoffExpiryDecidesTheAttempt : Obligations.HoldoffExpiryDecidesTheAttempt := by
  intro s r
  refine ⟨fun h => congrArg Host.Outcome.next (if_neg (by rw [h]; decide)), fun own hDue hs hLink hOwn => ?_⟩
  have hExec : exec (.claimHoldoffExpiry r) s = .next (settleRamps (reported (decideAttempt r s))) :=
    congrArg Host.Outcome.next (if_pos hDue)
  have hSum := commitSum_of_record hOwn
  dsimp only
  rw [← hSum]
  refine ⟨fun hd hf => ?commits, fun hFails hMore => ?backs, fun hFails hLast => ?starves⟩
  case commits =>
    rw [hExec, decideAttempt_of_fit hd hf]
    exact congrArg Host.Outcome.next (settleRamps_of_not_due (placed_completionDue hs))
  case backs =>
    rw [hExec, decideAttempt_of_failure hFails, failAttempt_of_more _ hMore]
    exact congrArg Host.Outcome.next (settleRamps_of_not_due (placed_completionDue hs))
  case starves =>
    rw [decideAttempt_of_failure hFails, failAttempt_of_last _ hLast] at hExec
    generalize (if (procOf s r).disturbed = true then WithdrawReason.disturbed else .full) = why at hExec ⊢
    have hState : (procOf (starvedOut r why s) r).state = .starved := by rw [starvedOut_proc]
    have hWorks : Works (starvedOut r why s) (settleRamps (reported (starvedOut r why s, [.starved r]))) :=
      settleRamps_works (reported_works (x := (_, _)) .refl)
    obtain ⟨hProc, hClaim⟩ := hWorks.starved hState
    have hDueOut := starvedOut_completionDue (r := r) why hs
    refine ⟨_, hExec, hProc.trans (starvedOut_proc why), hClaim.trans (starvedOut_claimIn why hLink), fun hRoom hPhase => ?_,
      fun x hRun hPhase hx hTarget hOnly hExit => ?_⟩
    · have hTaken : reported (starvedOut r why s, [.starved r]) = starvedOut r why s :=
        takeStarved_of_other (by rw [starvedOut_seq]; exact hPhase)
      rw [hTaken, settleRamps_of_not_due hDueOut]
      exact ⟨starvedOut_posted why hRoom, starvedOut_seq why, starvedOut_out why⟩
    · have hRunning : running (starvedOut r why s) = true := by
        simp only [procDue, Bool.and_eq_true] at hDue
        rw [starvedOut_running]
        exact hDue.1.1
      have hTaken : reported (starvedOut r why s, [.starved r]) = abandoned x.target (starvedOut r why s) := by
        refine (takeStarved_of_claiming hRunning (by rw [starvedOut_seq]; exact hPhase) (by rw [starvedOut_seq]; exact hx) hTarget).trans ?_
        refine abandon_of_only hTarget hState (fun d hd => hOnly d ?_) (fun hMode => ?_)
        · rw [← hd]
          exact (confirmed_congr (starvedOut_cfg why) (by rw [starvedOut_seq]) (by rw [starvedOut_seq])).symm
        · rw [starvedOut_seq] at hMode ⊢
          exact hExit hMode
      have hDueAbandoned : completionDue (abandoned x.target (starvedOut r why s)) = false :=
        (completionDue_congr (abandoned_cfg ..) (abandoned_out ..)).trans hDueOut
      rw [hTaken, settleRamps_of_not_due hDueAbandoned, abandoned_seq, abandoned_out, starvedOut_seq, starvedOut_out]
      refine ⟨rfl, rfl, fun hLength => ?_⟩
      have hRoom : HasRoom s := Nat.lt_of_le_of_lt hLength (by decide)
      have hFirst := starvedOut_posted (r := r) why hRoom
      unfold Posted at hFirst
      have hRoom' : HasRoom (starvedOut r why s) := by
        unfold HasRoom
        rw [hFirst, List.length_append]
        exact Nat.lt_of_le_of_lt (Nat.add_le_add_right hLength 1) (by decide)
      have hSecond := abandoned_posted x.target hRoom'
      unfold Posted at hSecond
      rw [noticeNow_congr _ (starvedOut_now why), hFirst, List.append_assoc] at hSecond
      exact hSecond

/-! ## Waiting requests and the end of the freeze (R70, R83) -/

section
variable {s t u : State} {r x : Resource}

theorem heldBack_iff : heldBack s = true ↔ s.claims.freeze = true ∨ s.out.fireFiltered = true :=
  Bool.or_eq_true_iff

theorem not_heldBack (h : ¬(s.claims.freeze = true ∨ s.out.fireFiltered = true)) : heldBack s = false := by
  rwa [← heldBack_iff, Bool.not_eq_true] at h

theorem takeWaiting_of_waiting (hp : (procOf s r).state = .idle) (hr : (procOf s r).request = true) (hb : heldBack s = false) :
    takeWaiting r s = beginAttempt r 1 s := if_pos (by simp [hp, hr, hb])

theorem takeWaiting_of_other (h : ¬((procOf s r).state = .idle ∧ (procOf s r).request = true ∧ heldBack s = false)) :
    takeWaiting r s = s := if_neg (by simpa [and_assoc] using h)

theorem queueIntent_of_taken {m : ClaimMsg} (h : claimIn s r = some m) : queueIntent r s = s := if_pos (by rw [h]; rfl)

theorem beginAttempt_seq (r : Resource) (n : Nat) (s : State) : (beginAttempt r n s).seq = s.seq := by
  rw [beginAttempt, queueIntent_eq]; rfl
theorem beginAttempt_out (r : Resource) (n : Nat) (s : State) : (beginAttempt r n s).out = s.out := by
  rw [beginAttempt, queueIntent_eq]; rfl
theorem beginAttempt_port (r : Resource) (n : Nat) (s : State) : (beginAttempt r n s).port = s.port := by
  rw [beginAttempt, queueIntent_eq]; rfl
theorem beginAttempt_claims (r : Resource) (n : Nat) (s : State) : (beginAttempt r n s).claims = (setProc r { procOf s r with
    state := .pending, attempt := n, request := false, timer := none, cause := none } s).claims := by
  rw [beginAttempt, queueIntent_claims]

theorem beginAttempt_link_of_taken {m : ClaimMsg} (n : Nat) (h : claimIn s r = some m) : (beginAttempt r n s).link = s.link := by
  have hTaken : beginAttempt r n s = setProc r { procOf s r with
      state := .pending, attempt := n, request := false, timer := none, cause := none } s :=
    queueIntent_of_taken (s := setProc r _ s) (m := m) h
  rw [hTaken]
  rfl

theorem beginAttempt_other (n : Nat) (hx : x ≠ r) :
    procOf (beginAttempt r n s) x = procOf s x ∧ claimIn (beginAttempt r n s) x = claimIn s x := by
  refine ⟨by rw [beginAttempt, procOf_queueIntent, procOf_setProc_other hx], ?_⟩
  unfold beginAttempt queueIntent
  split
  · rfl
  · by_cases hLink : s.link.state = .clashed
    · rw [placeClaim_of_clashed (h := (show (setProc r _ s).link.state = .clashed from hLink))]
      rfl
    · refine (claimIn_placeClaim _ _ (show (setProc r _ s).link.state ≠ .clashed from hLink) x).trans (if_neg hx)

theorem takeWaiting_other (hx : x ≠ r) : procOf (takeWaiting r s) x = procOf s x ∧ claimIn (takeWaiting r s) x = claimIn s x := by
  unfold takeWaiting
  dsimp only
  split
  · exact beginAttempt_other 1 hx
  · exact ⟨rfl, rfl⟩

theorem takeWaiting_freeze : (takeWaiting r s).claims.freeze = s.claims.freeze := (takeWaiting_works r .refl).sameClaims.freeze

theorem takeWaiting_sameOut : (takeWaiting r s).out = s.out := by
  unfold takeWaiting
  dsimp only
  split
  · exact beginAttempt_out ..
  · rfl

theorem takeWaiting_linkState : (takeWaiting r s).link.state = s.link.state := (takeWaiting_works r .refl).sameLine.state

/-- A request that waits begins its first attempt, and every other process runs on. -/
theorem takeWaiting_ended (hFreeze : s.claims.freeze = false) : FreezeEnded r s (takeWaiting r s) := by
  have hBack : heldBack s = s.out.fireFiltered := by unfold heldBack; rw [hFreeze, Bool.false_or]
  refine ⟨fun ⟨hp, hr, hf⟩ => ?_, fun hNot => ?_⟩
  · rw [takeWaiting_of_waiting hp hr (hBack.trans hf), beginAttempt_proc]
    refine ⟨rfl, rfl, rfl, fun hLink hFree => ?_⟩
    rw [beginAttempt_claimIn 1 hFree hLink]
    rfl
  · rw [takeWaiting_of_other (by rw [hBack]; exact hNot)]
    exact ⟨rfl, rfl⟩

theorem FreezeEnded.of_same {s' t' : State} (h : FreezeEnded r s t) (hp : procOf s' r = procOf s r) (hc : claimIn s' r = claimIn s r)
    (hf : s'.out.fireFiltered = s.out.fireFiltered) (hl : s'.link.state = s.link.state) (hp' : procOf t' r = procOf t r)
    (hc' : claimIn t' r = claimIn t r) : FreezeEnded r s' t' := by
  unfold FreezeEnded at h ⊢
  rw [hp, hc, hf, hl, hp', hc']
  exact h

/-- The end of the freeze reaches both processes (R83). -/
theorem takeBoth_ended (hFreeze : s.claims.freeze = false) (r : Resource) : FreezeEnded r s (forBoth takeWaiting s) := by
  have hRelief : FreezeEnded .relief s (takeWaiting .relief s) := takeWaiting_ended hFreeze
  have hDefrost : FreezeEnded .defrost (takeWaiting .relief s) (takeWaiting .defrost (takeWaiting .relief s)) :=
    takeWaiting_ended (takeWaiting_freeze.trans hFreeze)
  cases r with
  | relief =>
    obtain ⟨hp, hc⟩ := takeWaiting_other (s := takeWaiting .relief s) (r := .defrost) (x := .relief) nofun
    exact hRelief.of_same rfl rfl rfl rfl hp hc
  | defrost =>
    obtain ⟨hp, hc⟩ := takeWaiting_other (s := s) (r := .relief) (x := .defrost) nofun
    exact hDefrost.of_same hp.symm hc.symm (by rw [takeWaiting_sameOut]) takeWaiting_linkState.symm rfl rfl

theorem takeBoth_works (s : State) : Works s (forBoth takeWaiting s) := takeWaiting_works _ (takeWaiting_works _ .refl)

theorem takeWaiting_list : (takeWaiting r s).claims.list = s.claims.list := by
  unfold takeWaiting
  dsimp only
  split
  · rw [beginAttempt_claims]; rfl
  · rfl

theorem takeWaiting_port : (takeWaiting r s).port = s.port := by
  unfold takeWaiting
  dsimp only
  split
  · rw [beginAttempt_port]
  · rfl

/-- The freeze as the last address leaves the fire set, before the waiting requests are taken. -/
def unfrozen (s : State) : State := post .shaftFreezeOff (s.setClaims { s.claims with fireSet := [], freeze := false })

theorem fireGone_of_last {a : Nat} (hSome : s.claims.fireSet ≠ []) (hRest : s.claims.fireSet.filter (fun e => e.1 != a) = []) :
    fireGone a s = forBoth takeWaiting (unfrozen s) := by
  unfold fireGone
  dsimp only
  rw [hRest]
  exact if_neg (by simpa using hSome)

theorem fireGone_of_more {a : Nat} (hRest : s.claims.fireSet.filter (fun e => e.1 != a) ≠ []) :
    fireGone a s = s.setClaims { s.claims with fireSet := s.claims.fireSet.filter fun e => e.1 != a } := by
  unfold fireGone
  dsimp only
  exact if_pos (by simp [hRest])

end

/-! ## The timers and ages (O49) -/

/-- What a new attempt leaves, and where its INTENT stands (R70, R71, R76). -/
theorem beginAttempt_pending (r : Resource) (n : Nat) (s : State) :
    (procOf (beginAttempt r n s) r).state = .pending ∧ (procOf (beginAttempt r n s) r).attempt = n
      ∧ (beginAttempt r n s).seq = s.seq ∧ (beginAttempt r n s).out = s.out
      ∧ (s.link.state ≠ .clashed → claimIn s r = none →
          claimIn (beginAttempt r n s) r = some (.intent r (ownAmount s.cfg r) s.cfg.ident.cls n (effective s r)))
      ∧ ∀ m, claimIn s r = some m → (beginAttempt r n s).link = s.link := by
  refine ⟨by rw [beginAttempt_proc], by rw [beginAttempt_proc], beginAttempt_seq .., beginAttempt_out ..,
    fun hLink hFree => beginAttempt_claimIn n hFree hLink, fun m hm => beginAttempt_link_of_taken n hm⟩

theorem removeRecord_list (a : Nat) (r : Resource) (s : State) :
    (removeRecord a r s).claims.list = s.claims.list.filter fun c => decide (¬(c.addr = a ∧ c.res = r)) := by
  refine List.filter_congr fun c _ => ?_
  rw [Bool.eq_iff_iff]
  simp [hasKey]

/-- Settles O49: a waiting request is taken by the same step wherever it waited. -/
theorem claimTimersAndAgesAct : Obligations.ClaimTimersAndAgesAct := by
  intro s r a
  refine ⟨fun h => congrArg Host.Outcome.next (if_neg (by rw [h]; decide)), fun hDue hFree => ?backoff, fun hDue hWaits => ?held,
    fun h => congrArg Host.Outcome.next (if_neg (by rw [h]; decide)), fun hDue hs => ?lockout,
    fun h => congrArg Host.Outcome.next (if_neg (by rw [h]; decide)), fun hClosed hRun hp hr hFree => ?waiting,
    fun h => congrArg Host.Outcome.next (if_neg (by rw [h]; decide)), fun hClosed hRun hp hSlot hLink => ?intent,
    fun h => congrArg Host.Outcome.next (if_neg (by rw [h]; decide)), fun x hClosed hRun hx hAge => ?record,
    fun h => congrArg Host.Outcome.next (if_neg (by rw [h]; decide)), fun hAged => ?fire⟩
  case backoff =>
    exact ⟨_, congrArg Host.Outcome.next ((if_pos hDue).trans (if_neg (by rw [not_heldBack hFree]; exact Bool.false_ne_true))),
      beginAttempt_pending r _ s⟩
  case held => exact congrArg Host.Outcome.next ((if_pos hDue).trans (if_pos (heldBack_iff.2 hWaits)))
  case lockout =>
    have hRunning : running s = true := by
      simp only [procDue, Bool.and_eq_true] at hDue
      exact hDue.1.1
    have hTaken : reported (toIdle r false s, [.starvedEnd r]) = startTest (toIdle r false s) :=
      if_neg (by rw [show running (toIdle r false s) = true from hRunning]; decide)
    refine ⟨_, congrArg Host.Outcome.next (if_pos hDue), ?_⟩
    rw [hTaken]
    exact settled_startTest (s := toIdle r false s) ((completionDue_congr rfl rfl).trans hs)
  case waiting =>
    have hDue : waitingDue s r = true := by
      simp [waitingDue, running, hClosed, hRun, hp, hr, not_heldBack hFree]
    have hTaken := takeWaiting_of_waiting hp hr (not_heldBack hFree)
    exact ⟨_, congrArg Host.Outcome.next ((if_pos hDue).trans hTaken), beginAttempt_pending r 1 s, by rw [beginAttempt_proc]⟩
  case intent =>
    have hDue : intentDue s r = true := by simp [intentDue, running, hClosed, hRun, hp, hSlot, hLink]
    exact congrArg Host.Outcome.next ((if_pos hDue).trans (queueIntent_of_free hSlot))
  case record =>
    have hDue : recordAged s a r = true := by
      have hAged : aged x.refreshed (recordLife s.cfg x) s.now = true := decide_eq_true hAge
      simp [recordAged, hx, running, hClosed, hRun, hAged]
    exact ⟨removeRecord a r s, congrArg Host.Outcome.next (if_pos hDue), rfl, removeRecord_list a r s, rfl, rfl⟩
  case fire =>
    have hSome : s.claims.fireSet ≠ [] := fun hNone => by
      unfold fireAged at hAged
      rw [hNone] at hAged
      cases hAged
    refine ⟨fireGone a s, congrArg Host.Outcome.next (if_pos hAged), ?_⟩
    by_cases hRest : s.claims.fireSet.filter (fun e => e.1 != a) = []
    · rw [fireGone_of_last hSome hRest]
      have hSame := (takeBoth_works (unfrozen s)).sameClaims
      have hList : (forBoth takeWaiting (unfrozen s)).claims.list = s.claims.list := takeWaiting_list.trans takeWaiting_list
      have hPort : (forBoth takeWaiting (unfrozen s)).port = (unfrozen s).port := takeWaiting_port.trans takeWaiting_port
      refine ⟨hSame.fireSet.trans hRest.symm, hList, fun h => absurd hSame.fireSet h, fun _ => ⟨hSame.freeze, fun hRoom => ?_,
        fun hp hr hf => ?_⟩⟩
      · unfold Posted
        rw [hPort]
        exact posted_post_of_room (s := s.setClaims _) hRoom _
      · obtain ⟨hPending, hAttempt, _⟩ := (takeBoth_ended (s := unfrozen s) rfl r).1 ⟨hp, hr, hf⟩
        exact ⟨hPending, hAttempt⟩
    · rw [fireGone_of_more hRest]
      exact ⟨rfl, rfl, fun _ => rfl, fun h => absurd h hRest⟩

end Sys2Proof.Machine
end

section
/-! PROOF. The start of the station's blocks: what the Sequencer's start and a FIRE level that is ASSERTED leave at the close (O22) and at
the completion of a RESTART (O32), and the acceptance of a RESTART (O31). -/

namespace Sys2Proof.Machine

section
variable {s t u : State}

/-! ## A completion that no ramp waits for (R170) -/

/-- Outside RAMPING the report of a completion changes nothing but that it is no longer outstanding. -/
theorem reportOnce_of_still (h : s.seq.transition = none ∨ s.seq.phase ≠ some .ramping) :
    reportOnce s = if completionDue s then s.setOut { s.out with completionPending := false } else s := by
  unfold reportOnce takeCompletion
  split
  · dsimp only
    split
    · rfl
    next x hx =>
      have hPhase : s.seq.phase ≠ some .ramping := h.resolve_left fun hn => by cases hn.symm.trans hx
      simp [hPhase]
  · rfl

theorem settleRamps_of_still (h : s.seq.transition = none ∨ s.seq.phase ≠ some .ramping) :
    ∃ b, settleRamps s = s.setOut { s.out with completionPending := b } := by
  by_cases hDue : completionDue s = true
  · refine ⟨false, ?_⟩
    have hOnce := reportOnce_of_still h
    rw [if_pos hDue] at hOnce
    have hNot : completionDue (s.setOut { s.out with completionPending := false }) = false := completionDue_of_not_pending rfl
    show reportAll 8 s = _
    rw [reportAll, if_pos hDue, hOnce, reportAll, hNot]
    rfl
  · exact ⟨s.out.completionPending, settleRamps_of_not_due (Bool.not_eq_true _ ▸ hDue)⟩

/-! ## The Sequencer's start (R28, R29) -/

/-- What the start of the Sequencer leaves, the completion it may bring included. -/
structure StartedSafe (s t : State) : Prop where
  seq : t.seq = { Sequencer.reset with mode := some .safe, phase := some .settled, demands := some (safeSet s.cfg) }
  link : t.link = s.link
  claims : t.claims = s.claims
  port : t.port = s.port
  decision : t.decision = s.decision
  band : t.band = s.band
  peers : t.peers = s.peers
  now : t.now = s.now
  seqSet : t.out.seqSet = some (safeSet s.cfg)
  posting : t.out.posting = nextPosting s.out.posting
  fire : t.out.fire = s.out.fire
  guard : t.out.guard = s.out.guard
  manual : t.out.manual = s.out.manual
  filtered : t.out.fireFiltered = s.out.fireFiltered
  since : t.out.fireSince = s.out.fireSince
  limits : SameLimits s.limits t.limits
  present : ∀ ch, chGet t.out.present ch = settledAt s.cfg
    { s.out with seqSet := some (safeSet s.cfg), posting := nextPosting s.out.posting, completionPending := true } ch

theorem postSet_present (d : DemandSet) (s : State) (ch : Channel) : chGet (postSet d s).out.present ch =
    settledAt s.cfg { s.out with seqSet := some d, posting := nextPosting s.out.posting, completionPending := true } ch :=
  changeDemands_present (fun o => { o with seqSet := some d, posting := nextPosting o.posting, completionPending := true })
    (s.setSeq { s.seq with demands := some d }) ch

theorem sequencerStart_started (s : State) : StartedSafe s (sequencerStart s) := by
  have hMoved := postSet_moved (safeSet s.cfg) (s.setSeq { Sequencer.reset with mode := some .safe, phase := some .settled })
  have hOut : (sequencerStart s).out = _ := hMoved.out
  constructor
  case seq => exact sequencerStart_seq s
  case link => exact hMoved.link
  case claims => exact hMoved.claims
  case port => exact hMoved.port
  case decision => exact hMoved.decision
  case band => exact hMoved.band
  case peers => exact hMoved.peers
  case now => exact hMoved.now
  case limits => exact hMoved.limits
  case present => exact fun ch => postSet_present _ _ ch
  all_goals rw [hOut]; rfl

theorem sequencerStart_transition (s : State) : (sequencerStart s).seq.transition = none := by rw [sequencerStart_seq]; rfl

theorem StartedSafe.settled (h : StartedSafe s t) : StartedSafe s (settleRamps t) := by
  obtain ⟨b, hb⟩ := settleRamps_of_still (s := t) (.inl (by rw [h.seq]; rfl))
  rw [hb]
  exact ⟨h.seq, h.link, h.claims, h.port, h.decision, h.band, h.peers, h.now, h.seqSet, h.posting, h.fire, h.guard, h.manual, h.filtered,
    h.since, h.limits, h.present⟩

theorem StartedSafe.relinked (h : StartedSafe s t) (l : Link) {p : Port} (hp : p.cfg = s.port.cfg) :
    StartedSafe ((s.setLink l).setPort p) ((t.setLink l).setPort p) := by
  have hCfg : ((s.setLink l).setPort p).cfg = s.cfg := hp
  constructor
  case seq => rw [hCfg]; exact h.seq
  case seqSet => rw [hCfg]; exact h.seqSet
  case present => rw [hCfg]; exact h.present
  case claims => exact h.claims
  case decision => exact h.decision
  case band => exact h.band
  case peers => exact h.peers
  case now => exact h.now
  case link => rw [State.setPort_link, State.setPort_link, State.setLink_link, State.setLink_link]
  case port => rw [State.setPort_port, State.setPort_port]
  case posting => exact h.posting
  case fire => exact h.fire
  case guard => exact h.guard
  case manual => exact h.manual
  case filtered => exact h.filtered
  case since => exact h.since
  case limits => exact h.limits

/-! ## FIRE at a start (R174, R175) -/

theorem queueBeacon_of_unlinked (h : s.link.state ≠ .online) (h' : s.link.state ≠ .quiet) : queueBeacon s = s := by
  unfold queueBeacon
  exact if_pos (by simp [h, h'])

theorem setPhase_of_unlinked (p : Phase) (h : s.link.state ≠ .online) (h' : s.link.state ≠ .quiet) :
    setPhase p s = s.setSeq { s.seq with phase := some p } := by
  unfold setPhase
  split
  next hp => rw [← hp]; rfl
  · exact queueBeacon_of_unlinked (s := s.setSeq _) h h'

theorem setProc_self (r : Resource) (s : State) : setProc r (procOf s r) s = s := by cases r <;> rfl

theorem fireProc_of_idle {r : Resource} (hp : (procOf s r).state = .idle) (hr : (procOf s r).request = false) : fireProc r s = s := by
  have hSame : ({ procOf s r with request := false } : Process) = procOf s r := (procOf_self_request hr).symm
  unfold fireProc
  dsimp only
  split
  case h_1 => rw [hSame, setProc_self]
  all_goals next h => cases hp.symm.trans h

/-- A station that has just started: SETTLED with no transition, no claim of its own, and a link that takes no BEACON. -/
structure JustStarted (s : State) : Prop where
  running : running s = true
  phase : s.seq.phase = some .settled
  transition : s.seq.transition = none
  idle : ∀ r, (procOf s r).state = .idle
  request : ∀ r, (procOf s r).request = false
  online : s.link.state ≠ .online
  quiet : s.link.state ≠ .quiet

/-- What an ASSERTED level leaves of a station that has just started. -/
structure FireTaken (s t : State) : Prop where
  seq : t.seq = { s.seq with
    phase := some .suspended, record := none, transition := none, rampPosting := none, waitSet := [], followTimer := none }
  link : t.link = s.link
  claims : t.claims = s.claims
  port : t.port = (post (.fireAsserted s.cfg.outputs.fire) s).port
  decision : t.decision = s.decision
  band : t.band = s.band
  peers : t.peers = s.peers
  now : t.now = s.now
  seqSet : t.out.seqSet = s.out.seqSet
  posting : t.out.posting = s.out.posting
  fire : t.out.fire = s.cfg.outputs.fire
  guard : t.out.guard = s.out.guard
  manual : t.out.manual = s.out.manual
  filtered : t.out.fireFiltered = s.out.fireFiltered
  since : t.out.fireSince = s.out.fireSince
  limits : SameLimits s.limits t.limits
  present : ∀ ch, chGet t.out.present ch = settledAt s.cfg { s.out with fire := s.cfg.outputs.fire } ch

/-- The Sequencer of a station that has just started, suspended (R51). -/
def justSuspended (s : State) : State := s.setSeq { s.seq with
  phase := some .suspended, record := none, transition := none, rampPosting := none, waitSet := [], followTimer := none }

theorem post_port_congr (hPort : t.port = s.port) (hNow : t.now = s.now) (b : NoticeBody) : (post b t).port = (post b s).port := by
  simp only [post, State.setPort_port, hPort, stampNow, uptime, hNow]

/-- The Output Unit at an assertion (R175): the fire demands and the notice alone. -/
structure FireDemanded (s t : State) : Prop where
  seq : t.seq = s.seq
  link : t.link = s.link
  claims : t.claims = s.claims
  port : t.port = (post (.fireAsserted s.cfg.outputs.fire) s).port
  decision : t.decision = s.decision
  band : t.band = s.band
  peers : t.peers = s.peers
  now : t.now = s.now
  limits : SameLimits s.limits t.limits
  out : t.out = { s.out with
    fire := s.cfg.outputs.fire, present := t.out.present, acc := t.out.acc, wheelRun := t.out.wheelRun }
  present : ∀ ch, chGet t.out.present ch = settledAt s.cfg { s.out with fire := s.cfg.outputs.fire } ch

theorem outputsFireAsserted_taken (s : State) : FireDemanded s (outputsFireAsserted s) := by
  have hMoved := changeDemands_moved (fun o => { o with fire := s.cfg.outputs.fire }) s
  have hPresent := changeDemands_present (fun o => { o with fire := s.cfg.outputs.fire }) s
  unfold outputsFireAsserted
  generalize changeDemands (fun o => { o with fire := s.cfg.outputs.fire }) s = v at *
  rw [post_eq]
  constructor
  case seq => exact hMoved.seq
  case link => exact hMoved.link
  case claims => exact hMoved.claims
  case port => rw [State.setPort_port]; exact post_port_congr hMoved.port hMoved.now _
  case decision => exact hMoved.decision
  case band => exact hMoved.band
  case peers => exact hMoved.peers
  case now => exact hMoved.now
  case limits => exact hMoved.limits
  case out => exact hMoved.out
  case present => exact hPresent

theorem assertFire_of_started (h : JustStarted s) : FireTaken s (assertFire s) := by
  have hRecord : suspensionOf s = none := by unfold suspensionOf; rw [h.transition]
  have hSuspend : suspend s = justSuspended s := by
    rw [suspend_eq (by rw [h.phase]; exact nofun) (by rw [h.phase]; exact nofun), hRecord]
    exact setPhase_of_unlinked (s := s.setSeq _) _ h.online h.quiet
  have hProcs : forBoth fireProc (justSuspended s) = justSuspended s := by
    have hEach (r : Resource) : fireProc r (justSuspended s) = justSuspended s :=
      fireProc_of_idle (s := justSuspended s) (h.idle r) (h.request r)
    unfold forBoth
    rw [hEach, hEach]
  have hAssert : assertFire s = settleRamps (outputsFireAsserted (justSuspended s)) := by
    unfold assertFire
    dsimp only
    rw [if_pos h.running, hSuspend, hProcs]
  have hTaken := outputsFireAsserted_taken (justSuspended s)
  obtain ⟨b, hb⟩ := settleRamps_of_still (s := outputsFireAsserted (justSuspended s)) (.inl (by rw [hTaken.seq]; rfl))
  have hCfg : (justSuspended s).cfg = s.cfg := rfl
  have hOut : (justSuspended s).out = s.out := by rw [justSuspended, State.setSeq_out]
  rw [hAssert, hb]
  constructor
  case seq => rw [State.setOut_seq, hTaken.seq, justSuspended, State.setSeq_seq]
  case link => rw [State.setOut_link, hTaken.link, justSuspended, State.setSeq_link]
  case claims => rw [State.setOut_claims, hTaken.claims, justSuspended, State.setSeq_claims]
  case port =>
    rw [State.setOut_port, hTaken.port, hCfg]
    exact post_port_congr (by rw [justSuspended, State.setSeq_port]) (by rw [justSuspended, State.setSeq_now]) _
  case decision => rw [State.setOut_decision, hTaken.decision, justSuspended, State.setSeq_decision]
  case band => rw [State.setOut_band, hTaken.band, justSuspended, State.setSeq_band]
  case peers => rw [State.setOut_peers, hTaken.peers, justSuspended, State.setSeq_peers]
  case now => rw [State.setOut_now, hTaken.now, justSuspended, State.setSeq_now]
  case limits =>
    rw [State.setOut_limits]
    have hLimits := hTaken.limits
    rw [show (justSuspended s).limits = s.limits by rw [justSuspended, State.setSeq_limits]] at hLimits
    exact hLimits
  case present =>
    intro ch
    rw [State.setOut_out]
    have hPresent := hTaken.present ch
    rw [hCfg, hOut] at hPresent
    exact hPresent
  case seqSet => rw [State.setOut_out, hTaken.out, hOut]
  case posting => rw [State.setOut_out, hTaken.out, hOut]
  case fire => rw [State.setOut_out, hTaken.out, hCfg]
  case guard => rw [State.setOut_out, hTaken.out, hOut]
  case manual => rw [State.setOut_out, hTaken.out, hOut]
  case filtered => rw [State.setOut_out, hTaken.out, hOut]
  case since => rw [State.setOut_out, hTaken.out, hOut]

/-- What an ASSERTED level leaves of a station that has just started is what it leaves of each part, whatever the level. -/
structure LevelTaken (s t : State) : Prop where
  seq : t.seq = { s.seq with
    phase := some (if s.out.fireFiltered then .suspended else .settled), record := none, transition := none, rampPosting := none
    waitSet := [], followTimer := none }
  link : t.link = s.link
  claims : t.claims = s.claims
  port : t.port = if s.out.fireFiltered then (post (.fireAsserted s.cfg.outputs.fire) s).port else s.port
  decision : t.decision = s.decision
  band : t.band = s.band
  peers : t.peers = s.peers
  now : t.now = s.now
  seqSet : t.out.seqSet = s.out.seqSet
  posting : t.out.posting = s.out.posting
  guard : t.out.guard = s.out.guard
  manual : t.out.manual = s.out.manual
  filtered : t.out.fireFiltered = s.out.fireFiltered
  since : t.out.fireSince = s.out.fireSince
  limits : SameLimits s.limits t.limits
  fire : t.out.fire = if s.out.fireFiltered then s.cfg.outputs.fire else s.out.fire
  present : ∀ ch, chGet t.out.present ch =
    if s.out.fireFiltered then settledAt s.cfg { s.out with fire := s.cfg.outputs.fire } ch else chGet s.out.present ch

theorem assertIfFire_taken (h : JustStarted s) (hSeq : s.seq = { Sequencer.reset with
    mode := s.seq.mode, phase := some .settled, demands := s.seq.demands }) : LevelTaken s (assertIfFire s) := by
  unfold assertIfFire
  by_cases hf : s.out.fireFiltered = true
  · have hTaken := assertFire_of_started h
    rw [if_pos hf]
    constructor
    case seq => rw [hTaken.seq, if_pos hf]
    case port => rw [hTaken.port, if_pos hf]
    case fire => rw [hTaken.fire, if_pos hf]
    case present => intro ch; rw [hTaken.present, if_pos hf]
    case link => exact hTaken.link
    case claims => exact hTaken.claims
    case decision => exact hTaken.decision
    case band => exact hTaken.band
    case peers => exact hTaken.peers
    case now => exact hTaken.now
    case seqSet => exact hTaken.seqSet
    case posting => exact hTaken.posting
    case guard => exact hTaken.guard
    case manual => exact hTaken.manual
    case filtered => exact hTaken.filtered
    case since => exact hTaken.since
    case limits => exact hTaken.limits
  · rw [if_neg hf]
    constructor
    case seq => rw [if_neg hf, hSeq]; rfl
    case port => rw [if_neg hf]
    case fire => rw [if_neg hf]
    case present => intro ch; rw [if_neg hf]
    case limits => exact .refl _
    all_goals rfl

theorem StartedSafe.justStarted (h : StartedSafe s t) (hc : s.port.closed = true) (hr : s.port.restarting = false)
    (hProc : s.claims.proc = ClaimUnit.reset.proc) (hOnline : s.link.state ≠ .online) (hQuiet : s.link.state ≠ .quiet) :
    JustStarted t := by
  have hEach (r : Resource) : procOf t r = resGet ClaimUnit.reset.proc r := by rw [procOf, h.claims, hProc]
  exact {
    running := running_iff.2 ⟨by rw [h.port]; exact hc, by rw [h.port]; exact hr⟩
    phase := by rw [h.seq]
    transition := by rw [h.seq]; rfl
    idle := fun r => by rw [hEach]; cases r <;> rfl
    request := fun r => by rw [hEach]; cases r <;> rfl
    online := by rw [h.link]; exact hOnline
    quiet := by rw [h.link]; exact hQuiet }

/-- A started station that has taken the level of the FIRE input: what it leaves of the state it started from. -/
theorem StartedSafe.levelTaken (h : StartedSafe s t) (hStarted : JustStarted t) : LevelTaken t (assertIfFire t) :=
  assertIfFire_taken hStarted (by rw [h.seq])

/-! ## Where the outputs stand -/

/-- A fire position that is configured wins its channel where the Sequencer's level is below it (R164, R165). -/
theorem winner_fire {c : Settings} {o : OutputUnit} {ch : Channel} {p : Nat} (hFire : chGet o.fire ch = some p)
    (hGuard : chGet o.guard ch = none) (hManual : chGet o.manual ch = none) (hLevel : c.outputs.lvlSeq ≤ 3) :
    winner c o ch = some .fire := by
  refine winner_eq_some_iff.2 ⟨by rw [show demandOf o ch .fire = some p from hFire]; exact nofun, fun x hx => ?_⟩
  cases x
  case fire => exact .inr ⟨rfl, Nat.le_refl _⟩
  case guard => exact absurd (by simp [demandOf, hGuard]) hx
  case manual => exact absurd (by simp [demandOf, hManual]) hx
  case sequencer => exact .inl (show c.outputs.lvlSeq < 4 from Nat.lt_succ_of_le hLevel)

theorem settledAt_fire {c : Settings} {o : OutputUnit} {ch : Channel} {p : Nat} (hFire : chGet o.fire ch = some p)
    (hWins : winner c o ch = some .fire) : settledAt c o ch = p := by
  refine settledAt_of_jump ((aim_of_winner hWins).trans ?_)
  rw [show demandOf o ch .fire = some p from hFire]
  rfl

/-- With neither fire nor guard demands no channel jumps. -/
theorem settledAt_of_unjumped {c : Settings} {o : OutputUnit} (ch : Channel) (hFire : chGet o.fire ch = none)
    (hGuard : chGet o.guard ch = none) : settledAt c o ch = chGet o.present ch := by
  refine settledAt_of_slewed fun d hd => ?_
  rcases Option.eq_none_or_eq_some (winner c o ch) with hw | ⟨src, hw⟩
  · rw [aim, hw] at hd
    cases hd
  · rw [aim_of_winner hw] at hd
    obtain ⟨x, hx, hPair⟩ := Option.map_eq_some_iff.1 hd
    have hJump : jumps o ch src = true := (Prod.mk.inj hPair).2
    rcases jumps_iff.1 hJump with rfl | ⟨rfl, _⟩
    · rw [show demandOf o ch .fire = none from hFire] at hx; cases hx
    · rw [demandOf, hGuard] at hx; cases hx

/-! ## Notices in a row -/

theorem postAll_of_room (l : List NoticeBody) (h : s.port.notices.length + l.length ≤ noticeCapacity) :
    (postAll l s).port.notices = s.port.notices ++ l.map (fun b => noticeNow b s)
      ∧ (postAll l s).port.overflow = s.port.overflow := by
  induction l generalizing s with
  | nil => exact ⟨(List.append_nil _).symm, rfl⟩
  | cons b rest ih =>
    have hRoom : HasRoom s := by
      unfold HasRoom
      rw [List.length_cons] at h
      omega
    have hPost := post_of_room hRoom b
    have hNotices : (post b s).port.notices = s.port.notices ++ [noticeNow b s] := by rw [hPost]; rfl
    have hOverflow : (post b s).port.overflow = s.port.overflow := by rw [hPost]; rfl
    obtain ⟨hRest, hFlag⟩ := ih (s := post b s) (by
      rw [hNotices, List.length_append, List.length_singleton]
      rw [List.length_cons] at h
      omega)
    refine ⟨?_, hFlag.trans hOverflow⟩
    refine hRest.trans ?_
    rw [hNotices, List.append_assoc]
    rfl

theorem postAll_eq (l : List NoticeBody) (s : State) : postAll l s = s.setPort { s.port with
    notices := (postAll l s).port.notices, overflow := (postAll l s).port.overflow, attn := (postAll l s).port.attn } := by
  induction l generalizing s with
  | nil => rfl
  | cons b rest ih => exact ih (post b s)

/-! ## The close (R201 to R203) -/

/-- The link's starting state (R112). -/
def startedLink (s : State) : Link :=
  if s.link.offlineWish then s.link
  else { s.link with state := .joining, joinTimer := some (s.now + 2 * secs s.cfg.line.tBCN), failCount := 0, failSlot := none }

theorem linkStart_eq (s : State) : linkStart s = s.setLink (startedLink s) := by
  unfold linkStart startedLink
  split <;> rfl

/-- The blocks in their starting states, the Sequencer's yet to come. -/
def readied (s : State) : State :=
  ((((s.setLink (startedLink s)).setDecision { s.decision with timer := some (s.now + secs s.cfg.decision.tEVAL) }).setClaims
    (claimsStart s.cfg)).setBand { s.band with source := s.cfg.band.source }).setPeers { s.peers with lastFull := none }

theorem startBlocks_eq (s : State) : startBlocks s = settleRamps (sequencerStart (readied s)) := by
  unfold startBlocks
  dsimp only
  rw [linkStart_eq]
  rfl

/-- The station with its configuration closed, before the blocks start. -/
def closing (s : State) : State := s.setPort { s.port with cfg := (closeChecks s.cfg).1, closed := true }

theorem readied_now (s : State) : (readied s).now = s.now := by
  simp [readied]

theorem readied_out (s : State) : (readied s).out = s.out := by
  simp [readied]

theorem readied_port (s : State) : (readied s).port = s.port := by
  simp [readied]

theorem readied_link (s : State) : (readied s).link = startedLink s := by
  simp [readied]

theorem readied_decision (s : State) : (readied s).decision = { s.decision with timer := some (s.now + secs s.cfg.decision.tEVAL) } := by
  simp [readied]

theorem readied_claims (s : State) : (readied s).claims = claimsStart s.cfg := by
  simp [readied]

theorem readied_band (s : State) : (readied s).band = { s.band with source := s.cfg.band.source } := by
  simp [readied]

theorem readied_peers (s : State) : (readied s).peers = { s.peers with lastFull := none } := by
  simp [readied]

theorem readied_cfg (s : State) : (readied s).cfg = s.cfg := by rw [State.cfg, readied_port, State.cfg]

theorem closing_cfg (s : State) : (closing s).cfg = (closeChecks s.cfg).1 := by rw [State.cfg, closing, State.setPort_port]

theorem closing_now (s : State) : (closing s).now = s.now := by rw [closing, State.setPort_now]

theorem closing_out (s : State) : (closing s).out = s.out := by rw [closing, State.setPort_out]

theorem closing_link (s : State) : (closing s).link = s.link := by rw [closing, State.setPort_link]

theorem replyOk_eq (s : State) : replyOk s = s.setPort { s.port with reply := some ⟨.ok, .none⟩ } := rfl

theorem closeConfig_eq (s : State) : closeConfig s =
    replyOk (postAll ((closeChecks s.cfg).2.map .configAdjusted) (assertIfFire (startBlocks (closing s)))) := rfl

theorem replyOk_setPort {p : Port} (h : t = s.setPort p) : replyOk t = s.setPort (replyOk t).port := by
  subst h
  rfl

theorem closeConfig_setPort (s : State) :
    closeConfig s = (assertIfFire (startBlocks (closing s))).setPort (closeConfig s).port := by
  rw [closeConfig_eq]
  exact replyOk_setPort (postAll_eq _ _)

theorem length_change_le (c d : Settings) (k : CfgItem) : (change c d k).length ≤ 1 := by
  cases k
  case numeric i => rw [change]; cases (getNum c i).bind _ <;> simp
  case followList => rw [change]; split <;> simp
  case filter n => rw [change]; split <;> simp
  all_goals exact Nat.zero_le _

theorem length_adjustments_le (c : Settings) : (closeChecks c).2.length ≤ 13 := by
  have hBound (items : List CfgItem) : (items.flatMap (change c (settledConfig c))).length ≤ items.length := by
    induction items with
    | nil => exact Nat.le_refl _
    | cons k rest ih =>
      have hOne := length_change_le c (settledConfig c) k
      rw [List.flatMap_cons, List.length_append, List.length_cons]
      omega
  rw [closeChecks_eq]
  exact hBound closeItems

theorem closeChecks_outputs (c : Settings) : (closeChecks c).1.outputs = c.outputs := by rw [closeChecks_eq]; rfl

/-- The close before the notices of its checks: the blocks started and the FIRE level taken. -/
theorem closing_started (hs : BeforeClose s) (ho : s.port.closed = false) :
    StartedSafe (readied (closing s)) (startBlocks (closing s))
      ∧ LevelTaken (startBlocks (closing s)) (assertIfFire (startBlocks (closing s))) := by
  obtain ⟨hRestart, -, -, -, -, hLink, -, -, -, -, -, -, -⟩ := hs ho
  have hStart : StartedSafe (readied (closing s)) (startBlocks (closing s)) := by
    rw [startBlocks_eq]
    exact (sequencerStart_started _).settled
  have hState : (startedLink (closing s)).state = .offline ∨ (startedLink (closing s)).state = .joining := by
    unfold startedLink
    split
    · exact .inl (congrArg Link.state hLink)
    · exact .inr rfl
  refine ⟨hStart, hStart.levelTaken (hStart.justStarted rfl hRestart rfl (fun h => ?_) fun h => ?_)⟩ <;>
    rcases hState with h' | h' <;> cases h.symm.trans h'

theorem LevelTaken.port_of_room (h : LevelTaken s t) (hRoom : HasRoom s) : t.port = { s.port with
    notices := s.port.notices ++ if s.out.fireFiltered then [noticeNow (.fireAsserted s.cfg.outputs.fire) s] else []
    attn := t.port.attn } := by
  rw [h.port]
  split
  · rw [post_of_room hRoom]
    rfl
  · rw [List.append_nil]

theorem postAll_port (l : List NoticeBody) (h : s.port.notices.length + l.length ≤ noticeCapacity) :
    (postAll l s).port =
      { s.port with notices := s.port.notices ++ l.map (fun b => noticeNow b s), attn := (postAll l s).port.attn } := by
  obtain ⟨hNotices, hOverflow⟩ := postAll_of_room l h
  have hKept : (postAll l s).port = _ := congrArg State.port (postAll_eq l s)
  rw [hNotices, hOverflow] at hKept
  exact hKept

/-- The notices of the close-time checks, and the reply, put to a port (R196, R203). -/
theorem adjusted_port {c : Settings} {q : List Notice} {attn : Bool} {l : List Adjustment} {v : State} (hNow : v.now = s.now)
    (hPort : v.port = { s.port with cfg := c, closed := true, notices := q, attn := attn }) (hRoom : q.length + l.length ≤ noticeCapacity) :
    ∃ a, (replyOk (postAll (l.map .configAdjusted) v)).port = { s.port with
      cfg := c, closed := true, reply := some ⟨.ok, .none⟩, attn := a
      notices := q ++ l.map fun x => noticeNow (.configAdjusted x) s } := by
  have hNotices : v.port.notices = q := by rw [hPort]
  have hAll := postAll_port (l.map NoticeBody.configAdjusted) (s := v) (by rw [hNotices, List.length_map]; exact hRoom)
  have hStamps : (l.map NoticeBody.configAdjusted).map (fun b => noticeNow b v) = l.map fun x => noticeNow (.configAdjusted x) s := by
    rw [List.map_map]
    exact List.map_congr_left fun x _ => noticeNow_congr _ hNow
  rw [hStamps, hPort] at hAll
  rw [replyOk_eq, State.setPort_port, hAll]
  exact ⟨_, rfl⟩

/-- The Local Port after a close (R174, R203). -/
theorem closeConfig_port (hs : BeforeClose s) (ho : s.port.closed = false) : ∃ attn, (closeConfig s).port = { s.port with
    cfg := (closeChecks s.cfg).1, closed := true, reply := some ⟨.ok, .none⟩, attn := attn
    notices := (if s.out.fireFiltered then [noticeNow (.fireAsserted (closeChecks s.cfg).1.outputs.fire) s] else [])
      ++ (closeChecks s.cfg).2.map fun a => noticeNow (.configAdjusted a) s } := by
  obtain ⟨-, -, hNotices, -, -, -, -, -, -, -, -, -, -⟩ := hs ho
  obtain ⟨hStart, hLevel⟩ := closing_started hs ho
  have hPort : (startBlocks (closing s)).port = { s.port with cfg := (closeChecks s.cfg).1, closed := true } := by
    rw [hStart.port, readied_port, closing, State.setPort_port]
  have hNow : (startBlocks (closing s)).now = s.now := by rw [hStart.now, readied_now, closing_now]
  have hFiltered : (startBlocks (closing s)).out.fireFiltered = s.out.fireFiltered := by
    rw [hStart.filtered, readied_out, closing_out]
  have hBound := length_adjustments_le s.cfg
  rw [closeConfig_eq]
  generalize startBlocks (closing s) = u at *
  have hSame : (assertIfFire u).now = s.now := hLevel.now.trans hNow
  have hEmpty : u.port.notices = [] := by rw [hPort]; exact hNotices
  have hRoom : HasRoom u := by unfold HasRoom; rw [hEmpty]; decide
  have hBefore := hLevel.port_of_room hRoom
  rw [hEmpty, List.nil_append, State.cfg, hPort, hFiltered, noticeNow_congr _ hNow] at hBefore
  dsimp only at hBefore
  have hLength : (if s.out.fireFiltered then [noticeNow (.fireAsserted (closeChecks s.cfg).1.outputs.fire) s] else []).length ≤ 1 := by
    split
    · exact Nat.le_refl 1
    · exact Nat.zero_le 1
  exact adjusted_port hSame hBefore (Nat.le_trans (Nat.add_le_add hLength hBound) (by decide))

/-- Every block's state after a close, but the Local Port's (R28, R57, R69, R112, R143, R162). -/
theorem closeConfig_blocks (hs : BeforeClose s) (ho : s.port.closed = false) :
    let c := (closeChecks s.cfg).1
    let t := closeConfig s
    t.link = startedLink (closing s)
      ∧ t.seq = { Sequencer.reset with
          mode := some .safe, phase := some (if s.out.fireFiltered then .suspended else .settled), demands := some (safeSet c) }
      ∧ t.decision = { Decision.reset with timer := some (s.now + secs c.decision.tEVAL) }
      ∧ t.claims = claimsStart c ∧ t.band = { Band.reset with source := c.band.source } ∧ t.peers.records = []
      ∧ t.out.seqSet = some (safeSet c) ∧ t.out.posting = 1 ∧ t.now = s.now
      ∧ t.out.fire = (if s.out.fireFiltered then c.outputs.fire else ⟨none, none, none⟩) := by
  obtain ⟨-, -, -, -, -, -, hPeers, hBand, hDecision, -, -, hOut, -⟩ := hs ho
  obtain ⟨hStart, hLevel⟩ := closing_started hs ho
  have hFiltered : (startBlocks (closing s)).out.fireFiltered = s.out.fireFiltered := by rw [hStart.filtered, readied_out, closing_out]
  have hCfg : (startBlocks (closing s)).cfg = (closeChecks s.cfg).1 := by
    rw [State.cfg, hStart.port, readied_port, ← State.cfg, closing_cfg]
  dsimp only
  rw [closeConfig_setPort]
  refine ⟨?link, ?seq, ?decision, ?claims, ?band, ?peers, ?seqSet, ?posting, ?now, ?fire⟩
  case link => rw [State.setPort_link, hLevel.link, hStart.link, readied_link]
  case seq => rw [State.setPort_seq, hLevel.seq, hStart.seq, hFiltered, readied_cfg, closing_cfg]; rfl
  case decision =>
    rw [State.setPort_decision, hLevel.decision, hStart.decision, readied_decision, closing_cfg, closing_now, closing,
      State.setPort_decision, hDecision]
  case claims => rw [State.setPort_claims, hLevel.claims, hStart.claims, readied_claims, closing_cfg]
  case band =>
    rw [State.setPort_band, hLevel.band, hStart.band, readied_band, closing_cfg, closing, State.setPort_band, hBand]
  case peers => rw [State.setPort_peers, hLevel.peers, hStart.peers, readied_peers, closing, State.setPort_peers, hPeers]; rfl
  case seqSet => rw [State.setPort_out, hLevel.seqSet, hStart.seqSet, readied_cfg, closing_cfg]
  case posting => rw [State.setPort_out, hLevel.posting, hStart.posting, readied_out, closing_out, hOut]; rfl
  case now => rw [State.setPort_now, hLevel.now, hStart.now, readied_now, closing_now]
  case fire =>
    rw [State.setPort_out, hLevel.fire, hFiltered, hCfg, hStart.fire, readied_out, closing_out, show s.out.fire = ⟨none, none, none⟩ by rw [hOut]; rfl]

/-- Where the outputs stand after a close (R162, R167). -/
theorem closeConfig_present (hs : BeforeClose s) (ho : s.port.closed = false) (ch : Channel) :
    (s.out.fireFiltered = false → chGet (closeConfig s).out.present ch = 0)
      ∧ (s.out.fireFiltered = true → s.cfg.outputs.lvlSeq ≤ 3 →
          ∀ p, chGet s.cfg.outputs.fire ch = some p → chGet (closeConfig s).out.present ch = p) := by
  obtain ⟨-, -, -, -, -, -, -, -, -, -, -, hOut, -⟩ := hs ho
  obtain ⟨hStart, hLevel⟩ := closing_started hs ho
  have hFiltered : (startBlocks (closing s)).out.fireFiltered = s.out.fireFiltered := by rw [hStart.filtered, readied_out, closing_out]
  have hCfg : (startBlocks (closing s)).cfg = (closeChecks s.cfg).1 := by
    rw [State.cfg, hStart.port, readied_port, ← State.cfg, closing_cfg]
  have hGuard : s.out.guard = ⟨none, none, none⟩ := by rw [hOut]; rfl
  have hManual : s.out.manual = ⟨none, none, none⟩ := by rw [hOut]; rfl
  have hFire : s.out.fire = ⟨none, none, none⟩ := by rw [hOut]; rfl
  have hPresent : s.out.present = ⟨0, 0, 0⟩ := by rw [hOut]; rfl
  rw [closeConfig_setPort, State.setPort_out, hLevel.present, hFiltered]
  constructor
  · intro hf
    rw [hf, if_neg Bool.false_ne_true, hStart.present, readied_out, closing_out]
    refine (settledAt_of_unjumped ch ?_ ?_).trans ?_
    · show chGet s.out.fire ch = none
      rw [hFire]
      cases ch <;> rfl
    · show chGet s.out.guard ch = none
      rw [hGuard]
      cases ch <;> rfl
    · show chGet s.out.present ch = 0
      rw [hPresent]
      cases ch <;> rfl
  · intro hf hLevelSeq p hp
    rw [hf, if_pos rfl, hCfg]
    have hPosition : chGet (closeChecks s.cfg).1.outputs.fire ch = some p := by rw [closeChecks_outputs]; exact hp
    refine settledAt_fire hPosition (winner_fire hPosition ?_ ?_ (by rw [closeChecks_outputs]; exact hLevelSeq))
    · show chGet (startBlocks (closing s)).out.guard ch = none
      rw [hStart.guard, readied_out, closing_out, hGuard]
      cases ch <;> rfl
    · show chGet (startBlocks (closing s)).out.manual ch = none
      rw [hStart.manual, readied_out, closing_out, hManual]
      cases ch <;> rfl

theorem perChannel_ext {α : Type} {p q : PerChannel α} (h : ∀ ch, chGet p ch = chGet q ch) : p = q := by
  obtain ⟨a, b, c⟩ := p
  obtain ⟨a', b', c'⟩ := q
  rw [show a = a' from h .oda, show b = b' from h .byp, show c = c' from h .whl]

/-- An identity that is not whole. -/
theorem missing_iff {α β γ : Type} (a : Option α) (b : Option β) (c : Option γ) :
    (a.isNone || b.isNone || c.isNone) = true ↔ ¬(a.isSome = true ∧ b.isSome = true ∧ c.isSome = true) := by
  rw [Bool.or_eq_true, Bool.or_eq_true, ← Option.not_isSome, ← Option.not_isSome, ← Option.not_isSome]
  cases a.isSome <;> cases b.isSome <;> cases c.isSome <;> decide

theorem execCfgClose_of_open (ho : s.port.closed = false) (ha : s.cfg.ident.addr.isSome = true) (hl : s.cfg.ident.level.isSome = true)
    (hShaft : s.cfg.ident.shaft.isSome = true) : exec .cfgClose s = .next (closeConfig s) := by
  show execCfgClose s = _
  unfold execCfgClose
  dsimp only
  rw [ho, if_neg Bool.false_ne_true, if_neg fun h => (missing_iff _ _ _).1 h ⟨ha, hl, hShaft⟩]

theorem closeConfig_wheel (hs : BeforeClose s) (ho : s.port.closed = false) : WheelSound (closeConfig s).out := by
  obtain ⟨-, -, -, -, -, -, -, -, -, -, -, hOut, -⟩ := hs ho
  refine (closeConfig_acts s whole_any).wheelSound ?_
  rw [State.setPort_out, hOut]
  rfl

/-- Settles O22. -/
theorem closeStartsTheStation : Obligations.CloseStartsTheStation := by
  unfold Obligations.CloseStartsTheStation
  intro s
  refine ⟨fun hc => ?again, fun ho hMissing => ?missing, fun ho hs ha hl hShaft => ?close⟩
  case again => show execCfgClose s = _; unfold execCfgClose; dsimp only; rw [if_pos hc]; rfl
  case missing =>
    show execCfgClose s = _
    unfold execCfgClose
    dsimp only
    rw [if_neg (by rw [ho]; exact nofun), if_pos]
    · rfl
    · exact (missing_iff _ _ _).2 hMissing
  case close =>
    obtain ⟨hRestart, hMeas, -, hOverflow, -, hLink, -, -, -, -, -, hOut, -⟩ := hs ho
    obtain ⟨attn, hPort⟩ := closeConfig_port hs ho
    obtain ⟨hL, hSeq, hDecision, hClaims, hBand, hPeers, hSeqSet, hPosting, hNow, hFire⟩ := closeConfig_blocks hs ho
    refine ⟨_, execCfgClose_of_open ho ha hl hShaft, ?_⟩
    generalize hc : (closeChecks s.cfg).1 = c at *
    have hPresent := closeConfig_present hs ho
    have hWheel := closeConfig_wheel hs ho
    have hPending : (closeConfig s).pending = s.pending := (closeConfig_acts s whole_any).pending
    generalize closeConfig s = t at *
    have hStarted : startedLink (closing s) = if s.link.offlineWish then s.link
        else { s.link with state := .joining, joinTimer := some (s.now + 2 * (c.line.tBCN * 1000)), failCount := 0, failSlot := none } := by
      unfold startedLink
      rw [closing_link, closing_now, closing_cfg, hc]
      rfl
    rw [hStarted] at hL
    refine ⟨?_, ?_, ?_, ?_, ?_, ?_, ?_, ?_, ?_, ?_, ?_, ?_, ?_, ?_, hSeq, hDecision, hClaims, hBand, hPeers, hSeqSet, hPosting, ?_, ?_, hNow,
      hPending⟩
    · rw [State.cfg, hPort]
    · rw [hPort]
    · rw [hPort]; exact hRestart
    · rw [hPort]
    · rw [hPort]; rfl
    · rw [hPort]; exact hOverflow
    · rw [hPort]; exact hMeas
    · rw [hL]; split <;> rfl
    · intro hw
      rw [hL, if_pos hw, hLink]
      exact ⟨rfl, rfl⟩
    · intro hw
      rw [hL, if_neg (by rw [hw]; exact nofun)]
      exact ⟨rfl, rfl⟩
    · rw [hL, hLink]; split <;> rfl
    · rw [hL, hLink]; split <;> rfl
    · rw [hL, hLink]; split <;> rfl
    · rw [hL, hLink]; split <;> rfl
    · intro hf
      have hZero : t.out.present = ⟨0, 0, 0⟩ := by
        refine perChannel_ext fun ch => ((hPresent ch).1 hf).trans ?_
        cases ch <;> rfl
      refine ⟨hZero, ?_, ?_⟩
      · rw [show t.out.wheelRun = _ from hWheel, hZero]; rfl
      · rw [hFire, hf]; rfl
    · intro hf hLevel
      have hSame : c.outputs = s.cfg.outputs := hc ▸ closeChecks_outputs s.cfg
      refine ⟨by rw [hFire, hf, ← hSame]; rfl, fun ch => (hPresent ch).2 hf hLevel⟩

end

end Sys2Proof.Machine
end

section
/-! PROOF. RESTART: its completion, which empties the stores, starts the Sequencer and takes the FIRE level again (O32), and its
acceptance, which releases what is held or completes at once (O31). -/

namespace Sys2Proof.Machine

section
variable {s t u : State}

/-! ## The completion (R213) -/

/-- The stores and tables of a RESTART's completion emptied. -/
def emptied (s : State) : State :=
  ((((portRestart s).setDecision { s.decision with setpoint := none, timer := some (s.now + secs s.cfg.decision.tEVAL) }).setPeers
    { records := [], lastFull := none }).setClaims (claimsStart s.cfg)).setBand { Band.reset with source := s.cfg.band.source }

theorem portRestart_room (s : State) :
    HasRoom (s.setPort (setNotices { s.port with meas := .empty } [] false)) := by
  unfold HasRoom
  exact Nat.zero_lt_succ 15

theorem portRestart_eq (s : State) : portRestart s = s.setPort { s.port with
    meas := .empty, notices := [noticeNow .restarted s], overflow := false
    attn := attnOf s.port.cfg.attnMask [noticeNow .restarted s] } := by
  unfold portRestart
  rw [post_of_room (portRestart_room s)]
  rfl

theorem portRestart_cfg (s : State) : (portRestart s).cfg = s.cfg := by rw [portRestart_eq]; rfl
theorem portRestart_now (s : State) : (portRestart s).now = s.now := by rw [portRestart_eq]; rfl

/-- The Link Controller at the completion, its queue empty and JOINING from any state (R111). -/
def joiningLink (s : State) : Link :=
  { stopTimers (clearQueue s.link) with
    state := .joining, joinTimer := some (s.now + 2 * secs s.cfg.line.tBCN), failCount := 0, failSlot := none }

theorem abortAttempt_offlineWish (l : Link) : (abortAttempt l).offlineWish = l.offlineWish := by unfold abortAttempt; split <;> rfl
theorem abortAttempt_attempt (l : Link) : (abortAttempt l).attempt = none := by
  unfold abortAttempt
  split
  next h => exact h
  · rfl

theorem joiningLink_eq (s : State) : joiningLink s = { Link.reset with
    state := .joining, joinTimer := some (s.now + 2 * (s.cfg.line.tBCN * 1000))
    sequence := s.link.sequence, offlineWish := s.link.offlineWish } := by
  rw [← abortAttempt_sequence s.link, ← abortAttempt_offlineWish s.link]
  have hAttempt := abortAttempt_attempt s.link
  unfold joiningLink stopTimers clearQueue Link.reset secs
  rw [hAttempt]

/-- The completion of a RESTART with the Sequencer started, before the FIRE level is taken. -/
def restarted (s : State) : State :=
  let s6 := sequencerStart (limitsRestart (emptied s))
  (s6.setLink (joiningLink s6)).setPort { s6.port with restarting := false }

theorem linkRestarted_eq (s : State) : linkRestarted s = s.setLink (joiningLink s) := rfl

theorem emptied_now (s : State) : (emptied s).now = s.now := by simp [emptied, portRestart_now]
theorem emptied_port (s : State) : (emptied s).port = (portRestart s).port := by simp [emptied]
theorem emptied_cfg (s : State) : (emptied s).cfg = s.cfg := by rw [State.cfg, emptied_port, ← State.cfg, portRestart_cfg]

theorem emptied_link (s : State) : (emptied s).link = s.link := by simp [emptied, portRestart_eq]
theorem emptied_out (s : State) : (emptied s).out = s.out := by simp [emptied, portRestart_eq]
theorem emptied_limits (s : State) : (emptied s).limits = s.limits := by simp [emptied, portRestart_eq]
theorem emptied_decision (s : State) : (emptied s).decision =
    { s.decision with setpoint := none, timer := some (s.now + secs s.cfg.decision.tEVAL) } := by simp [emptied]
theorem emptied_claims (s : State) : (emptied s).claims = claimsStart s.cfg := by simp [emptied]
theorem emptied_band (s : State) : (emptied s).band = { Band.reset with source := s.cfg.band.source } := by simp [emptied]
theorem emptied_peers (s : State) : (emptied s).peers = { records := [], lastFull := none } := by simp [emptied]

theorem completeRestart_eq (s : State) : completeRestart s = assertIfFire (settleRamps (restarted s)) := by
  unfold completeRestart
  dsimp only
  rw [linkRestarted_eq, evalFromNow, portRestart_now, portRestart_cfg]
  rfl

/-- The limits with every one of them CLEAR and the guards withdrawn (R195). -/
def limitsCleared (l : Limits) : Limits :=
  { l with supplyLow := .clear, frostTrip := .clear, stall := .clear, hold := false, posted := ⟨none, none, none⟩ }

/-- What the Limit Supervisor's step at the completion leaves (R195). -/
structure LimitsRestarted (s t : State) : Prop where
  seq : t.seq = s.seq
  link : t.link = s.link
  claims : t.claims = s.claims
  port : t.port = s.port
  decision : t.decision = s.decision
  band : t.band = s.band
  peers : t.peers = s.peers
  now : t.now = s.now
  guard : t.out.guard = ⟨none, none, none⟩
  posting : t.out.posting = s.out.posting
  filtered : t.out.fireFiltered = s.out.fireFiltered
  since : t.out.fireSince = s.out.fireSince
  limits : SameLimits (limitsCleared s.limits) t.limits

theorem limitsRestart_restarted (s : State) : LimitsRestarted s (limitsRestart s) := by
  have hMoved := changeDemands_moved (fun o => { o with guard := ⟨none, none, none⟩ }) (s.setLimits (limitsCleared s.limits))
  have hEq : ∃ l, limitsRestart s = (setGuards ⟨none, none, none⟩ (s.setLimits (limitsCleared s.limits))).setLimits
      { (setGuards ⟨none, none, none⟩ (s.setLimits (limitsCleared s.limits))).limits with stallTimer := l } := ⟨_, rfl⟩
  obtain ⟨l, hEq⟩ := hEq
  have hOut : (setGuards ⟨none, none, none⟩ (s.setLimits (limitsCleared s.limits))).out = _ := hMoved.out
  have hLimits : SameLimits (limitsCleared s.limits) (setGuards ⟨none, none, none⟩ (s.setLimits (limitsCleared s.limits))).limits :=
    hMoved.limits
  rw [hEq]
  constructor
  case seq => exact hMoved.seq
  case link => exact hMoved.link
  case claims => exact hMoved.claims
  case port => exact hMoved.port
  case decision => exact hMoved.decision
  case band => exact hMoved.band
  case peers => exact hMoved.peers
  case now => exact hMoved.now
  case limits =>
    rw [State.setLimits_limits]
    exact hLimits.trans rfl
  all_goals rw [State.setLimits_out, hOut]; rfl

/-- The Local Port at the completion, RESTART no longer waiting (R213). -/
theorem restarted_started (s : State) : StartedSafe
    (((limitsRestart (emptied s)).setLink (joiningLink s)).setPort { (portRestart s).port with restarting := false })
    (restarted s) := by
  have hLimits := limitsRestart_restarted (emptied s)
  have hStart := sequencerStart_started (limitsRestart (emptied s))
  have hPort : (sequencerStart (limitsRestart (emptied s))).port = (portRestart s).port := by
    rw [hStart.port, hLimits.port, emptied_port]
  have hLink : joiningLink (sequencerStart (limitsRestart (emptied s))) = joiningLink s := by
    unfold joiningLink
    rw [hStart.link, hLimits.link, emptied_link, hStart.now, hLimits.now, emptied_now, State.cfg, hPort, ← State.cfg, portRestart_cfg]
  have hRelinked := hStart.relinked (joiningLink s) (p := { (portRestart s).port with restarting := false }) (by
    rw [hLimits.port, emptied_port])
  unfold restarted
  dsimp only
  rw [hLink, hPort]
  exact hRelinked

/-- The state a RESTART's completion starts the Sequencer from. -/
def readiedAgain (s : State) : State :=
  ((limitsRestart (emptied s)).setLink (joiningLink s)).setPort { (portRestart s).port with restarting := false }

theorem readiedAgain_port (s : State) : (readiedAgain s).port = { (portRestart s).port with restarting := false } := by
  rw [readiedAgain, State.setPort_port]

theorem readiedAgain_cfg (s : State) : (readiedAgain s).cfg = s.cfg := by rw [State.cfg, readiedAgain_port, portRestart_eq]; rfl

theorem readiedAgain_link (s : State) : (readiedAgain s).link = joiningLink s := by
  rw [readiedAgain, State.setPort_link, State.setLink_link]

theorem readiedAgain_restarted (s : State) : LimitsRestarted ((emptied s).setLink (joiningLink s) |>.setPort (readiedAgain s).port)
    (readiedAgain s) := by
  have h := limitsRestart_restarted (emptied s)
  constructor
  case link => rw [readiedAgain_link, State.setPort_link, State.setLink_link]
  case port => rw [State.setPort_port]
  case seq => rw [readiedAgain, State.setPort_seq, State.setLink_seq, h.seq, State.setPort_seq, State.setLink_seq]
  case claims => rw [readiedAgain, State.setPort_claims, State.setLink_claims, h.claims, State.setPort_claims, State.setLink_claims]
  case decision =>
    rw [readiedAgain, State.setPort_decision, State.setLink_decision, h.decision, State.setPort_decision, State.setLink_decision]
  case band => rw [readiedAgain, State.setPort_band, State.setLink_band, h.band, State.setPort_band, State.setLink_band]
  case peers => rw [readiedAgain, State.setPort_peers, State.setLink_peers, h.peers, State.setPort_peers, State.setLink_peers]
  case now => rw [readiedAgain, State.setPort_now, State.setLink_now, h.now, State.setPort_now, State.setLink_now]
  case guard => rw [readiedAgain, State.setPort_out, State.setLink_out, h.guard]
  case posting => rw [readiedAgain, State.setPort_out, State.setLink_out, h.posting, State.setPort_out, State.setLink_out]
  case filtered => rw [readiedAgain, State.setPort_out, State.setLink_out, h.filtered, State.setPort_out, State.setLink_out]
  case since => rw [readiedAgain, State.setPort_out, State.setLink_out, h.since, State.setPort_out, State.setLink_out]
  case limits =>
    rw [readiedAgain, State.setPort_limits, State.setLink_limits, State.setPort_limits, State.setLink_limits]
    exact h.limits

theorem completion_taken (hc : s.port.closed = true) :
    StartedSafe (readiedAgain s) (settleRamps (restarted s)) ∧ LevelTaken (settleRamps (restarted s)) (completeRestart s) := by
  have hStart : StartedSafe (readiedAgain s) (settleRamps (restarted s)) := (restarted_started s).settled
  have hBase := readiedAgain_restarted s
  refine ⟨hStart, ?_⟩
  rw [completeRestart_eq]
  refine hStart.levelTaken (hStart.justStarted ?_ ?_ ?_ ?_ ?_)
  · rw [readiedAgain_port, portRestart_eq]; exact hc
  · rw [readiedAgain_port]
  · rw [hBase.claims, State.setPort_claims, State.setLink_claims, emptied_claims]; rfl
  · rw [readiedAgain_link, joiningLink_eq]; exact nofun
  · rw [readiedAgain_link, joiningLink_eq]; exact nofun

/-- What the completion leaves of the Local Port (R174, R213). -/
theorem completeRestart_port (hc : s.port.closed = true) : ∃ attn, (completeRestart s).port = { s.port with
    restarting := false, meas := .empty, overflow := false, attn := attn
    notices := noticeNow .restarted s ::
      if s.out.fireFiltered then [noticeNow (.fireAsserted s.cfg.outputs.fire) s] else [] } := by
  obtain ⟨hStart, hLevel⟩ := completion_taken hc
  have hBase := readiedAgain_restarted s
  have hNow : (settleRamps (restarted s)).now = s.now := by
    rw [hStart.now, hBase.now, State.setPort_now, State.setLink_now, emptied_now]
  have hFiltered : (settleRamps (restarted s)).out.fireFiltered = s.out.fireFiltered := by
    rw [hStart.filtered, hBase.filtered, State.setPort_out, State.setLink_out, emptied_out]
  have hPort : (settleRamps (restarted s)).port = { (portRestart s).port with restarting := false } := by
    rw [hStart.port, readiedAgain_port]
  have hQueue : (settleRamps (restarted s)).port.notices = [noticeNow .restarted s] := by rw [hPort, portRestart_eq]; rfl
  have hRoom : HasRoom (settleRamps (restarted s)) := by unfold HasRoom; rw [hQueue]; exact Nat.succ_lt_succ (Nat.zero_lt_succ 14)
  have hAll := hLevel.port_of_room hRoom
  rw [hQueue, hFiltered, noticeNow_congr _ hNow, State.cfg, hPort, portRestart_eq] at hAll
  exact ⟨_, hAll⟩

/-- Settles O32. -/
theorem restartCompletesWhenNoReleaseIsQueued : Obligations.RestartCompletesWhenNoReleaseIsQueued := by
  unfold Obligations.RestartCompletesWhenNoReleaseIsQueued
  intro s
  have hDone : restartDone s = true ↔ s.port.closed = true ∧ s.port.restarting = true ∧ releaseQueued s = false := by
    simp [restartDone, and_assoc]
  refine ⟨fun hNot => ?idle, fun hc hr hq => ?complete⟩
  case idle =>
    rw [show exec .restartCompletion s = .next (finishRestart s) from rfl, finishRestart, if_neg (mt hDone.1 hNot)]
  case complete =>
    obtain ⟨hStart, hLevel⟩ := completion_taken hc
    obtain ⟨attn, hPort⟩ := completeRestart_port hc
    have hBase := readiedAgain_restarted s
    have hFiltered : (settleRamps (restarted s)).out.fireFiltered = s.out.fireFiltered := by
      rw [hStart.filtered, hBase.filtered, State.setPort_out, State.setLink_out, emptied_out]
    have hSeq := hLevel.seq
    rw [hStart.seq, hFiltered, readiedAgain_cfg] at hSeq
    have hSet := hLevel.seqSet.trans hStart.seqSet
    rw [readiedAgain_cfg] at hSet
    have hLimits := (hBase.limits.trans hStart.limits).trans hLevel.limits
    rw [State.setPort_limits, State.setLink_limits, emptied_limits] at hLimits
    refine ⟨completeRestart s, by rw [show exec .restartCompletion s = .next (finishRestart s) from rfl, finishRestart,
      if_pos (hDone.2 ⟨hc, hr, hq⟩)], ?_⟩
    refine ⟨?_, ?_, ?_, ?_, ?_, ?_, ?_, ?_, ?_, ?_, ?_, ?_, ?_, hSeq, ?_, ?_, ?_, ?_, ?_, ?_⟩
    · rw [State.cfg, hPort]
    · rw [hPort]; exact hc
    · rw [hPort]
    · rw [hPort]
    · rw [hPort]
    · rw [hPort]
    · rw [hPort]; rfl
    · rw [hLevel.decision, hStart.decision, hBase.decision, State.setPort_decision, State.setLink_decision, emptied_decision]; rfl
    · rw [hLevel.peers, hStart.peers, hBase.peers, State.setPort_peers, State.setLink_peers, emptied_peers]
    · rw [hLevel.peers, hStart.peers, hBase.peers, State.setPort_peers, State.setLink_peers, emptied_peers]
    · rw [hLevel.claims, hStart.claims, hBase.claims, State.setPort_claims, State.setLink_claims, emptied_claims]; rfl
    · rw [hLevel.band, hStart.band, hBase.band, State.setPort_band, State.setLink_band, emptied_band]
    · rw [hLevel.link, hStart.link, readiedAgain_link, joiningLink_eq]
    · rw [hSet, hSeq]
    · rw [hLevel.posting, hStart.posting, hBase.posting, State.setPort_out, State.setLink_out, emptied_out]
    · rw [hLevel.guard, hStart.guard, hBase.guard]
    · rw [hLevel.filtered, hFiltered]
    · rw [hLevel.since, hStart.since, hBase.since, State.setPort_out, State.setLink_out, emptied_out]
    · rw [hLimits]
      exact ⟨rfl, rfl, rfl, rfl, rfl, rfl, rfl, rfl, rfl, rfl⟩

end

end Sys2Proof.Machine
end

section
/-! PROOF. The acceptance of a RESTART (O31): what each own process, the link and the Sequencer take, and the completion in the same event
where no RELEASE is queued. -/

namespace Sys2Proof.Machine

section
variable {s t u : State}

/-! ## The slots (R102, R104) -/

/-- A frame that leaves its slot leaves all but an attempt of it, its mark and the failure count's slot. -/
theorem dropFrame_eq (sl : Slot) (l : Link) : dropFrame sl l = { l with
    attempt := (dropFrame sl l).attempt, failSlot := (dropFrame sl l).failSlot
    beaconMark := (dropFrame sl l).beaconMark, alertMark := (dropFrame sl l).alertMark } := by
  unfold dropFrame
  dsimp only
  repeat' split
  all_goals rfl

theorem placeClaim_slots (m : ClaimMsg) (s : State) : (placeClaim m s).link.beaconSlot = s.link.beaconSlot
    ∧ (placeClaim m s).link.alertSlot = s.link.alertSlot ∧ (placeClaim m s).link.beaconTimer = s.link.beaconTimer := by
  unfold placeClaim
  split
  · exact ⟨rfl, rfl, rfl⟩
  · dsimp only
    rw [State.setLink_link, dropFrame_eq]
    exact ⟨rfl, rfl, rfl⟩

theorem clearClaimSlot_eq (r : Resource) (l : Link) : clearClaimSlot r l = { l with
    claimSlot := resSet l.claimSlot r none, attempt := (clearClaimSlot r l).attempt, failSlot := (clearClaimSlot r l).failSlot
    beaconMark := (clearClaimSlot r l).beaconMark, alertMark := (clearClaimSlot r l).alertMark } := by
  unfold clearClaimSlot
  dsimp only
  rw [dropFrame_eq]

/-- The claim frame a slot holds in a link. -/
def slotClaim (l : Link) (r : Resource) : Option ClaimMsg := (resGet l.claimSlot r).map (·.msg)

theorem clearClaimSlot_slot (r x : Resource) (l : Link) : slotClaim (clearClaimSlot r l) x = if x = r then none else slotClaim l x := by
  unfold slotClaim
  rw [clearClaimSlot_eq, resGet_resSet]
  split <;> rfl

theorem keepRelease_slot (r x : Resource) (l : Link) : slotClaim (keepRelease r l) x =
    if x = r ∧ isRelease (slotClaim l r) = false then none else slotClaim l x := by
  have hEq : keepRelease r l = if isRelease (slotClaim l r) = true then l else clearClaimSlot r l := rfl
  rw [hEq]
  by_cases h : isRelease (slotClaim l r) = true
  · rw [if_pos h, if_neg (by rw [h]; exact fun hx => nomatch hx.2)]
  · rw [if_neg h, clearClaimSlot_slot]
    have hFalse : isRelease (slotClaim l r) = false := Bool.not_eq_true _ ▸ h
    by_cases hx : x = r
    · rw [if_pos hx, if_pos ⟨hx, hFalse⟩]
    · rw [if_neg hx, if_neg fun hn => hx hn.1]

theorem keepRelease_kept (r : Resource) (l : Link) : (keepRelease r l).state = l.state ∧ (keepRelease r l).beaconSlot = l.beaconSlot
    ∧ (keepRelease r l).alertSlot = l.alertSlot := by
  unfold keepRelease
  split
  · exact ⟨rfl, rfl, rfl⟩
  · rw [clearClaimSlot_eq]; exact ⟨rfl, rfl, rfl⟩

/-- The link at the acceptance: no BEACON, no ALERT, no beacon timer, and no claim frame but a RELEASE (R100, R101, R111). -/
theorem linkRestart_kept (l : Link) : (linkRestart l).state = l.state ∧ (linkRestart l).beaconSlot = none
    ∧ (linkRestart l).alertSlot = none ∧ (linkRestart l).beaconTimer = none := by
  have hDefrost := keepRelease_kept .defrost (keepRelease .relief (clearAlert (clearBeacon l)))
  have hRelief := keepRelease_kept .relief (clearAlert (clearBeacon l))
  have hBeacon : (clearBeacon l).state = l.state ∧ (clearBeacon l).beaconSlot = none := by
    unfold clearBeacon; rw [dropFrame_eq]; exact ⟨rfl, rfl⟩
  have hAlert : (clearAlert (clearBeacon l)).state = (clearBeacon l).state
      ∧ (clearAlert (clearBeacon l)).beaconSlot = (clearBeacon l).beaconSlot ∧ (clearAlert (clearBeacon l)).alertSlot = none := by
    unfold clearAlert; rw [dropFrame_eq]; exact ⟨rfl, rfl, rfl⟩
  exact ⟨hDefrost.1.trans (hRelief.1.trans (hAlert.1.trans hBeacon.1)),
    hDefrost.2.1.trans (hRelief.2.1.trans (hAlert.2.1.trans hBeacon.2)), hDefrost.2.2.trans (hRelief.2.2.trans hAlert.2.2), rfl⟩

theorem linkRestart_slot (l : Link) (r : Resource) : slotClaim (linkRestart l) r =
    if isRelease (slotClaim l r) = true then slotClaim l r else none := by
  have hBase (x : Resource) : slotClaim (clearAlert (clearBeacon l)) x = slotClaim l x := by
    simp only [slotClaim, clearAlert, clearBeacon, dropFrame_claimSlot]
  show slotClaim (keepRelease .defrost (keepRelease .relief (clearAlert (clearBeacon l)))) r = _
  rw [keepRelease_slot, keepRelease_slot, keepRelease_slot, hBase, hBase, hBase]
  cases r with
  | relief => by_cases h : isRelease (slotClaim l .relief) = true <;> simp [h]
  | defrost => by_cases h : isRelease (slotClaim l .defrost) = true <;> simp [h]

/-! ## The own processes (R87) -/

/-- What the acceptance does to an own process. -/
def RestartTaken (r : Resource) (s t : State) : Prop :=
  (s.link.state = .online → holds (procOf s r) = true → (procOf s r).cause ≠ some .clash →
      (procOf t r).state = .releasing ∧ (procOf t r).request = false ∧ claimIn t r = some (.release r .restart))
    ∧ ((procOf s r).state = .pending ∨ (procOf s r).state = .holdoff ∨ (procOf s r).state = .committing
        ∨ (procOf s r).state = .backoff → (procOf t r).state = .idle ∧ (procOf t r).request = false)
    ∧ (s.link.state ≠ .online ∨ holds (procOf s r) = false → claimIn t r = claimIn s r)

/-- A process that does not release at a RESTART changes in its own record alone. -/
theorem restartProc_of_other {r : Resource} (h : s.link.state ≠ .online ∨ holds (procOf s r) = false) :
    ∃ q, restartProc r s = setProc r q s
      ∧ ((procOf s r).state = .pending ∨ (procOf s r).state = .holdoff ∨ (procOf s r).state = .committing
        ∨ (procOf s r).state = .backoff → q.state = .idle ∧ q.request = false) := by
  unfold restartProc
  dsimp only
  split
  case h_1 hs =>
    rw [if_neg (h.resolve_right (by rw [holds, hs]; decide))]
    exact ⟨_, rfl, by rw [hs]; simp⟩
  case h_2 hs =>
    rw [if_neg (by simp [h.resolve_right (by rw [holds, hs]; decide)])]
    exact ⟨_, rfl, by rw [hs]; simp⟩
  case h_3 hs => exact ⟨_, rfl, fun _ => ⟨rfl, rfl⟩⟩
  case h_4 hs => exact ⟨_, rfl, fun _ => ⟨rfl, rfl⟩⟩
  case h_5 hs => exact ⟨_, rfl, fun _ => ⟨rfl, rfl⟩⟩
  case h_6 hs => exact ⟨_, rfl, fun _ => ⟨rfl, rfl⟩⟩
  all_goals next hs => exact ⟨_, rfl, by rw [hs]; simp⟩

theorem restartProc_of_holding {r : Resource} (hOnline : s.link.state = .online) (hHolds : holds (procOf s r) = true) :
    (procOf s r).cause ≠ some .clash → restartProc r s = placeClaim (.release r .restart)
      (setProc r { procOf s r with state := .releasing, cause := none, request := false } s) := by
  intro hCause
  unfold restartProc
  dsimp only
  split
  case h_1 => rw [if_pos hOnline]
  case h_2 => rw [if_pos (by simp [hOnline, hCause])]
  all_goals next hs => rw [holds, hs] at hHolds; cases hHolds

theorem restartProc_taken (r : Resource) (s : State) : RestartTaken r s (restartProc r s) := by
  refine ⟨fun hOnline hHolds hCause => ?_, fun hAttempt => ?_, fun hOther => ?_⟩
  · rw [restartProc_of_holding hOnline hHolds hCause]
    have hState : (setProc r { procOf s r with state := .releasing, cause := none, request := false } s).link.state ≠ .clashed :=
      fun h => by cases hOnline.symm.trans h
    rw [procOf_placeClaim, procOf_setProc_same, claimIn_placeClaim _ _ hState]
    exact ⟨rfl, rfl, if_pos rfl⟩
  · have hHolds : holds (procOf s r) = false := by rcases hAttempt with h | h | h | h <;> rw [holds, h] <;> decide
    obtain ⟨q, hEq, hIdle⟩ := restartProc_of_other (.inr hHolds)
    rw [hEq, procOf_setProc_same]
    exact hIdle hAttempt
  · obtain ⟨q, hEq, -⟩ := restartProc_of_other hOther
    rw [hEq]
    rfl

theorem restartProc_eq (r : Resource) (s : State) : ∃ q, restartProc r s = setProc r q s
    ∨ restartProc r s = placeClaim (.release r .restart) (setProc r q s) := by
  unfold restartProc
  dsimp only
  repeat' split
  all_goals first
    | exact ⟨_, .inl rfl⟩
    | exact ⟨_, .inr rfl⟩

/-- What one process takes leaves the other process and its frame, the two other slots, and the claim list. -/
structure OtherKept (r : Resource) (s t : State) : Prop where
  state : t.link.state = s.link.state
  beaconSlot : t.link.beaconSlot = s.link.beaconSlot
  alertSlot : t.link.alertSlot = s.link.alertSlot
  beaconTimer : t.link.beaconTimer = s.link.beaconTimer
  list : t.claims.list = s.claims.list
  fireSet : t.claims.fireSet = s.claims.fireSet
  proc : ∀ x, x ≠ r → procOf t x = procOf s x
  slot : ∀ x, x ≠ r → claimIn t x = claimIn s x

theorem restartProc_kept (r : Resource) (s : State) : OtherKept r s (restartProc r s) := by
  obtain ⟨q, hEq | hEq⟩ := restartProc_eq r s
  · rw [hEq]
    exact ⟨rfl, rfl, rfl, rfl, rfl, rfl, fun x hx => procOf_setProc_other hx _ _, fun _ _ => rfl⟩
  · obtain ⟨hBeacon, hAlert, hTimer⟩ := placeClaim_slots (.release r .restart) (setProc r q s)
    have hClaims := placeClaim_claims (.release r .restart) (setProc r q s)
    rw [hEq]
    refine ⟨placeClaim_linkState .., hBeacon, hAlert, hTimer, by rw [hClaims]; rfl, by rw [hClaims]; rfl, fun x hx => ?_, fun x hx => ?_⟩
    · rw [procOf_placeClaim, procOf_setProc_other hx]
    · by_cases hClash : (setProc r q s).link.state = .clashed
      · unfold placeClaim
        rw [if_pos hClash]
        rfl
      · rw [claimIn_placeClaim _ _ hClash]
        exact if_neg hx

/-- What both processes take. -/
structure BothTaken (s t : State) : Prop where
  state : t.link.state = s.link.state
  beaconSlot : t.link.beaconSlot = s.link.beaconSlot
  alertSlot : t.link.alertSlot = s.link.alertSlot
  beaconTimer : t.link.beaconTimer = s.link.beaconTimer
  list : t.claims.list = s.claims.list
  fireSet : t.claims.fireSet = s.claims.fireSet
  each : ∀ r, RestartTaken r s t

theorem restartBoth_taken (s : State) : BothTaken s (forBoth restartProc s) := by
  have h1 := restartProc_kept .relief s
  have h2 := restartProc_kept .defrost (restartProc .relief s)
  refine ⟨h2.state.trans h1.state, h2.beaconSlot.trans h1.beaconSlot, h2.alertSlot.trans h1.alertSlot,
    h2.beaconTimer.trans h1.beaconTimer, h2.list.trans h1.list, h2.fireSet.trans h1.fireSet, fun r => ?_⟩
  cases r with
  | relief =>
    have hTaken := restartProc_taken .relief s
    unfold RestartTaken at *
    rw [← h2.proc .relief nofun, ← h2.slot .relief nofun] at hTaken
    exact hTaken
  | defrost =>
    have hTaken := restartProc_taken .defrost (restartProc .relief s)
    unfold RestartTaken at *
    rw [h1.proc .defrost nofun, h1.slot .defrost nofun, h1.state] at hTaken
    exact hTaken

/-! ## The acceptance (R212) -/

/-- RESTART waits, and the queue holds no frame but a RELEASE (R111, R212). -/
def accepting (s : State) : State := (s.setPort { s.port with restarting := true }).setLink (linkRestart s.link)

/-- The own processes and the link at the acceptance. -/
def released (s : State) : State := forBoth restartProc (accepting s)

/-- The acceptance before the Sequencer's step, the manual demands still standing. -/
def stilled (s : State) : State :=
  ((released s).setDecision { s.decision with timer := none }).setBand { s.band with holdTimer := none }

theorem released_acts (s : State) : Acts Part.claiming (accepting s) (released s) :=
  forBoth_acts (fun x _ h => restartProc_acts x h rfl rfl) .refl

theorem released_port (s : State) : (released s).port = { s.port with restarting := true } :=
  (ClaimActs.port (released_acts s)).trans (by simp [accepting])

theorem released_seq (s : State) : (released s).seq = s.seq := (ClaimActs.seq (released_acts s)).trans (by simp [accepting])
theorem released_out (s : State) : (released s).out = s.out := (ClaimActs.out (released_acts s)).trans (by simp [accepting])
theorem released_peers (s : State) : (released s).peers = s.peers := (ClaimActs.peers (released_acts s)).trans (by simp [accepting])
theorem released_decision (s : State) : (released s).decision = s.decision := (ClaimActs.decision (released_acts s)).trans (by simp [accepting])
theorem released_band (s : State) : (released s).band = s.band := (ClaimActs.band (released_acts s)).trans (by simp [accepting])

theorem stilled_port (s : State) : (stilled s).port = { s.port with restarting := true } := by simp [stilled, released_port]
theorem stilled_seq (s : State) : (stilled s).seq = s.seq := by simp [stilled, released_seq]
theorem stilled_out (s : State) : (stilled s).out = s.out := by simp [stilled, released_out]
theorem stilled_peers (s : State) : (stilled s).peers = s.peers := by simp [stilled, released_peers]
theorem stilled_link (s : State) : (stilled s).link = (released s).link := by simp [stilled]
theorem stilled_claims (s : State) : (stilled s).claims = (released s).claims := by simp [stilled]

/-- What the acceptance leaves. -/
structure Accepted (s t : State) : Prop where
  seq : t.seq = { s.seq with
    mode := some .safe, phase := some .settled, transition := none, rampPosting := none, waitSet := [], followTimer := none
    demands := some (safeSet s.cfg) }
  link : t.link = (released s).link
  claims : t.claims = (released s).claims
  port : t.port = { s.port with restarting := true }
  decision : t.decision = { s.decision with timer := none }
  band : t.band = { s.band with holdTimer := none }
  peers : t.peers = s.peers
  seqSet : t.out.seqSet = some (safeSet s.cfg)
  manual : t.out.manual = ⟨none, none, none⟩
  guard : t.out.guard = s.out.guard
  fire : t.out.fire = s.out.fire

theorem acceptRestart_eq (s : State) : acceptRestart s = settleRamps (sequencerRestart (dropManual (stilled s))) := by
  unfold acceptRestart stilled
  rw [← released_decision s, ← released_band s]
  rfl

theorem dropManual_moved (s : State) : Moved (s.setOut { s.out with manual := ⟨none, none, none⟩ }) (dropManual s) :=
  changeDemands_moved (fun o => { o with manual := ⟨none, none, none⟩ }) s

/-- The Sequencer at the acceptance, the SAFE set not yet posted (R29). -/
def safeSettled (q : Sequencer) : Sequencer :=
  { q with mode := some .safe, phase := some .settled, transition := none, rampPosting := none, waitSet := [], followTimer := none }

theorem sequencerRestart_eq (s : State) : sequencerRestart s = postSet (safeSet s.cfg) (s.setSeq (safeSettled s.seq)) := rfl

theorem acceptRestart_accepted (s : State) : Accepted s (acceptRestart s) := by
  have hDrop := dropManual_moved (stilled s)
  have hPort : (dropManual (stilled s)).port = { s.port with restarting := true } := by
    rw [hDrop.port, State.setOut_port, stilled_port]
  have hCfg : (dropManual (stilled s)).cfg = s.cfg := by rw [State.cfg, hPort, State.cfg]
  have hSeq : (dropManual (stilled s)).seq = s.seq := by rw [hDrop.seq, State.setOut_seq, stilled_seq]
  obtain ⟨b, hSettled⟩ := settleRamps_of_still (s := sequencerRestart (dropManual (stilled s)))
    (.inl (by rw [sequencerRestart_eq, postSet_seq]; rfl))
  rw [acceptRestart_eq, hSettled, sequencerRestart_eq, hCfg, hSeq]
  constructor
  case seq => rw [State.setOut_seq, postSet_seq, State.setSeq_seq]; rfl
  case link => rw [State.setOut_link, postSet_link, State.setSeq_link, hDrop.link, State.setOut_link, stilled_link]
  case claims => rw [State.setOut_claims, postSet_claims, State.setSeq_claims, hDrop.claims, State.setOut_claims, stilled_claims]
  case port => rw [State.setOut_port, postSet_port, State.setSeq_port, hPort]
  case decision => rw [State.setOut_decision, postSet_decision, State.setSeq_decision, hDrop.decision, State.setOut_decision]; rfl
  case band => rw [State.setOut_band, postSet_band, State.setSeq_band, hDrop.band, State.setOut_band]; rfl
  case peers => rw [State.setOut_peers, postSet_peers, State.setSeq_peers, hDrop.peers, State.setOut_peers, stilled_peers]
  case seqSet => rw [State.setOut_out, postSet_seqSet]
  case manual => rw [State.setOut_out, postSet_manual, State.setSeq_out, hDrop.out, State.setOut_out]
  case guard => rw [State.setOut_out, postSet_guard, State.setSeq_out, hDrop.out, State.setOut_out, stilled_out]
  case fire => rw [State.setOut_out, postSet_fire, State.setSeq_out, hDrop.out, State.setOut_out, stilled_out]

theorem claimIn_accepting (s : State) (r : Resource) :
    claimIn (accepting s) r = if isRelease (claimIn s r) = true then claimIn s r else none := by
  have hSlot := linkRestart_slot s.link r
  have hLink : (accepting s).link = linkRestart s.link := by rw [accepting, State.setLink_link]
  unfold slotClaim at hSlot
  unfold claimIn
  rw [hLink, hSlot]

theorem execRestart_of_running (hc : s.port.closed = true) (hr : s.port.restarting = false) :
    exec .restart s = .next (finishRestart (replyOk (acceptRestart s))) :=
  congrArg Host.Outcome.next (admitOperating_of_running hc hr _)

theorem accepting_link (s : State) : (accepting s).link = linkRestart s.link := by rw [accepting, State.setLink_link]

theorem accepting_state (s : State) : (accepting s).link.state = s.link.state := by rw [accepting_link, (linkRestart_kept s.link).1]

theorem accepting_claims (s : State) : (accepting s).claims = s.claims := by simp [accepting]

theorem released_taken (s : State) : BothTaken (accepting s) (released s) := restartBoth_taken (accepting s)

theorem replyOk_procOf (s : State) (r : Resource) : procOf (replyOk s) r = procOf s r := rfl

theorem replyOk_claimIn (s : State) (r : Resource) : claimIn (replyOk s) r = claimIn s r := rfl

/-- With no RELEASE queued and nothing to release, the acceptance leaves none queued. -/
theorem releaseQueued_accepted (h : s.link.state ≠ .online ∨ ∀ r, holds (procOf s r) = false) (hq : releaseQueued s = false) :
    releaseQueued (acceptRestart s) = false := by
  have hAccepted := acceptRestart_accepted s
  have hEach (r : Resource) : isRelease (claimIn (acceptRestart s) r) = false := by
    have hSlot : claimIn (released s) r = claimIn (accepting s) r := by
      refine ((released_taken s).each r).2.2 ?_
      rw [accepting_state, procOf_congr (accepting_claims s)]
      exact h.imp_right fun h => h r
    have hNone : isRelease (claimIn s r) = false := by
      unfold releaseQueued at hq
      rw [Bool.or_eq_false_iff] at hq
      cases r with
      | relief => exact hq.1
      | defrost => exact hq.2
    rw [claimIn_congr hAccepted.link, hSlot, claimIn_accepting, hNone]
    rfl
  unfold releaseQueued
  rw [hEach, hEach]
  rfl

theorem acceptRestart_closed (hc : s.port.closed = true) : (replyOk (acceptRestart s)).port.closed = true := by
  rw [replyOk_eq, State.setPort_port, (acceptRestart_accepted s).port]
  exact hc

/-- A RESTART completed at once: what shows of it (R212, R213). -/
theorem finishRestart_of_done (hc : s.port.closed = true) (hr : s.port.restarting = true) (hq : releaseQueued s = false) :
    finishRestart s = completeRestart s := by
  rw [finishRestart, if_pos (by rw [restartDone, hc, hr, hq]; rfl)]

theorem completeRestart_shown (hc : s.port.closed = true) : (completeRestart s).link.state = .joining
    ∧ (completeRestart s).seq.mode = some .safe ∧ (completeRestart s).claims.proc = ⟨.idle, .idle⟩ := by
  obtain ⟨hStart, hLevel⟩ := completion_taken hc
  have hBase := readiedAgain_restarted s
  refine ⟨?_, ?_, ?_⟩
  · rw [hLevel.link, hStart.link, readiedAgain_link, joiningLink_eq]
  · rw [hLevel.seq, hStart.seq]
  · rw [hLevel.claims, hStart.claims, hBase.claims, State.setPort_claims, State.setLink_claims, emptied_claims]
    rfl

/-- Settles O31. -/
theorem restartReleasesHeldClaimsAndWaits : Obligations.RestartReleasesHeldClaimsAndWaits := by
  unfold Obligations.RestartReleasesHeldClaimsAndWaits
  intro s hc hr
  have hAccepted := acceptRestart_accepted s
  rw [execRestart_of_running hc hr]
  refine ⟨fun r0 hOnline hHolds hCause => ?waits, fun hFree hq => ?done⟩
  case done =>
    have hPort : (replyOk (acceptRestart s)).port = { s.port with restarting := true, reply := some ⟨.ok, .none⟩ } := by
      rw [replyOk_eq, State.setPort_port, hAccepted.port]
    have hClosed := acceptRestart_closed hc
    obtain ⟨attn, hDone⟩ := completeRestart_port hClosed
    obtain ⟨hLink, hMode, hProc⟩ := completeRestart_shown hClosed
    refine ⟨_, congrArg Host.Outcome.next (finishRestart_of_done hClosed (by rw [hPort]) (releaseQueued_accepted hFree hq)), ?_, ?_, hLink, ?_,
      hMode, hProc⟩
    · rw [hDone]
    · rw [hDone, hPort]
    · rw [hDone]; rfl
  case waits =>
    have hTaken := released_taken s
    have hState : (accepting s).link.state = .online := (accepting_state s).trans hOnline
    have hProc (r : Resource) : procOf (replyOk (acceptRestart s)) r = procOf (released s) r := procOf_congr hAccepted.claims r
    have hSlot (r : Resource) : claimIn (replyOk (acceptRestart s)) r = claimIn (released s) r := claimIn_congr hAccepted.link r
    have hBefore (r : Resource) : procOf (accepting s) r = procOf s r := procOf_congr (accepting_claims s) r
    have hRelease (r : Resource) (h : holds (procOf s r) = true) : (procOf (released s) r).state = .releasing
        ∧ (procOf (released s) r).request = false ∧ claimIn (released s) r = some (.release r .restart) :=
      (hTaken.each r).1 hState (by rw [hBefore]; exact h) (by rw [hBefore]; exact hCause r)
    have hQueued : releaseQueued (replyOk (acceptRestart s)) = true := by
      have hHere : isRelease (claimIn (replyOk (acceptRestart s)) r0) = true := by rw [hSlot, (hRelease r0 hHolds).2.2]; rfl
      unfold releaseQueued
      cases r0 with
      | relief => rw [hHere]; rfl
      | defrost => rw [hHere, Bool.or_true]
    refine ⟨replyOk (acceptRestart s), by rw [finishRestart, if_neg (by simp [restartDone, hQueued])], ?_⟩
    have hKept := linkRestart_kept s.link
    have hPort : (replyOk (acceptRestart s)).port = { s.port with restarting := true, reply := some ⟨.ok, .none⟩ } := by
      rw [replyOk_eq, State.setPort_port, hAccepted.port]
    have hL : (replyOk (acceptRestart s)).link = (released s).link := by rw [replyOk_eq, State.setPort_link, hAccepted.link]
    have hC : (replyOk (acceptRestart s)).claims = (released s).claims := by rw [replyOk_eq, State.setPort_claims, hAccepted.claims]
    have hSeq : (replyOk (acceptRestart s)).seq = _ := (State.setPort_seq _ _).trans hAccepted.seq
    have hO : (replyOk (acceptRestart s)).out = (acceptRestart s).out := by rw [replyOk_eq, State.setPort_out]
    refine ⟨by rw [hPort], by rw [hPort], fun r h => ?_, fun r h => ?_, ?_, ?_, ?_, ?_, by rw [hSeq], by rw [hSeq], by rw [hSeq],
      by rw [hSeq], by rw [hSeq]; rfl, ?_, ?_, ?_, ?_, ?_, ?_, ?_, ?_, ?_, by rw [hPort], by rw [hPort]⟩
    · rw [hProc, hSlot]; exact hRelease r h
    · rw [hProc]; exact (hTaken.each r).2.1 (by rw [hBefore]; exact h)
    · rw [hL, hTaken.state, hState]
    · rw [hL, hTaken.beaconSlot, accepting_link, hKept.2.1]
    · rw [hL, hTaken.alertSlot, accepting_link, hKept.2.2.1]
    · rw [hL, hTaken.beaconTimer, accepting_link, hKept.2.2.2]
    · rw [hO, hAccepted.seqSet, hSeq]
    · rw [hO, hAccepted.manual]
    · rw [hO, hAccepted.guard]
    · rw [hO, hAccepted.fire]
    · rw [replyOk_eq, State.setPort_decision, hAccepted.decision]
    · rw [replyOk_eq, State.setPort_band, hAccepted.band]
    · rw [replyOk_eq, State.setPort_peers, hAccepted.peers]
    · rw [hC, hTaken.list, accepting_claims]
    · rw [hC, hTaken.fireSet, accepting_claims]

end

end Sys2Proof.Machine
end

section
/-! PROOF. Forced leave (R49, R50): what a cause names and does in each phase, what the entry into CLASHED or OFFLINE does to the Mode
Sequencer, and the claims it leaves. -/

namespace Sys2Proof.Machine

section
variable {s t u : State}

/-! ## The target of a forced leave (R49) -/

theorem usesClaim_iff {m : Mode} : usesClaim m ↔ claimFor m ≠ none := by cases m <;> simp [usesClaim, claimFor]

theorem claimFor_forcedTarget (s : State) (m : Mode) : claimFor (forcedTarget s m) = none := by
  unfold forcedTarget
  split
  · rfl
  · split
    next => rfl
    next => rfl
    next => rfl
    next x _ _ _ => cases x <;> first | rfl | contradiction

theorem forcedTarget_eq (m : Mode) {d : Mode} (hd : s.decision.last.desired = some d) (hNot : d ≠ .defrost) :
    forcedTarget s m = leaveTarget m d := by
  unfold forcedTarget leaveTarget
  rw [hd]
  split
  · rfl
  · cases d <;> first | rfl | contradiction

/-! ## A forced transition (R49, R50) -/

/-- The Sequencer at the start of a forced transition, its ramp not yet begun. -/
def forcedStart (target : Mode) (s : State) : State := s.setSeq { s.seq with
  candidate := none, count := 0, forcedPending := none, transition := some ⟨target, true⟩ }

theorem enterFirstPhase_of_free {m : Mode} {f : Bool} (h : claimFor m = none) (s : State) :
    enterFirstPhase m f s = enterWaitOrRamp m f s := by
  unfold enterFirstPhase
  rw [h]

theorem leaveNow_of_mode {m : Mode} (h : s.seq.mode = some m) :
    leaveNow m s = enterRamping (forcedTarget s m) (forcedStart (forcedTarget s m) s) := by
  have hTarget : forcedTarget (clearCandidate (s.setSeq { s.seq with forcedPending := none })) m = forcedTarget s m := rfl
  have hBegun : begun (forcedTarget s m) true (clearCandidate (s.setSeq { s.seq with forcedPending := none }))
      = forcedStart (forcedTarget s m) s := by
    unfold begun forcedStart clearCandidate
    rw [State.setSeq_seq, State.setSeq_seq, ite_self]
    rfl
  unfold leaveNow
  dsimp only
  rw [if_pos (show (clearCandidate (s.setSeq { s.seq with forcedPending := none })).seq.mode = some m from h), hTarget, beginTransition_eq,
    hBegun, enterFirstPhase_of_free (claimFor_forcedTarget s m), enterWaitOrRamp_of_ramping (.inr (.inl rfl))]

theorem leaveNow_of_other {m : Mode} (h : s.seq.mode ≠ some m) :
    leaveNow m s = afterSettled (clearCandidate (s.setSeq { s.seq with forcedPending := none })) := by
  unfold leaveNow
  exact if_neg h

/-- Two Sequencers that differ only in the wait. -/
def SameButWait (a b : Sequencer) : Prop :=
  ({ a with waitSet := [], followTimer := none } : Sequencer) = { b with waitSet := [], followTimer := none }

theorem leaveNow_forcedOut {m : Mode} (hMode : u.seq.mode = some m) (hSeq : SameButWait u.seq s.seq) (hOut : u.out = s.out)
    (hCfg : u.cfg = s.cfg) (hDecision : u.decision = s.decision) : ForcedOut (forcedTarget u m) s (leaveNow m u) := by
  have hRamp := enterRamping_rampingTo (target := forcedTarget u m) (forced := true) (s := forcedStart (forcedTarget u m) u) rfl
  rw [leaveNow_of_mode hMode]
  obtain ⟨h1, h2, h3⟩ := hRamp
  refine ⟨?_, ?_, ?_⟩
  · rw [h1]
    show ({ u.seq with candidate := none, count := 0, forcedPending := none, transition := _, phase := _, waitSet := [], followTimer := none,
                       demands := some (rampSet u.cfg u.decision.last _), rampPosting := some (nextPosting u.out.posting) } : Sequencer) = _
    rw [hCfg, hDecision, hOut]
    exact congrArg (fun q : Sequencer => { q with
      candidate := none, count := 0, forcedPending := none, transition := some ⟨forcedTarget u m, true⟩, phase := some .ramping
      demands := some (rampSet s.cfg s.decision.last (forcedTarget u m)), rampPosting := some (nextPosting s.out.posting) }) hSeq
  · rw [h2]
    show some (rampSet u.cfg u.decision.last _) = _
    rw [hCfg, hDecision]
  · rw [h3]
    show nextPosting u.out.posting = _
    rw [hOut]

theorem leaveNow_completionDue {m : Mode} (hMode : s.seq.mode = some m)
    (h : RampsAway s (rampSet s.cfg s.decision.last (forcedTarget s m))) : completionDue (leaveNow m s) = false := by
  rw [leaveNow_of_mode hMode]
  exact enterRamping_completionDue _ _ h

theorem RampsAway.congr {d : DemandSet} (hCfg : t.cfg = s.cfg) (hOut : t.out = s.out) (h : RampsAway s d) : RampsAway t d := by
  unfold RampsAway at *
  rw [hCfg, hOut]
  exact h

/-! ## A cause of forced leave in each phase (R49, R50) -/

theorem forceLeave_of_idle {m : Mode} (h : running s = false ∨ s.seq.forcedPending ≠ none) : forceLeave m s = s := by
  unfold forceLeave
  refine if_pos ?_
  rcases h with h | h
  · rw [h]; rfl
  · rw [Option.ne_none_iff_isSome] at h
    rw [h, Bool.or_true]

section
variable {m : Mode} (hRun : running s = true) (hFree : s.seq.forcedPending = none)
include hRun hFree

theorem forceLeave_admitted : ¬(!running s || s.seq.forcedPending.isSome) = true := by rw [hRun, hFree]; decide

theorem forceLeave_of_settled (hp : s.seq.phase = some .settled) :
    forceLeave m s = if s.seq.mode = some m then leaveNow m s else s := by
  unfold forceLeave
  rw [if_neg (forceLeave_admitted hRun hFree)]
  dsimp only
  rw [hp]

theorem forceLeave_of_waiting (hp : s.seq.phase = some .claiming ∨ s.seq.phase = some .followWait) :
    forceLeave m s = if s.seq.mode = some m then leaveNow m (endWait (cancelRequest s))
      else if targetOf s = some m then afterSettled (clearCandidate (cancelTransition s)) else s := by
  unfold forceLeave
  rw [if_neg (forceLeave_admitted hRun hFree)]
  dsimp only
  rcases hp with hp | hp <;> rw [hp]

theorem forceLeave_of_ramping (hp : s.seq.phase = some .ramping) :
    forceLeave m s = if targetOf s = some m then leaveLater m s else s := by
  unfold forceLeave
  rw [if_neg (forceLeave_admitted hRun hFree)]
  dsimp only
  rw [hp]

theorem forceLeave_of_suspended (hp : s.seq.phase = some .suspended) :
    forceLeave m s = if s.seq.mode = some m ∨ targetOf s = some m then leaveLater m s else s := by
  unfold forceLeave
  rw [if_neg (forceLeave_admitted hRun hFree)]
  dsimp only
  rw [hp]
  simp only [Bool.or_eq_true, decide_eq_true_eq]

end

/-- A cause of a mode that is neither present nor on the way changes nothing. -/
theorem forceLeave_of_unaffected {m : Mode} (hm : s.seq.mode ≠ some m) (ht : targetOf s ≠ some m) : forceLeave m s = s := by
  unfold forceLeave
  dsimp only
  split
  · rfl
  · split <;> simp [hm, ht]

/-- While RAMPING a cause of a mode that is not on the way changes nothing (R49). -/
theorem forceLeave_of_ramping_away {m : Mode} (hp : s.seq.phase = some .ramping) (ht : targetOf s ≠ some m) : forceLeave m s = s := by
  unfold forceLeave
  dsimp only
  split
  · rfl
  · simp [hp]

/-- While SETTLED a cause of a mode that is not present changes nothing (R49). -/
theorem forceLeave_of_settled_elsewhere {m : Mode} (hp : s.seq.phase = some .settled) (hm : s.seq.mode ≠ some m) :
    forceLeave m s = s := by
  unfold forceLeave
  dsimp only
  split
  · rfl
  · simp [hp]

theorem targetOf_of_transition {x : Transition} (h : s.seq.transition = some x) : targetOf s = some x.target := by
  unfold targetOf
  rw [h]

/-! ## The line is lost (R49) -/

/-- The other of the two modes that need a claim. -/
def otherOf : Mode → Mode
  | .defrost => .free
  | _ => .defrost

theorem otherOf_uses (m : Mode) : usesClaim (otherOf m) := by cases m <;> simp [otherOf, usesClaim]

theorem otherOf_ne {m : Mode} (h : usesClaim m) : otherOf m ≠ m := by rcases h with rfl | rfl <;> decide

theorem eq_or_other {m n : Mode} (hm : usesClaim m) (hn : usesClaim n) : n = m ∨ n = otherOf m := by
  rcases hm with rfl | rfl <;> rcases hn with rfl | rfl <;> decide

theorem linkLost_of_mode {m : Mode} (hm : usesClaim m) (h : s.seq.mode = some m) :
    linkLost s = forceLeave (otherOf m) (forceLeave m s) := by
  unfold linkLost
  rcases hm with rfl | rfl
  · rw [if_neg (by rw [h]; decide)]; rfl
  · rw [if_pos h]; rfl

theorem linkLost_eq (s : State) : ∃ m, usesClaim m ∧ linkLost s = forceLeave (otherOf m) (forceLeave m s) := by
  unfold linkLost
  split
  · exact ⟨.defrost, .inr rfl, rfl⟩
  · exact ⟨.free, .inl rfl, rfl⟩

theorem linkLost_of_idle (h : running s = false ∨ s.seq.forcedPending ≠ none) : linkLost s = s := by
  obtain ⟨m, -, hEq⟩ := linkLost_eq s
  rw [hEq, forceLeave_of_idle h, forceLeave_of_idle h]

/-- Where one mode that needs a claim stands alone in the way, its cause is the one taken. -/
theorem linkLost_of_one {m : Mode} (hm : usesClaim m) (hBefore : forceLeave (otherOf m) s = s)
    (hAfter : forceLeave (otherOf m) (forceLeave m s) = forceLeave m s) : linkLost s = forceLeave m s := by
  obtain ⟨n, hn, hEq⟩ := linkLost_eq s
  rw [hEq]
  rcases eq_or_other hm hn with rfl | rfl
  · exact hAfter
  · have hBack : otherOf (otherOf m) = m := by rcases hm with rfl | rfl <;> rfl
    rw [hBefore, hBack]

theorem linkLost_of_none (h : ∀ m, usesClaim m → forceLeave m s = s) : linkLost s = s := by
  obtain ⟨m, hm, hEq⟩ := linkLost_eq s
  rw [hEq, h m hm, h _ (otherOf_uses m)]

theorem leaveNow_ramping {m : Mode} (h : s.seq.mode = some m) :
    (leaveNow m s).seq.phase = some .ramping ∧ targetOf (leaveNow m s) = some (forcedTarget s m) := by
  rw [leaveNow_of_mode h]
  exact ⟨by rw [enterRamping_seq], targetOf_of_transition (x := ⟨_, true⟩) (by rw [enterRamping_seq]; rfl)⟩

/-- After the leave of the present mode nothing that needs a claim is on the way. -/
theorem forceLeave_after_leave {m n : Mode} (h : s.seq.mode = some m) (hn : usesClaim n) :
    forceLeave n (leaveNow m s) = leaveNow m s := by
  obtain ⟨hPhase, hTarget⟩ := leaveNow_ramping h
  refine forceLeave_of_ramping_away hPhase fun hEq => usesClaim_iff.1 hn ?_
  rw [← Option.some.inj (hTarget.symm.trans hEq)]
  exact claimFor_forcedTarget s m

theorem endWait_cancelRequest_seq (s : State) : (endWait (cancelRequest s)).seq = { s.seq with waitSet := [], followTimer := none } := by
  rw [endWait, State.setSeq_seq, ClaimActs.seq (cancelRequest_claimActs s)]

theorem endWait_cancelRequest_out (s : State) : (endWait (cancelRequest s)).out = s.out := by
  rw [endWait, State.setSeq_out, ClaimActs.out (cancelRequest_claimActs s)]

theorem endWait_cancelRequest_cfg (s : State) : (endWait (cancelRequest s)).cfg = s.cfg := (cancelRequest_claimActs s).cfg

theorem endWait_cancelRequest_decision (s : State) : (endWait (cancelRequest s)).decision = s.decision := by
  rw [endWait, State.setSeq_decision, ClaimActs.decision (cancelRequest_claimActs s)]

theorem cancelTransition_seq (s : State) : (cancelTransition s).seq = settledSeq s.seq := by
  unfold cancelTransition
  rw [toSettled_seq, endWait, State.setSeq_seq, releaseUnneeded_seq, ClaimActs.seq (cancelRequest_claimActs s)]
  rfl

theorem cancelTransition_out (s : State) : (cancelTransition s).out = s.out := by
  unfold cancelTransition
  rw [toSettled_out, endWait, State.setSeq_out, releaseUnneeded_out, ClaimActs.out (cancelRequest_claimActs s)]

theorem cancelTransition_cfg (s : State) : (cancelTransition s).cfg = s.cfg := by
  unfold cancelTransition
  rw [toSettled_cfg, endWait]
  exact (releaseUnneeded_cfg ..).trans (cancelRequest_claimActs s).cfg

/-- With the candidate cleared nothing starts, but for the exit that an expired DEFROST cycle makes. -/
theorem afterSettled_of_cleared (hc : s.seq.candidate = none) (hm : s.seq.mode ≠ some .defrost ∨ s.seq.defrostExpired = false) :
    afterSettled s = s := by
  have hStart : startTest s = s := startTest_eq_self fun m h => by
    unfold confirmed at h
    rw [hc] at h
    cases h
  unfold afterSettled
  rw [hStart]
  exact exitTest_eq_self (.inr hm)

section
variable {m : Mode} (hRun : running s = true) (hFree : s.seq.forcedPending = none)
include hRun hFree

theorem linkLost_of_settled (hm : usesClaim m) (hMode : s.seq.mode = some m) (hp : s.seq.phase = some .settled) :
    linkLost s = leaveNow m s := by
  rw [linkLost_of_mode hm hMode, forceLeave_of_settled hRun hFree hp, if_pos hMode,
    forceLeave_after_leave hMode (otherOf_uses m)]

theorem linkLost_of_waiting (hm : usesClaim m) (hMode : s.seq.mode = some m)
    (hp : s.seq.phase = some .claiming ∨ s.seq.phase = some .followWait) :
    linkLost s = leaveNow m (endWait (cancelRequest s)) := by
  have hMode' : (endWait (cancelRequest s)).seq.mode = some m := by rw [endWait_cancelRequest_seq]; exact hMode
  rw [linkLost_of_mode hm hMode, forceLeave_of_waiting hRun hFree (m := m) hp, if_pos hMode, forceLeave_after_leave hMode' (otherOf_uses m)]

theorem linkLost_of_entering {x : Transition} (hx : usesClaim x.target) (ht : s.seq.transition = some x)
    (hNone : ¬∃ m, s.seq.mode = some m ∧ usesClaim m) (hp : s.seq.phase = some .claiming ∨ s.seq.phase = some .followWait) :
    linkLost s = clearCandidate (cancelTransition s) := by
  have hAway (n : Mode) (hn : usesClaim n) : s.seq.mode ≠ some n := fun h => hNone ⟨n, h, hn⟩
  have hSeq : (clearCandidate (cancelTransition s)).seq = { settledSeq s.seq with candidate := none, count := 0 } := by
    rw [clearCandidate, State.setSeq_seq, cancelTransition_seq]
  have hForce : forceLeave x.target s = clearCandidate (cancelTransition s) := by
    rw [forceLeave_of_waiting hRun hFree hp, if_neg (hAway _ hx), if_pos (targetOf_of_transition ht)]
    refine afterSettled_of_cleared (by rw [hSeq]) (.inl ?_)
    rw [hSeq]
    exact hAway _ (.inr rfl)
  refine (linkLost_of_one hx (forceLeave_of_unaffected (hAway _ (otherOf_uses _)) ?_) ?_).trans hForce
  · rw [targetOf_of_transition ht]
    exact fun h => otherOf_ne hx (Option.some.inj h).symm
  · rw [hForce]
    refine forceLeave_of_settled_elsewhere (by rw [hSeq]; rfl) ?_
    rw [hSeq]
    exact hAway _ (otherOf_uses _)

theorem linkLost_of_rampingTo {x : Transition} (hx : usesClaim x.target) (ht : s.seq.transition = some x)
    (hp : s.seq.phase = some .ramping) : linkLost s = leaveLater x.target s := by
  have hForce : forceLeave x.target s = leaveLater x.target s := by
    rw [forceLeave_of_ramping hRun hFree hp, if_pos (targetOf_of_transition ht)]
  refine (linkLost_of_one hx (forceLeave_of_ramping_away hp ?_) ?_).trans hForce
  · rw [targetOf_of_transition ht]
    exact fun h => otherOf_ne hx (Option.some.inj h).symm
  · rw [hForce]
    exact forceLeave_of_idle (.inr nofun)

theorem linkLost_of_suspended (hm : usesClaim m) (hMode : s.seq.mode = some m) (hp : s.seq.phase = some .suspended) :
    linkLost s = leaveLater m s := by
  rw [linkLost_of_mode hm hMode, forceLeave_of_suspended hRun hFree hp, if_pos (.inl hMode)]
  exact forceLeave_of_idle (.inr nofun)

theorem linkLost_of_recorded (hm : usesClaim m) (hTarget : targetOf s = some m) (hNone : ¬∃ m, s.seq.mode = some m ∧ usesClaim m)
    (hp : s.seq.phase = some .suspended) : linkLost s = leaveLater m s := by
  have hForce : forceLeave m s = leaveLater m s := by
    rw [forceLeave_of_suspended hRun hFree hp, if_pos (.inr hTarget)]
  refine (linkLost_of_one hm (forceLeave_of_unaffected (fun h => hNone ⟨_, h, otherOf_uses _⟩) ?_) ?_).trans hForce
  · rw [hTarget]
    exact fun h => otherOf_ne hm (Option.some.inj h).symm
  · rw [hForce]
    exact forceLeave_of_idle (.inr nofun)

end

theorem leaveLater_seq (m : Mode) (s : State) :
    (leaveLater m s).seq = { s.seq with candidate := none, count := 0, forcedPending := some m } := rfl

theorem leaveLater_out (m : Mode) (s : State) : (leaveLater m s).out = s.out := rfl

theorem leaveLater_cfg (m : Mode) (s : State) : (leaveLater m s).cfg = s.cfg := rfl

/-- The loss of the line, with the completions that follow it at once. -/
theorem settled_linkLost (hRun : running s = true) (hDue : completionDue s = false) : LinkLossForces s (settleRamps (linkLost s)) := by
  have hStands (h : linkLost s = s) : (settleRamps (linkLost s)).seq = s.seq ∧ (settleRamps (linkLost s)).out = s.out := by
    rw [h, settleRamps_of_not_due hDue]
    exact ⟨rfl, rfl⟩
  have hForced {m d : Mode} {v : State} (hm : usesClaim m) (hMode : v.seq.mode = some m) (hEq : linkLost s = leaveNow m v)
      (hSeq : SameButWait v.seq s.seq) (hOut : v.out = s.out) (hCfg : v.cfg = s.cfg) (hDecision : v.decision = s.decision)
      (hd : s.decision.last.desired = some d) (hNot : d ≠ .defrost)
      (hAway : RampsAway s (rampSet s.cfg s.decision.last (leaveTarget m d))) :
      ForcedOut (leaveTarget m d) s (settleRamps (linkLost s)) := by
    have hTarget : forcedTarget v m = leaveTarget m d := forcedTarget_eq m (by rw [hDecision]; exact hd) hNot
    have hOutcome := leaveNow_forcedOut hMode hSeq hOut hCfg hDecision
    rw [hTarget] at hOutcome
    rw [hEq, settleRamps_of_not_due]
    · exact hOutcome
    · refine leaveNow_completionDue hMode ?_
      rw [hTarget, hCfg, hDecision]
      exact hAway.congr hCfg hOut
  have hLater {m : Mode} (h : linkLost s = leaveLater m s) :
      (settleRamps (linkLost s)).seq = { s.seq with candidate := none, count := 0, forcedPending := some m } := by
    rw [h, settleRamps_of_not_due ((completionDue_congr (leaveLater_cfg m s) (leaveLater_out m s)).trans hDue), leaveLater_seq]
  refine ⟨fun h => hStands (linkLost_of_idle (.inr h)), fun hFree => ⟨?settled, ?waiting, ?entering, ?rampingTo, ?rampingOut,
    ?suspended, ?recorded, ?unaffected⟩⟩
  case settled =>
    intro m d hm hMode hp hd hNot target hAway
    exact hForced hm hMode (linkLost_of_settled hRun hFree hm hMode hp) rfl rfl rfl rfl hd hNot hAway
  case waiting =>
    intro m d x hm hMode hp ht hd hNot target hAway
    exact hForced hm (by rw [endWait_cancelRequest_seq]; exact hMode) (linkLost_of_waiting hRun hFree hm hMode hp)
      (by rw [endWait_cancelRequest_seq]; rfl) (endWait_cancelRequest_out s) (endWait_cancelRequest_cfg s)
      (endWait_cancelRequest_decision s) hd hNot hAway
  case entering =>
    intro x hx hp ht hNone
    have hOut : (clearCandidate (cancelTransition s)).out = s.out := by rw [clearCandidate, State.setSeq_out, cancelTransition_out]
    have hCfg : (clearCandidate (cancelTransition s)).cfg = s.cfg := cancelTransition_cfg s
    rw [linkLost_of_entering hRun hFree hx ht hNone hp, settleRamps_of_not_due ((completionDue_congr hCfg hOut).trans hDue)]
    exact ⟨by rw [clearCandidate, State.setSeq_seq, cancelTransition_seq]; rfl, hOut⟩
  case rampingTo =>
    intro x hx hp ht
    exact hLater (linkLost_of_rampingTo hRun hFree hx ht hp)
  case rampingOut =>
    intro x hx hp ht
    refine hStands (linkLost_of_none fun m hm => forceLeave_of_ramping_away hp ?_)
    rw [targetOf_of_transition ht]
    exact fun h => hx (Option.some.inj h ▸ hm)
  case suspended =>
    intro m hm hMode hp
    exact hLater (linkLost_of_suspended hRun hFree hm hMode hp)
  case recorded =>
    intro x hx hNone hp ht hRecord
    refine hLater (linkLost_of_recorded hRun hFree hx ?_ hNone hp)
    unfold targetOf
    rw [ht, hRecord]
    rfl
  case unaffected =>
    intro hNone ht hRecord
    refine hStands (linkLost_of_none fun m hm => forceLeave_of_unaffected (fun h => hNone ⟨m, h, hm⟩) fun h => ?_)
    unfold targetOf at h
    split at h
    next x hx => exact ht x hx (Option.some.inj h ▸ hm)
    next =>
      obtain ⟨x, hx, hxm⟩ := Option.map_eq_some_iff.1 h
      exact hRecord x hx (hxm ▸ hm)

theorem LinkLossForces.congr {s' : State} (h : LinkLossForces s' t) (hSeq : s'.seq = s.seq) (hOut : s'.out = s.out)
    (hCfg : s'.cfg = s.cfg) (hDecision : s'.decision = s.decision) : LinkLossForces s t := by
  unfold LinkLossForces ForcedOut RampingTo RampsAway at *
  rw [hSeq, hOut, hCfg, hDecision] at h
  exact h

end

end Sys2Proof.Machine
end

section
/-! PROOF. What the loss of the line leaves of the claims (R49, R85, R106), and LINK ON and LINK OFF (O28). -/

namespace Sys2Proof.Machine

section
variable {s t u : State}

/-! ## Processes that hold and await nothing -/

/-- A process that stands in IDLE or in STARVED. -/
def AtRest (s : State) (r : Resource) : Prop := (procOf s r).state = .idle ∨ (procOf s r).state = .starved

/-- A process at rest stays so with its state, and takes no request; with both at rest the claim list stands. -/
structure Spared (s t : State) : Prop where
  line : t.link.state = s.link.state
  proc : ∀ r, AtRest s r → (procOf t r).state = (procOf s r).state ∧ ((procOf s r).request = false → (procOf t r).request = false)
  list : (∀ r, AtRest s r) → t.claims.list = s.claims.list

theorem Spared.refl (s : State) : Spared s s := ⟨rfl, fun _ _ => ⟨rfl, id⟩, fun _ => rfl⟩

theorem Spared.atRest (h : Spared s t) {r : Resource} (hr : AtRest s r) : AtRest t r := by
  unfold AtRest
  rw [(h.proc r hr).1]
  exact hr

theorem Spared.trans (h : Spared s t) (h' : Spared t u) : Spared s u := by
  refine ⟨h'.line.trans h.line, fun r hr => ?_, fun hAll => (h'.list fun r => h.atRest (hAll r)).trans (h.list hAll)⟩
  obtain ⟨hState, hRequest⟩ := h.proc r hr
  obtain ⟨hState', hRequest'⟩ := h'.proc r (h.atRest hr)
  exact ⟨hState'.trans hState, fun hf => hRequest' (hRequest hf)⟩

theorem Spared.of_claims (hLine : t.link.state = s.link.state) (hClaims : t.claims = s.claims) : Spared s t :=
  ⟨hLine, fun r _ => by rw [procOf_congr hClaims]; exact ⟨rfl, id⟩, fun _ => by rw [hClaims]⟩

theorem Spared.seq (q : Sequencer) (s : State) : Spared s (s.setSeq q) := .of_claims rfl rfl

theorem Spared.stillIsolated (h : Spared s t) (hs : isolated s = true) : isolated t = true := by
  unfold isolated at *
  rw [h.line]
  exact hs

theorem Works.spared (h : Works s t) (hClaims : t.claims = s.claims) : Spared s t := .of_claims h.sameLine.state hClaims

theorem Spared.ite {c : Prop} [Decidable c] {a b : State} (ha : c → Spared s a) (hb : ¬c → Spared s b) :
    Spared s (if c then a else b) := by
  split
  next h => exact ha h
  next h => exact hb h

/-- A change to one process that is not at rest. -/
theorem Spared.of_other {r : Resource} (hr : ¬AtRest s r) (hLine : t.link.state = s.link.state)
    (hProc : ∀ x, x ≠ r → procOf t x = procOf s x) : Spared s t := by
  refine ⟨hLine, fun x hx => ?_, fun hAll => absurd (hAll r) hr⟩
  rw [hProc x fun h => hr (h ▸ hx)]
  exact ⟨rfl, id⟩

theorem toIdle_other {r x : Resource} (h : x ≠ r) (b : Bool) (s : State) : procOf (toIdle r b s) x = procOf s x := by
  rw [procOf_toIdle, if_neg h]

theorem removeIntent_state (r : Resource) (s : State) : (removeIntent r s).link.state = s.link.state := (removeIntent_sameLine r s).state

theorem placed_other {r x : Resource} (h : x ≠ r) (m : ClaimMsg) (p : Process) (s : State) :
    procOf (placeClaim m (setProc r p s)) x = procOf s x := by rw [procOf_placeClaim, procOf_setProc_other h]

theorem cancelClaim_spared (r : Resource) (s : State) : Spared s (cancelClaim r s) := by
  have hRequest : Spared s (setProc r { procOf s r with request := false } s) := by
    refine ⟨rfl, fun x _ => ?_, fun _ => rfl⟩
    rw [procOf_setProc]
    split
    next h => subst h; exact ⟨rfl, fun _ => rfl⟩
    · exact ⟨rfl, id⟩
  unfold cancelClaim
  dsimp only
  split
  case h_1 => exact hRequest
  case h_6 => exact hRequest
  case h_2 hs =>
    refine .of_other (r := r) (by rw [AtRest, hs]; exact nofun) (removeIntent_state r s) fun x hx => ?_
    rw [toIdle_other hx, procOf_removeIntent]
  case h_3 hs =>
    refine .of_other (r := r) (by rw [AtRest, hs]; exact nofun) (placeClaim_linkState ..) fun x hx => ?_
    rw [procOf_placeClaim, toIdle_other hx]
  case h_4 hs =>
    refine .of_other (r := r) (by rw [AtRest, hs]; exact nofun) (placeClaim_linkState ..) fun x hx => ?_
    rw [procOf_placeClaim, toIdle_other hx]
  case h_5 hs => exact .of_other (r := r) (by rw [AtRest, hs]; exact nofun) rfl fun x hx => toIdle_other hx _ _
  all_goals exact .refl s

theorem releaseUnless_spared (m : Option Mode) (r : Resource) (s : State) : Spared s (releaseUnless m r s) := by
  refine .ite (fun h => ?_) fun _ => .refl s
  have hNot : ¬AtRest s r := by
    rw [Bool.and_eq_true] at h
    rintro (hs | hs) <;> rw [holds, hs] at h <;> exact absurd h.1 (by decide)
  refine .of_other hNot (releaseClaim_works r .refl).sameLine.state fun x hx => ?_
  unfold releaseClaim
  dsimp only
  split
  · exact placed_other hx _ _ _
  · split
    · rw [procOf_removeRecord, toIdle_other hx]
    · exact placed_other hx _ _ _
  · rfl

theorem releaseUnneeded_spared (m : Option Mode) (s : State) : Spared s (releaseUnneeded m s) :=
  (releaseUnless_spared m .relief s).trans (releaseUnless_spared m .defrost _)

theorem cancelRequest_spared (s : State) : Spared s (cancelRequest s) := by
  unfold cancelRequest
  split
  · exact .refl s
  · split
    · exact .refl s
    · exact cancelClaim_spared _ s

theorem setPhase_spared (p : Phase) (s : State) : Spared s (setPhase p s) := (setPhase_works p .refl).spared (setPhase_claims ..)

theorem toSettled_spared (s : State) : Spared s (toSettled s) := (toSettled_works .refl).spared (toSettled_claims s)

theorem enterRamping_spared (m : Mode) (s : State) : Spared s (enterRamping m s) :=
  (enterRamping_works m .refl).spared (enterRamping_claims m s)

/-- A transition that needs no claim asks for none. -/
theorem beginTransition_spared {m : Mode} (f : Bool) (h : claimFor m = none) (s : State) : Spared s (beginTransition m f s) := by
  rw [beginTransition_eq, enterFirstPhase_of_free h]
  have hBegun : Spared s (begun m f s) := Spared.seq _ s
  refine hBegun.trans ?_
  unfold enterWaitOrRamp
  dsimp only
  exact .ite (fun _ => enterRamping_spared m _) fun _ => (Spared.seq _ _).trans (setPhase_spared _ _)

/-! ## Isolated, the station asks for no claim (R32) -/

theorem startTest_spared (hs : isolated s = true) : Spared s (startTest s) := by
  unfold startTest
  split
  · exact .refl s
  next m hm =>
    refine .ite (fun h => beginTransition_spared false ?_ s) fun _ => .refl s
    simp only [Bool.and_eq_true, Bool.not_eq_true'] at h
    have hFor : isolatedFor s m = false ∨ m = .safe := by
      have hBlock := h.2
      unfold blocked at hBlock
      cases m <;> simp_all
    rcases hFor with hFor | rfl
    · unfold isolatedFor at hFor
      rw [hs, Bool.true_and] at hFor
      exact Option.isNone_iff_eq_none.1 (by rw [← Option.not_isSome, hFor]; rfl)
    · rfl

theorem claimFor_exitTarget (hs : isolated s = true) : claimFor (exitTarget s) = none := by
  have hFree : isolatedFor s .free = true := by rw [isolatedFor, hs]; rfl
  unfold exitTarget
  split
  · rfl
  · rfl
  · rw [hFree, Bool.or_true]; rfl
  next m h1 h2 _ => cases m <;> first | rfl | contradiction

theorem exitTest_spared (hs : isolated s = true) : Spared s (exitTest s) :=
  .ite (fun _ => beginTransition_spared false (claimFor_exitTarget hs) s) fun _ => .refl s

theorem afterSettled_spared (hs : isolated s = true) : Spared s (afterSettled s) := by
  have hStart := startTest_spared hs
  exact hStart.trans (exitTest_spared (hStart.stillIsolated hs))

theorem cancelTransition_spared (s : State) : Spared s (cancelTransition s) :=
  ((cancelRequest_spared s).trans (releaseUnneeded_spared _ _)).trans ((Spared.seq _ _).trans (toSettled_spared _))

theorem leaveNow_spared (m : Mode) (hs : isolated s = true) : Spared s (leaveNow m s) := by
  have hCleared : Spared s (clearCandidate (s.setSeq { s.seq with forcedPending := none })) := (Spared.seq _ s).trans (Spared.seq _ _)
  refine hCleared.trans (.ite (fun _ => ?_) fun _ => afterSettled_spared (hCleared.stillIsolated hs))
  exact beginTransition_spared true (claimFor_forcedTarget _ _) _

theorem forceLeave_spared (m : Mode) (hs : isolated s = true) : Spared s (forceLeave m s) := by
  have hWaiting : Spared s (if s.seq.mode = some m then leaveNow m (endWait (cancelRequest s))
      else if targetOf s = some m then afterSettled (clearCandidate (cancelTransition s)) else s) := by
    refine .ite (fun _ => ?_) fun _ => .ite (fun _ => ?_) fun _ => .refl s
    · have hCancelled : Spared s (endWait (cancelRequest s)) := (cancelRequest_spared s).trans (Spared.seq _ _)
      exact hCancelled.trans (leaveNow_spared m (hCancelled.stillIsolated hs))
    · have hCancelled : Spared s (clearCandidate (cancelTransition s)) := (cancelTransition_spared s).trans (Spared.seq _ _)
      exact hCancelled.trans (afterSettled_spared (hCancelled.stillIsolated hs))
  unfold forceLeave
  refine .ite (fun _ => .refl s) fun _ => ?_
  dsimp only
  split
  · exact .ite (fun _ => leaveNow_spared m hs) fun _ => .refl s
  · exact hWaiting
  · exact hWaiting
  · exact .ite (fun _ => Spared.seq _ s |>.trans (Spared.seq _ _)) fun _ => .refl s
  · exact .ite (fun _ => Spared.seq _ s |>.trans (Spared.seq _ _)) fun _ => .refl s
  · exact .refl s

theorem linkLost_spared (hs : isolated s = true) : Spared s (linkLost s) := by
  obtain ⟨m, -, hEq⟩ := linkLost_eq s
  have hFirst := forceLeave_spared m hs
  rw [hEq]
  exact hFirst.trans (forceLeave_spared _ (hFirst.stillIsolated hs))

theorem enterMode_spared (m : Mode) (s : State) : Spared s (enterMode m s) := by
  have hMode : Spared s (setMode m (s.setSeq { s.seq with
      dwellStart := some s.now, dwellTimer := some (s.now + secs s.cfg.decision.tDWELL) })) :=
    (Spared.seq _ s).trans ((setMode_works m .refl).spared (setMode_claims ..))
  exact hMode.trans (.of_claims rfl rfl)

theorem rampCompleted_spared (m : Mode) (hs : isolated s = true) : Spared s (rampCompleted m s) := by
  have h1 : Spared s (if s.seq.mode = some m then s else enterMode m s) := .ite (fun _ => .refl s) fun _ => enterMode_spared m s
  have h2 := h1.trans (releaseUnneeded_spared (some m) _)
  have hTimers (u : State) : Spared u (if s.seq.mode = some m then u else defrostTimers s.seq.mode m u) := by
    refine .ite (fun _ => .refl u) fun _ => ?_
    rw [defrostTimers_eq]
    exact Spared.seq _ u
  have h4 := (h2.trans (hTimers _)).trans (toSettled_spared _)
  unfold rampCompleted
  dsimp only
  split
  · exact h4.trans (leaveNow_spared _ (h4.stillIsolated hs))
  · exact h4.trans (afterSettled_spared (h4.stillIsolated hs))

theorem reportOnce_spared (hs : isolated s = true) : Spared s (reportOnce s) := by
  have hOut (o : OutputUnit) : Spared s (s.setOut o) := .of_claims rfl rfl
  refine .ite (fun _ => ?_) fun _ => .refl s
  unfold takeCompletion
  split
  · exact hOut _
  · refine .ite (fun _ => ?_) fun _ => hOut _
    have hReported := hOut { s.out with completionPending := false }
    exact hReported.trans (rampCompleted_spared _ (hReported.stillIsolated hs))

theorem reportAll_spared (n : Nat) (hs : isolated s = true) : Spared s (reportAll n s) := by
  induction n generalizing s with
  | zero => exact .refl s
  | succ n ih =>
    have hOnce := reportOnce_spared hs
    exact .ite (fun _ => hOnce.trans (ih (hOnce.stillIsolated hs))) fun _ => .refl s

theorem settleRamps_spared (hs : isolated s = true) : Spared s (settleRamps s) := reportAll_spared 8 hs

/-! ## The link while isolated -/

/-- Two links with the same failure count, neither with an attempt the other has not, and with the same BEACON slot. -/
structure SameQueue (a b : Link) : Prop where
  failCount : b.failCount = a.failCount
  attempt : a.attempt = none → b.attempt = none
  beaconSlot : a.state = .offline ∨ a.state = .clashed → b.beaconSlot = a.beaconSlot
  state : b.state = a.state

theorem SameQueue.refl (a : Link) : SameQueue a a := ⟨rfl, id, fun _ => rfl, rfl⟩

theorem SameQueue.trans {a b c : Link} (h : SameQueue a b) (h' : SameQueue b c) : SameQueue a c :=
  ⟨h'.failCount.trans h.failCount, fun ha => h'.attempt (h.attempt ha),
    fun hs => (h'.beaconSlot (by rw [h.state]; exact hs)).trans (h.beaconSlot hs), h'.state.trans h.state⟩

theorem dropFrame_unattempted {sl : Slot} {l : Link} (h : l.attempt = none) : (dropFrame sl l).attempt = none := by
  exact (dropFrame_attempt_of_other fun a ha => by rw [h] at ha; cases ha).trans h

theorem queueBeacon_sameQueue (s : State) : SameQueue s.link (queueBeacon s).link := by
  unfold queueBeacon
  dsimp only
  split
  · exact .refl _
  next hOn =>
    have hLinked : ¬(s.link.state = .offline ∨ s.link.state = .clashed) := by
      rintro (h | h) <;> rw [h] at hOn <;> simp at hOn
    split
    · exact ⟨rfl, id, fun _ => rfl, rfl⟩
    · rw [State.setLink_link]
      refine ⟨by rw [dropFrame_eq], fun h => dropFrame_unattempted h, fun h => absurd h hLinked, dropFrame_state _ _⟩

theorem placeClaim_sameQueue (m : ClaimMsg) (s : State) : SameQueue s.link (placeClaim m s).link := by
  unfold placeClaim
  split
  · exact .refl _
  · dsimp only
    rw [State.setLink_link]
    exact ⟨by rw [dropFrame_eq], fun h => dropFrame_unattempted h, fun _ => dropFrame_beaconSlot _ _, dropFrame_state _ _⟩

theorem removeIntent_sameQueue (r : Resource) (s : State) : SameQueue s.link (removeIntent r s).link := by
  unfold removeIntent
  split
  · rw [State.setLink_link]
    exact ⟨by rw [clearClaimSlot_eq], fun h => dropFrame_unattempted h, fun _ => by rw [clearClaimSlot_eq], by rw [clearClaimSlot_eq]⟩
  · exact .refl _

theorem Works.sameQueue (h : Works s t) : SameQueue s.link t.link := by
  induction h with
  | refl => exact .refl _
  | still _ hl _ _ _ _ ih => rw [hl]; exact ih
  | beacon _ ih => exact ih.trans (queueBeacon_sameQueue _)
  | place m _ _ ih => exact ih.trans (placeClaim_sameQueue m _)
  | unIntent x _ _ ih => exact ih.trans (removeIntent_sameQueue x _)
  | proc x p _ _ _ ih => exact ih
  | drop x _ ih => exact ih

/-! ## LINK ON (R105, R106) -/

theorem execLinkOn_of_offline (hc : s.port.closed = true) (hr : s.port.restarting = false) (hl : s.link.state = .offline) :
    exec .linkOn s = .next (replyOk (settleRamps (startTest (enterJoining s)))) := by
  show execLinkOn s = _
  unfold execLinkOn
  rw [if_neg (by rw [hc]; decide), if_neg (by rw [hr]; decide), if_pos hl]

theorem startTest_settled_works (s : State) : Works s (settleRamps (startTest s)) := settleRamps_works (startTest_works .refl)

/-! ## LINK OFF (R85, R100, R104 to R106) -/

/-- The link OFFLINE, the Sequencer yet to take it. -/
def unlinked (s : State) : State :=
  disturbFrom s.link.state (s.setLink { stopTimers (clearBeacon (abortAttempt s.link)) with state := .offline })

theorem enterOffline_eq (s : State) : enterOffline s = settleRamps (linkLost (unlinked s)) := rfl

theorem disturb_eq (s : State) : disturb s = s.setClaims (disturb s).claims := rfl

theorem disturbFrom_eq (was : LinkState) (s : State) : disturbFrom was s = s.setClaims (disturbFrom was s).claims := by
  unfold disturbFrom
  split
  · exact disturb_eq s
  · rfl

theorem unlinked_link (s : State) : (unlinked s).link = { stopTimers (clearBeacon (abortAttempt s.link)) with state := .offline } := by
  rw [unlinked, disturbFrom_eq, State.setClaims_link, State.setLink_link]

theorem unlinked_kept (s : State) : (unlinked s).seq = s.seq ∧ (unlinked s).out = s.out ∧ (unlinked s).port = s.port
    ∧ (unlinked s).decision = s.decision := by
  rw [unlinked, disturbFrom_eq]
  exact ⟨by rw [State.setClaims_seq, State.setLink_seq], by rw [State.setClaims_out, State.setLink_out],
    by rw [State.setClaims_port, State.setLink_port], by rw [State.setClaims_decision, State.setLink_decision]⟩

theorem clearBeacon_eq (l : Link) : clearBeacon l = { l with
    beaconSlot := none, beaconMark := false, attempt := (clearBeacon l).attempt, failSlot := (clearBeacon l).failSlot
    alertMark := (clearBeacon l).alertMark } := by
  unfold clearBeacon
  rw [dropFrame_eq]

theorem abortAttempt_alertSlot (l : Link) : (abortAttempt l).alertSlot = l.alertSlot := by unfold abortAttempt; split <;> rfl

/-- The link on its entry into OFFLINE. -/
theorem unlinked_shown (s : State) : (unlinked s).link.state = .offline ∧ (unlinked s).link.beaconSlot = none
    ∧ (unlinked s).link.attempt = none ∧ (unlinked s).link.failCount = 0 ∧ (unlinked s).link.joinTimer = none
    ∧ (unlinked s).link.beaconTimer = none ∧ (unlinked s).link.quietTimer = none
    ∧ (unlinked s).link.alertSlot = s.link.alertSlot := by
  have hAttempt : (clearBeacon (abortAttempt s.link)).attempt = none := dropFrame_unattempted (abortAttempt_attempt s.link)
  rw [unlinked_link]
  refine ⟨rfl, rfl, hAttempt, rfl, rfl, rfl, rfl, ?_⟩
  show (clearBeacon (abortAttempt s.link)).alertSlot = _
  rw [clearBeacon_eq]
  exact abortAttempt_alertSlot s.link

theorem procOf_unlinked (s : State) (r : Resource) : (procOf (unlinked s) r).state = (procOf s r).state
    ∧ (procOf (unlinked s) r).request = (procOf s r).request
    ∧ (s.link.state = .online → (procOf (unlinked s) r).disturbed = true) := by
  unfold unlinked disturbFrom
  split
  · rw [procOf_disturb]
    exact ⟨rfl, rfl, fun _ => rfl⟩
  next h => exact ⟨rfl, rfl, fun h' => absurd h' h⟩

theorem unlinked_list (s : State) : (unlinked s).claims.list = s.claims.list := by
  unfold unlinked disturbFrom
  split <;> rfl

theorem unlinked_isolated (s : State) : isolated (unlinked s) = true := by
  unfold isolated
  rw [(unlinked_shown s).1]
  rfl

theorem unlinked_running (hc : s.port.closed = true) (hr : s.port.restarting = false) : running (unlinked s) = true := by
  obtain ⟨-, -, hPort, -⟩ := unlinked_kept s
  exact running_iff.2 ⟨by rw [hPort]; exact hc, by rw [hPort]; exact hr⟩

theorem linkLost_settled_works (s : State) : Works s (settleRamps (linkLost s)) := settleRamps_works (linkLost_works .refl)

theorem linkLost_settled_spared (hs : isolated s = true) : Spared s (settleRamps (linkLost s)) := by
  have hLost := linkLost_spared hs
  exact hLost.trans (settleRamps_spared (hLost.stillIsolated hs))

/-- The request of a transition that waits for its claim goes with the line (R43, R79). -/
theorem linkLost_unrequested {x : Transition} {r : Resource} (hs : isolated s = true) (hRun : running s = true)
    (hp : s.seq.phase = some .claiming) (ht : s.seq.transition = some x) (hr : claimFor x.target = some r)
    (hFree : s.seq.forcedPending = none) (hIdle : (procOf s r).state = .idle) :
    (procOf (settleRamps (linkLost s)) r).request = false := by
  have hCancel : procOf (cancelRequest s) r = { procOf s r with request := false } := by
    unfold cancelRequest
    rw [ht]
    dsimp only
    rw [hr]
    dsimp only
    unfold cancelClaim
    dsimp only
    rw [hIdle]
    exact procOf_setProc_same _ _ _
  have hGone {v : State} (h : Spared (cancelRequest s) v) (hEq : linkLost s = v) :
      (procOf (settleRamps (linkLost s)) r).request = false := by
    have hIsolated := (cancelRequest_spared s).stillIsolated hs
    have hAll := h.trans (settleRamps_spared (h.stillIsolated hIsolated))
    rw [hEq]
    exact (hAll.proc r (.inl (by rw [hCancel]; exact hIdle))).2 (by rw [hCancel])
  have hx : usesClaim x.target := usesClaim_iff.2 (by rw [hr]; exact nofun)
  have hIsolated := (cancelRequest_spared s).stillIsolated hs
  by_cases hMode : ∃ m, s.seq.mode = some m ∧ usesClaim m
  · obtain ⟨m, hMode, hm⟩ := hMode
    have hEnd : Spared (cancelRequest s) (endWait (cancelRequest s)) := Spared.seq _ _
    exact hGone (hEnd.trans (leaveNow_spared m (hEnd.stillIsolated hIsolated))) (linkLost_of_waiting hRun hFree hm hMode (.inl hp))
  · refine hGone ?_ (linkLost_of_entering hRun hFree hx ht hMode (.inl hp))
    exact (releaseUnneeded_spared _ _).trans ((Spared.seq _ _).trans ((toSettled_spared _).trans (Spared.seq _ _)))

theorem execLinkOff_of_free (hc : s.port.closed = true) (hr : s.port.restarting = false) (hOff : s.link.state ≠ .offline)
    (hClash : s.link.state ≠ .clashed) (hFree : ∀ r, AtRest s r) : exec .linkOff s = .next (replyOk (enterOffline s)) := by
  have hKeeps (r : Resource) : keepsLink (procOf s r) = false := by
    unfold keepsLink
    rcases hFree r with h | h <;> rw [h] <;> decide
  show execLinkOff s = _
  unfold execLinkOff
  rw [if_neg (by rw [hc]; decide), if_neg (by rw [hr]; decide), if_neg hOff, if_neg hClash, if_neg (by rw [hKeeps, hKeeps]; decide)]

theorem execLinkOff_of_held (hc : s.port.closed = true) (hr : s.port.restarting = false) (hOff : s.link.state ≠ .offline)
    (hClash : s.link.state ≠ .clashed) (hFree : ¬(AtRest s .relief ∧ AtRest s .defrost)) :
    exec .linkOff s = .next (refuse .claimsHeld s) := by
  have hKeeps (r : Resource) (h : ¬AtRest s r) : keepsLink (procOf s r) = true := by
    unfold AtRest at h
    unfold keepsLink
    rw [not_or] at h
    simp [h]
  show execLinkOff s = _
  unfold execLinkOff
  rw [if_neg (by rw [hc]; decide), if_neg (by rw [hr]; decide), if_neg hOff, if_neg hClash, if_pos]
  rcases Classical.not_and_iff_not_or_not.1 hFree with h | h <;> rw [hKeeps _ h]
  · rfl
  · rw [Bool.or_true]

theorem linkLossForces_replied (h : LinkLossForces s t) (x : Option Reply) :
    LinkLossForces s (t.setPort { t.port with reply := x }) := h

/-- Settles O28. -/
theorem linkCommandsJoinAndLeaveTheLine : Obligations.LinkCommandsJoinAndLeaveTheLine := by
  unfold Obligations.LinkCommandsJoinAndLeaveTheLine
  intro s
  refine ⟨fun ho => ⟨?openOn, ?openOff⟩, fun hc hr => ⟨fun hl => ?on, fun hl => ⟨?joins, fun hDue => ?tested⟩, fun hl => ?off,
    fun hl => ?clashed, fun hOff hClash hHeld => ?held, fun hOff hClash hRelief hDefrost => ?leaves⟩⟩
  case openOn =>
    show execLinkOn s = _
    unfold execLinkOn
    rw [if_pos (by rw [ho]; decide)]
    rfl
  case openOff =>
    show execLinkOff s = _
    unfold execLinkOff
    rw [if_pos (by rw [ho]; decide)]
    rfl
  case on =>
    show execLinkOn s = _
    unfold execLinkOn
    rw [if_neg (by rw [hc]; decide), if_neg (by rw [hr]; decide), if_neg hl]
    rfl
  case joins =>
    have hWorks := startTest_settled_works (enterJoining s)
    refine ⟨_, execLinkOn_of_offline hc hr hl, rfl, hWorks.sameLine.state, hWorks.sameLine.join, hWorks.sameQueue.failCount⟩
  case tested =>
    have hTested := startTested_replied (settled_startTest (s := enterJoining s) hDue) (some ⟨.ok, .none⟩)
    exact ⟨_, execLinkOn_of_offline hc hr hl, hTested⟩
  case off =>
    show execLinkOff s = _
    unfold execLinkOff
    rw [if_neg (by rw [hc]; decide), if_neg (by rw [hr]; decide), if_pos hl]
    rfl
  case clashed =>
    show execLinkOff s = _
    unfold execLinkOff
    rw [if_neg (by rw [hc]; decide), if_neg (by rw [hr]; decide), if_neg (by rw [hl]; decide), if_pos hl]
    rfl
  case held => exact execLinkOff_of_held hc hr hOff hClash hHeld
  case leaves =>
    have hRest : ∀ r, AtRest s r
      | .relief => hRelief
      | .defrost => hDefrost
    have hRestAfter (r : Resource) : AtRest (unlinked s) r := by
      unfold AtRest
      rw [(procOf_unlinked s r).1]
      exact hRest r
    have hRun := unlinked_running hc hr
    have hIsolated := unlinked_isolated s
    have hWorks := linkLost_settled_works (unlinked s)
    have hSpared := linkLost_settled_spared hIsolated
    obtain ⟨hState, hBeacon, hAttempt, hFail, hJoin, hTimer, hQuiet, hAlert⟩ := unlinked_shown s
    obtain ⟨hSeq, hOut, hPort, hDecision⟩ := unlinked_kept s
    have hLine := hWorks.sameLine
    have hQueue := hWorks.sameQueue
    refine ⟨_, execLinkOff_of_free hc hr hOff hClash hRest, rfl, ?_⟩
    rw [enterOffline_eq]
    refine ⟨hLine.state.trans hState, (hQueue.beaconSlot (.inl hState)).trans hBeacon, hQueue.attempt hAttempt, hQueue.failCount.trans hFail,
      hLine.join.trans hJoin, hLine.beacon.trans hTimer, hLine.quiet.trans hQuiet, hLine.alert.trans hAlert, fun hOnline => ⟨?_, ?_⟩,
      fun r => ((hSpared.proc r (hRestAfter r)).1).trans (procOf_unlinked s r).1, (hSpared.list hRestAfter).trans (unlinked_list s),
      fun hDue => ⟨?_, fun x r hp ht hFor hFree hIdle => ?_⟩⟩
    · exact (hWorks.sameClaims.disturbed .relief).trans ((procOf_unlinked s .relief).2.2 hOnline)
    · exact (hWorks.sameClaims.disturbed .defrost).trans ((procOf_unlinked s .defrost).2.2 hOnline)
    · have hCfg : (unlinked s).cfg = s.cfg := by rw [State.cfg, hPort, State.cfg]
      have hForces := settled_linkLost hRun ((completionDue_congr hCfg hOut).trans hDue)
      exact linkLossForces_replied (hForces.congr hSeq hOut hCfg hDecision) (some ⟨.ok, .none⟩)
    · exact linkLost_unrequested hIsolated hRun (by rw [hSeq]; exact hp) (by rw [hSeq]; exact ht) hFor (by rw [hSeq]; exact hFree)
        (by rw [(procOf_unlinked s r).1]; exact hIdle)

end

end Sys2Proof.Machine
end

section
/-! PROOF. Frames that clash and frames that go no further (O53): the notice that stays in the queue, what a clash does to the own
processes, and the forced leave it brings. -/

namespace Sys2Proof.Machine

section
variable {s t u : State}

/-! ## States reached by posting notices alone (R208) -/

/-- The port has changed by posted notices alone, each of a kind that P names, and no time has passed. -/
def Posts (P : NoticeBody → Prop) (s t : State) : Prop :=
  ∃ l : List NoticeBody, (∀ b ∈ l, P b) ∧ t.port = (postAll l s).port ∧ t.now = s.now

variable {P Q : NoticeBody → Prop}

theorem Posts.of_port (h : t.port = s.port) (hn : t.now = s.now) : Posts P s t := ⟨[], fun _ hb => absurd hb List.not_mem_nil, h, hn⟩

theorem Posts.refl (s : State) : Posts P s s := .of_port rfl rfl

theorem Posts.mono (hPQ : ∀ b, P b → Q b) (h : Posts P s t) : Posts Q s t := by
  obtain ⟨l, hl, hPort⟩ := h
  exact ⟨l, fun b hb => hPQ b (hl b hb), hPort⟩

theorem postAll_port_congr (l : List NoticeBody) (hPort : t.port = s.port) (hNow : t.now = s.now) :
    (postAll l t).port = (postAll l s).port := by
  induction l generalizing s t with
  | nil => exact hPort
  | cons b rest ih => exact ih (post_port_congr hPort hNow b) hNow

theorem postAll_append (l l' : List NoticeBody) (s : State) : postAll (l ++ l') s = postAll l' (postAll l s) := by
  induction l generalizing s with
  | nil => rfl
  | cons b rest ih => exact ih (post b s)

theorem postAll_now (l : List NoticeBody) (s : State) : (postAll l s).now = s.now := by rw [postAll_eq, State.setPort_now]

theorem Posts.trans (h : Posts P s t) (h' : Posts P t u) : Posts P s u := by
  obtain ⟨l, hl, hPort, hNow⟩ := h
  obtain ⟨l', hl', hPort', hNow'⟩ := h'
  refine ⟨l ++ l', fun b hb => (List.mem_append.1 hb).elim (hl b) (hl' b), ?_, hNow'.trans hNow⟩
  rw [hPort', postAll_append]
  exact postAll_port_congr l' hPort (hNow.trans (postAll_now l s).symm)

theorem Posts.post {b : NoticeBody} (hb : P b) (s : State) : Posts P s (post b s) :=
  ⟨[b], fun c hc => by rw [List.mem_singleton.1 hc]; exact hb, rfl, rfl⟩

theorem Posts.seq (q : Sequencer) (s : State) : Posts P s (s.setSeq q) := .of_port (State.setSeq_port s q) (State.setSeq_now s q)

theorem Posts.ite {c : Prop} [Decidable c] {a b : State} (ha : Posts P s a) (hb : Posts P s b) : Posts P s (if c then a else b) := by
  split <;> assumption

theorem Posts.claiming (h : Acts Part.claiming s t) : Posts P s t := .of_port (ClaimActs.port h) h.now

theorem mem_dropOldestEvent {q q' : List Notice} {n : Notice} (h : dropOldestEvent q = some q') (hn : n ∈ q) (hf : n.cls ≠ .event) :
    n ∈ q' := by
  induction q generalizing q' with
  | nil => cases hn
  | cons m rest ih =>
    rw [dropOldestEvent] at h
    by_cases hm : m.cls = .event
    · rw [if_pos hm] at h
      cases h
      rcases List.mem_cons.1 hn with rfl | hn
      · exact absurd hm hf
      · exact hn
    · rw [if_neg hm] at h
      obtain ⟨r, hr, rfl⟩ := Option.map_eq_some_iff.1 h
      rcases List.mem_cons.1 hn with rfl | hn
      · exact List.mem_cons_self
      · exact List.mem_cons_of_mem _ (ih hr hn)

/-- A notice in the queue that is no EVENT is never given up for another (R208). -/
theorem mem_post {n : Notice} (b : NoticeBody) (hn : n ∈ s.port.notices) (hf : n.cls ≠ .event) : n ∈ (post b s).port.notices := by
  show n ∈ (queueNotice s.port.notices s.port.overflow (noticeNow b s)).1
  unfold queueNotice
  split
  · exact List.mem_append_left _ hn
  · split
    · split
      next hq => exact List.mem_append_left _ (mem_dropOldestEvent hq hn hf)
      next => exact hn
    · exact hn

theorem mem_postAll {n : Notice} (l : List NoticeBody) (hn : n ∈ s.port.notices) (hf : n.cls ≠ .event) :
    n ∈ (postAll l s).port.notices := by
  induction l generalizing s with
  | nil => exact hn
  | cons b rest ih => exact ih (mem_post b hn hf)

theorem Posts.mem {n : Notice} (h : Posts P s t) (hn : n ∈ s.port.notices) (hf : n.cls ≠ .event) : n ∈ t.port.notices := by
  obtain ⟨l, -, hPort, -⟩ := h
  rw [hPort]
  exact mem_postAll l hn hf

/-! ## The Sequencer's work posts notices alone -/

/-- The notices of the Sequencer's own work: MODE_CHANGED and TRANSITION_ABANDONED. -/
def SequencerPosts (b : NoticeBody) : Prop := (∃ m, b = .modeChanged m) ∨ ∃ m, b = .transitionAbandoned m

theorem beginTransition_posts (m : Mode) (f : Bool) (s : State) : Posts SequencerPosts s (beginTransition m f s) := by
  have hWait (u : State) : Posts SequencerPosts u (enterWaitOrRamp m f u) :=
    .ite (.of_port (enterRamping_port m u) (enterRamping_now m u)) (.of_port (setPhase_port ..) (setPhase_now ..))
  rw [beginTransition_eq]
  have hBegun : Posts SequencerPosts s (begun m f s) := .seq _ s
  refine hBegun.trans ?_
  unfold enterFirstPhase
  split
  · refine .ite (hWait _) ?_
    exact Posts.trans (.of_port (setPhase_port ..) (setPhase_now ..)) (.claiming (requestClaim_claimActs _ _))
  · exact hWait _

theorem startTest_posts (s : State) : Posts SequencerPosts s (startTest s) := by
  unfold startTest
  split
  · exact .refl s
  · exact .ite (beginTransition_posts _ _ s) (.refl s)

theorem exitTest_posts (s : State) : Posts SequencerPosts s (exitTest s) := .ite (beginTransition_posts _ _ s) (.refl s)

theorem afterSettled_posts (s : State) : Posts SequencerPosts s (afterSettled s) := (startTest_posts s).trans (exitTest_posts _)

theorem toSettled_posts (s : State) : Posts SequencerPosts s (toSettled s) := .of_port (toSettled_port s) (toSettled_works .refl).now_eq

theorem cancelTransition_posts (s : State) : Posts SequencerPosts s (cancelTransition s) :=
  ((Posts.claiming (cancelRequest_claimActs s)).trans (.claiming (releaseUnneeded_claimActs _ _))).trans
    (Posts.trans (.seq _ _) (toSettled_posts _))

theorem leaveNow_posts (m : Mode) (s : State) : Posts SequencerPosts s (leaveNow m s) := by
  have hCleared : Posts SequencerPosts s (clearCandidate (s.setSeq { s.seq with forcedPending := none })) :=
    (Posts.seq _ s).trans (.seq _ _)
  exact hCleared.trans (.ite (beginTransition_posts _ _ _) (afterSettled_posts _))

theorem forceLeave_posts (m : Mode) (s : State) : Posts SequencerPosts s (forceLeave m s) := by
  have hWaiting : Posts SequencerPosts s (if s.seq.mode = some m then leaveNow m (endWait (cancelRequest s))
      else if targetOf s = some m then afterSettled (clearCandidate (cancelTransition s)) else s) := by
    refine .ite ?_ (.ite ?_ (.refl s))
    · exact (Posts.claiming (cancelRequest_claimActs s)).trans (Posts.trans (.seq _ _) (leaveNow_posts m _))
    · exact (cancelTransition_posts s).trans (Posts.trans (.seq _ _) (afterSettled_posts _))
  have hLater : Posts SequencerPosts s (leaveLater m s) := (Posts.seq _ s).trans (.seq _ _)
  unfold forceLeave
  refine .ite (.refl s) ?_
  dsimp only
  split
  · exact .ite (leaveNow_posts m s) (.refl s)
  · exact hWaiting
  · exact hWaiting
  · exact .ite hLater (.refl s)
  · exact .ite hLater (.refl s)
  · exact .refl s

theorem linkLost_posts (s : State) : Posts SequencerPosts s (linkLost s) := by
  obtain ⟨m, -, hEq⟩ := linkLost_eq s
  rw [hEq]
  exact (forceLeave_posts _ s).trans (forceLeave_posts _ _)

theorem enterMode_posts (m : Mode) (s : State) : Posts SequencerPosts s (enterMode m s) := by
  have hMode : Posts SequencerPosts s (setMode m (s.setSeq { s.seq with
      dwellStart := some s.now, dwellTimer := some (s.now + secs s.cfg.decision.tDWELL) })) :=
    .of_port (setMode_port ..) (setMode_now ..)
  exact hMode.trans (.post (.inl ⟨m, rfl⟩) _)

theorem rampCompleted_posts (m : Mode) (s : State) : Posts SequencerPosts s (rampCompleted m s) := by
  have hEntered : Posts SequencerPosts s (if s.seq.mode = some m then s else enterMode m s) := .ite (.refl s) (enterMode_posts m s)
  have hTimers (u : State) : Posts SequencerPosts u (if s.seq.mode = some m then u else defrostTimers s.seq.mode m u) := by
    refine .ite (.refl u) ?_
    rw [defrostTimers_eq]
    exact .of_port rfl rfl
  have hSettled := ((hEntered.trans (.claiming (releaseUnneeded_claimActs (some m) _))).trans (hTimers _)).trans (toSettled_posts _)
  unfold rampCompleted
  dsimp only
  split
  · exact hSettled.trans (leaveNow_posts _ _)
  · exact hSettled.trans (afterSettled_posts _)

theorem reportOnce_posts (s : State) : Posts SequencerPosts s (reportOnce s) := by
  have hOut (o : OutputUnit) : Posts SequencerPosts s (s.setOut o) := .of_port rfl rfl
  refine .ite ?_ (.refl s)
  unfold takeCompletion
  split
  · exact hOut _
  · exact .ite ((hOut _).trans (rampCompleted_posts _ _)) (hOut _)

theorem reportAll_posts (n : Nat) (s : State) : Posts SequencerPosts s (reportAll n s) := by
  induction n generalizing s with
  | zero => exact .refl s
  | succ n ih => exact .ite ((reportOnce_posts s).trans (ih _)) (.refl s)

theorem settleRamps_posts (s : State) : Posts SequencerPosts s (settleRamps s) := reportAll_posts 8 s

/-! ## The own processes at a clash (R86) -/

/-- The link CLASHED, its queue empty and its timers stopped (R110). -/
def clashedLink (l : Link) : Link := { stopTimers (clearQueue l) with state := .clashed }

/-- The clash noticed, before the own processes take it. -/
def clashNoticed (k : FrameKind) (shaft : Nat) (s : State) : State :=
  disturbFrom s.link.state (post (.addressClash (ownAddr s) k shaft) (s.setLink (clashedLink s.link)))

/-- Both own processes have taken the clash. -/
def clashTaken (s : State) : State := (clashProc .defrost (clashProc .relief s).1).1

theorem clashProc_eq (r : Resource) (s : State) : ∃ c, (clashProc r s).1 = s.setClaims c ∧ ∀ x ∈ (clashProc r s).2, x = .yielding r .clash := by
  unfold clashProc
  dsimp only
  split
  case h_1 => exact ⟨_, rfl, fun x hx => List.mem_singleton.1 hx⟩
  all_goals exact ⟨_, rfl, fun x hx => by cases hx⟩

theorem takeClaimReport_of_clash (r : Resource) (s : State) : takeClaimReport (.yielding r .clash) s = s := by
  unfold takeClaimReport
  split <;> rfl

theorem takeClaimReports_of_clashes {l : List ClaimReport} (h : ∀ x ∈ l, ∃ r, x = .yielding r .clash) (s : State) :
    takeClaimReports l s = s := by
  induction l generalizing s with
  | nil => rfl
  | cons x rest ih =>
    obtain ⟨r, rfl⟩ := h x List.mem_cons_self
    rw [takeClaimReports, takeClaimReport_of_clash]
    exact ih (fun y hy => h y (List.mem_cons_of_mem _ hy)) s

theorem enterClashed_eq (k : FrameKind) (shaft : Nat) (s : State) :
    enterClashed k shaft s = settleRamps (linkLost (clashTaken (clashNoticed k shaft s))) := by
  have hReports : takeClaimReports (thenReport (clashProc .relief (clashNoticed k shaft s)) (clashProc .defrost)).2
      (clashTaken (clashNoticed k shaft s)) = clashTaken (clashNoticed k shaft s) := by
    refine takeClaimReports_of_clashes (fun x hx => ?_) _
    obtain ⟨_, -, hRelief⟩ := clashProc_eq .relief (clashNoticed k shaft s)
    obtain ⟨_, -, hDefrost⟩ := clashProc_eq .defrost (clashProc .relief (clashNoticed k shaft s)).1
    rcases List.mem_append.1 hx with hx | hx
    · exact ⟨_, hRelief x hx⟩
    · exact ⟨_, hDefrost x hx⟩
  have hReported : reported (thenReport (clashProc .relief (clashNoticed k shaft s)) (clashProc .defrost))
      = clashTaken (clashNoticed k shaft s) := hReports
  show settleRamps (linkLost (reported (thenReport (clashProc .relief (clashNoticed k shaft s)) (clashProc .defrost)))) = _
  rw [hReported]

theorem clashProc_other {r x : Resource} (h : x ≠ r) (s : State) : procOf (clashProc r s).1 x = procOf s x := by
  unfold clashProc
  dsimp only
  split
  case h_1 => exact procOf_setProc_other h _ _
  case h_2 => exact procOf_setProc_other h _ _
  case h_3 => exact (procOf_removeRecord ..).trans (toIdle_other h _ _)
  case h_8 => exact procOf_setProc_other h _ _
  case h_9 => exact procOf_setProc_other h _ _
  all_goals exact toIdle_other h _ _

/-- What a clash does to one process. -/
def ClashTaken (r : Resource) (s t : State) : Prop :=
  ((procOf s r).state = .pending ∨ (procOf s r).state = .holdoff ∨ (procOf s r).state = .committing
      ∨ (procOf s r).state = .backoff ∨ (procOf s r).state = .releasing → (procOf t r).state = .idle)
    ∧ ((procOf s r).state = .held → (procOf t r).state = .yielding ∧ (procOf t r).cause = some .clash)

theorem toIdle_same (r : Resource) (b : Bool) (s : State) : (procOf (toIdle r b s) r).state = .idle := by
  rw [procOf_toIdle, if_pos rfl]

theorem clashProc_taken (r : Resource) (s : State) : ClashTaken r s (clashProc r s).1 := by
  unfold ClashTaken clashProc
  dsimp only
  split
  case h_1 hs => rw [hs]; exact ⟨by simp, fun _ => by dsimp only; rw [procOf_setProc_same]; exact ⟨rfl, rfl⟩⟩
  case h_3 hs => rw [hs]; exact ⟨fun _ => toIdle_same r false s, nofun⟩
  case h_4 hs => rw [hs]; exact ⟨fun _ => toIdle_same r false s, nofun⟩
  case h_5 hs => rw [hs]; exact ⟨fun _ => toIdle_same r false s, nofun⟩
  case h_6 hs => rw [hs]; exact ⟨fun _ => toIdle_same r false s, nofun⟩
  case h_7 hs => rw [hs]; exact ⟨fun _ => toIdle_same r false s, nofun⟩
  all_goals next hs => rw [hs]; exact ⟨by simp, nofun⟩

theorem clashTaken_each (s : State) (r : Resource) : ClashTaken r s (clashTaken s) := by
  cases r with
  | relief =>
    have h := clashProc_taken .relief s
    unfold ClashTaken clashTaken at *
    rw [clashProc_other (by decide)]
    exact h
  | defrost =>
    have h := clashProc_taken .defrost (clashProc .relief s).1
    unfold ClashTaken clashTaken at *
    rw [clashProc_other (r := .relief) (x := .defrost) (by decide)] at h
    exact h

theorem clashTaken_eq (s : State) : ∃ c, clashTaken s = s.setClaims c := by
  obtain ⟨c, hc, -⟩ := clashProc_eq .relief s
  obtain ⟨d, hd, -⟩ := clashProc_eq .defrost (clashProc .relief s).1
  refine ⟨d, ?_⟩
  unfold clashTaken
  rw [hd, hc]
  rfl

/-! ## The clash (R95, R110) -/

theorem clashNoticed_link (k : FrameKind) (shaft : Nat) (s : State) : (clashNoticed k shaft s).link = clashedLink s.link := by
  rw [clashNoticed, disturbFrom_eq, State.setClaims_link, post_eq, State.setPort_link, State.setLink_link]

theorem clashNoticed_port (k : FrameKind) (shaft : Nat) (s : State) :
    (clashNoticed k shaft s).port = (post (.addressClash (ownAddr s) k shaft) s).port := by
  rw [clashNoticed, disturbFrom_eq, State.setClaims_port]
  exact post_port_congr (State.setLink_port ..) (State.setLink_now ..) _

theorem clashNoticed_now (k : FrameKind) (shaft : Nat) (s : State) : (clashNoticed k shaft s).now = s.now := by
  rw [clashNoticed, disturbFrom_eq, State.setClaims_now, post_eq, State.setPort_now, State.setLink_now]

theorem clashNoticed_kept (k : FrameKind) (shaft : Nat) (s : State) : (clashNoticed k shaft s).seq = s.seq
    ∧ (clashNoticed k shaft s).out = s.out ∧ (clashNoticed k shaft s).decision = s.decision
    ∧ (clashNoticed k shaft s).peers = s.peers ∧ (clashNoticed k shaft s).cfg = s.cfg := by
  rw [clashNoticed, disturbFrom_eq, post_eq]
  exact ⟨by rw [State.setClaims_seq, State.setPort_seq, State.setLink_seq], by rw [State.setClaims_out, State.setPort_out, State.setLink_out],
    by rw [State.setClaims_decision, State.setPort_decision, State.setLink_decision],
    by rw [State.setClaims_peers, State.setPort_peers, State.setLink_peers], rfl⟩

theorem procOf_clashNoticed (k : FrameKind) (shaft : Nat) (s : State) (r : Resource) :
    (procOf (clashNoticed k shaft s) r).state = (procOf s r).state := by
  unfold clashNoticed disturbFrom
  split
  · rw [procOf_disturb, procOf_post]
    rfl
  · rw [procOf_post]
    rfl

/-- A link without claim frames while CLASHED stays without (R102). -/
theorem Works.slotsEmpty (h : Works s t) (hc : s.link.state = .clashed) (he : s.link.claimSlot = ⟨none, none⟩) :
    t.link.claimSlot = ⟨none, none⟩ := by
  induction h with
  | refl => exact he
  | still _ hl _ _ _ _ ih => rw [hl]; exact ih
  | @beacon u hu ih =>
    unfold queueBeacon
    dsimp only
    rw [if_pos (by rw [hu.sameLine.state, hc]; simp)]
    exact ih
  | @place u m hu _ ih =>
    unfold placeClaim
    rw [if_pos (hu.sameLine.state.trans hc)]
    exact ih
  | @unIntent u x hu _ ih =>
    have hNone : claimIn u x = none := by rw [claimIn, ih]; cases x <;> rfl
    unfold removeIntent
    rw [hNone]
    exact ih
  | proc x p _ _ _ ih => exact ih
  | drop x _ ih => exact ih

theorem settleRamps_of_held (h : running s = false) : ∃ b, settleRamps s = s.setOut { s.out with completionPending := b } := by
  by_cases hDue : completionDue s = true
  · have hOnce : reportOnce s = s.setOut { s.out with completionPending := false } := by
      unfold reportOnce takeCompletion
      rw [if_pos hDue]
      split
      · rfl
      · have hStill : running (s.setOut { s.out with completionPending := false }) = false := h
        rw [hStill]
        rfl
    refine ⟨false, ?_⟩
    have hNot : completionDue (s.setOut { s.out with completionPending := false }) = false := completionDue_of_not_pending rfl
    show reportAll 8 s = _
    rw [reportAll, if_pos hDue, hOnce, reportAll, hNot]
    rfl
  · exact ⟨s.out.completionPending, settleRamps_of_not_due (Bool.not_eq_true _ ▸ hDue)⟩

theorem linkLost_settled_posts (s : State) : Posts SequencerPosts s (settleRamps (linkLost s)) := (linkLost_posts s).trans (settleRamps_posts _)

theorem linkLost_settled_peers (s : State) : (settleRamps (linkLost s)).peers = s.peers := by
  have hp : Sequences Part.unpeered := ⟨rfl, rfl, rfl, rfl, rfl, rfl⟩
  exact (settleRamps_acts (linkLost_acts .refl hp) hp).peers_eq rfl

/-- What a clash leaves. -/
structure Clashed (k : FrameKind) (shaft : Nat) (s t : State) : Prop where
  line : SameLine (clashedLink s.link) t.link
  queue : SameQueue (clashedLink s.link) t.link
  slots : t.link.claimSlot = ⟨none, none⟩
  peers : t.peers = s.peers
  idle : ∀ r, (procOf s r).state = .pending ∨ (procOf s r).state = .holdoff ∨ (procOf s r).state = .committing
    ∨ (procOf s r).state = .backoff ∨ (procOf s r).state = .releasing → (procOf t r).state = .idle
  waiting : s.port.restarting = true → t.port = (post (.addressClash (ownAddr s) k shaft) s).port
    ∧ ∀ r, (procOf s r).state = .held → (procOf t r).state = .yielding ∧ (procOf t r).cause = some .clash
  posts : Posts SequencerPosts (post (.addressClash (ownAddr s) k shaft) s) t
  forces : s.port.closed = true → s.port.restarting = false → completionDue s = false → LinkLossForces s t

theorem enterClashed_clashed (k : FrameKind) (shaft : Nat) (s : State) : Clashed k shaft s (enterClashed k shaft s) := by
  obtain ⟨c, hTaken⟩ := clashTaken_eq (clashNoticed k shaft s)
  obtain ⟨hSeq, hOut, hDecision, hPeers, hCfg⟩ := clashNoticed_kept k shaft s
  have hEach := clashTaken_each (clashNoticed k shaft s)
  have hLink : (clashTaken (clashNoticed k shaft s)).link = clashedLink s.link := by
    rw [hTaken, State.setClaims_link, clashNoticed_link]
  have hPort : (clashTaken (clashNoticed k shaft s)).port = (post (.addressClash (ownAddr s) k shaft) s).port := by
    rw [hTaken, State.setClaims_port, clashNoticed_port]
  have hNow : (clashTaken (clashNoticed k shaft s)).now = s.now := by rw [hTaken, State.setClaims_now, clashNoticed_now]
  have hSeq' : (clashTaken (clashNoticed k shaft s)).seq = s.seq := by rw [hTaken, State.setClaims_seq, hSeq]
  have hOut' : (clashTaken (clashNoticed k shaft s)).out = s.out := by rw [hTaken, State.setClaims_out, hOut]
  have hDecision' : (clashTaken (clashNoticed k shaft s)).decision = s.decision := by rw [hTaken, State.setClaims_decision, hDecision]
  have hPeers' : (clashTaken (clashNoticed k shaft s)).peers = s.peers := by rw [hTaken, State.setClaims_peers, hPeers]
  have hCfg' : (clashTaken (clashNoticed k shaft s)).cfg = s.cfg := by rw [State.cfg, hPort, ← State.cfg, post_cfg]
  have hRestart : (clashTaken (clashNoticed k shaft s)).port.restarting = s.port.restarting := by rw [hPort]; rfl
  have hClosed : (clashTaken (clashNoticed k shaft s)).port.closed = s.port.closed := by rw [hPort]; rfl
  rw [enterClashed_eq]
  generalize clashTaken (clashNoticed k shaft s) = v at *
  have hWorks := linkLost_settled_works v
  have hState : v.link.state = .clashed := by rw [hLink]; rfl
  have hIsolated : isolated v = true := by rw [isolated, hState]; rfl
  have hSpared := linkLost_settled_spared hIsolated
  constructor
  case line => rw [← hLink]; exact hWorks.sameLine
  case queue => rw [← hLink]; exact hWorks.sameQueue
  case slots => exact hWorks.slotsEmpty hState (by rw [hLink]; rfl)
  case peers => rw [linkLost_settled_peers, hPeers']
  case idle =>
    intro r h
    have hIdle := (hEach r).1 (by rw [procOf_clashNoticed]; exact h)
    exact ((hSpared.proc r (.inl hIdle)).1).trans hIdle
  case waiting =>
    intro hr
    have hHeld : running v = false := by rw [running, hRestart, hr, Bool.not_true, Bool.and_false]
    obtain ⟨b, hb⟩ := settleRamps_of_held hHeld
    rw [linkLost_of_idle (.inl hHeld), hb]
    exact ⟨by rw [State.setOut_port, hPort], fun r h => (hEach r).2 (by rw [procOf_clashNoticed]; exact h)⟩
  case posts => exact Posts.trans (.of_port hPort (hNow.trans rfl)) (linkLost_settled_posts v)
  case forces =>
    intro hc hr hDue
    have hRun : running v = true := running_iff.2 ⟨by rw [hClosed]; exact hc, by rw [hRestart]; exact hr⟩
    exact (settled_linkLost hRun ((completionDue_congr hCfg' hOut').trans hDue)).congr hSeq' hOut' hCfg' hDecision'

/-! ## Received frames (R94 to R96, R98) -/

theorem processing_iff : processing s = true ↔ s.port.closed = true ∧ s.link.state ≠ .offline := by simp [processing]

theorem receiveFrame_of_processed {f : LineFrame} {x : RiserFrame} (hx : readRiser f = some x)
    (h : s.port.closed = true ∧ s.link.state ≠ .offline) : exec (.frameReceived f) s = .next (processFrame x s) := by
  show Host.Outcome.next (receiveFrame f s) = _
  unfold receiveFrame
  rw [hx]
  exact congrArg Host.Outcome.next (if_pos (processing_iff.2 h))

theorem processFrame_of_other {x : RiserFrame} (h : x.addr ≠ ownAddr s) :
    processFrame x s = if s.port.restarting then numberFrame s else handOn x (numberFrame s) := if_neg h

theorem processFrame_of_own {x : RiserFrame} (h : x.addr = ownAddr s) :
    processFrame x s = if s.link.state = .clashed then numberFrame s else enterClashed x.kind x.shaft (numberFrame s) := if_pos h

theorem clashedLink_shown (l : Link) : (clashedLink l).state = .clashed ∧ (clashedLink l).sequence = l.sequence
    ∧ (clashedLink l).beaconSlot = none ∧ (clashedLink l).alertSlot = none ∧ (clashedLink l).attempt = none
    ∧ (clashedLink l).joinTimer = none ∧ (clashedLink l).beaconTimer = none ∧ (clashedLink l).quietTimer = none
    ∧ (clashedLink l).failCount = 0 :=
  ⟨rfl, abortAttempt_sequence l, rfl, rfl, abortAttempt_attempt l, rfl, rfl, rfl, rfl⟩

/-- Settles O53. -/
theorem clashesAndIgnoredFrames : Obligations.ClashesAndIgnoredFrames := by
  unfold Obligations.ClashesAndIgnoredFrames
  intro s f numbered heard
  refine ⟨fun h => ?ignored, fun x hx hHeard hOther hr => ?waiting, fun x hx hHeard hOther hBody => ?unknown,
    fun x hx hHeard hOwn hState => ?again, fun x hx hHeard hOwn hState => ?clash, fun h => ?fault, fun hHeard hr => ?disturbed⟩
  case ignored =>
    show Host.Outcome.next (receiveFrame f s) = _
    unfold receiveFrame
    rcases h with h | h
    · rw [h]
    · split
      · rfl
      · exact congrArg Host.Outcome.next (if_neg (mt processing_iff.1 h))
  case waiting =>
    rw [receiveFrame_of_processed hx hHeard, processFrame_of_other hOther, if_pos hr]
    rfl
  case unknown =>
    have hNone : handOn x (numberFrame s) = numberFrame s := by unfold handOn; rw [hBody]
    rw [receiveFrame_of_processed hx hHeard, processFrame_of_other hOther, hNone, ite_self]
    rfl
  case again =>
    rw [receiveFrame_of_processed hx hHeard, processFrame_of_own hOwn, if_pos hState]
    rfl
  case clash =>
    have hClashed := enterClashed_clashed x.kind x.shaft (numberFrame s)
    obtain ⟨hLink, hSequence, hBeacon, hAlert, hAttempt, hJoin, hTimer, hQuiet, hFail⟩ := clashedLink_shown (numberFrame s).link
    have hPosted : HasRoom s → (post (.addressClash (ownAddr s) x.kind x.shaft) (numberFrame s)).port.notices
        = s.port.notices ++ [noticeNow (.addressClash (ownAddr s) x.kind x.shaft) s] := fun hRoom => by
      rw [post_of_room (s := numberFrame s) hRoom]
      rfl
    refine ⟨_, receiveFrame_of_processed hx hHeard, ?_⟩
    rw [processFrame_of_own hOwn, if_neg hState]
    generalize enterClashed x.kind x.shaft (numberFrame s) = t at *
    have hLine := hClashed.line
    have hQueue := hClashed.queue
    refine ⟨hLine.state.trans hLink, hLine.sequence.trans hSequence, (hQueue.beaconSlot (.inr hLink)).trans hBeacon,
      hLine.alert.trans hAlert, hClashed.slots, hQueue.attempt hAttempt, hLine.join.trans hJoin, hLine.beacon.trans hTimer,
      hLine.quiet.trans hQuiet, hQueue.failCount.trans hFail, hClashed.peers, fun r h => hClashed.idle r h, fun hr hRoom => ⟨?_, ?_⟩,
      fun hRoom => ?_, fun hr hDue => ?_⟩
    · exact (congrArg Port.notices (hClashed.waiting hr).1).trans (hPosted hRoom)
    · exact (hClashed.waiting hr).2
    · refine hClashed.posts.mem ?_ nofun
      have hHere := List.mem_append_right s.port.notices
        (List.mem_singleton.2 (rfl : noticeNow (.addressClash (ownAddr s) x.kind x.shaft) s = _))
      rw [← hPosted hRoom] at hHere
      exact hHere
    · exact hClashed.forces hHeard.1 hr hDue
  case fault =>
    show Host.Outcome.next (receiveFault s) = _
    unfold receiveFault
    refine congrArg Host.Outcome.next (if_neg fun hp => ?_)
    rw [Bool.and_eq_true, Bool.not_eq_true'] at hp
    rcases h with h | h
    · exact h (processing_iff.1 hp.1)
    · rw [h] at hp; cases hp.2
  case disturbed =>
    show Host.Outcome.next (receiveFault s) = _
    unfold receiveFault
    rw [if_pos (by rw [processing_iff.2 hHeard, hr]; rfl)]
    rfl

end

end Sys2Proof.Machine
end

section
/-! PROOF. Evaluation records at the Mode Sequencer (O38): counting, the running update, the cancellation of a transition and its abort. -/

namespace Sys2Proof.Machine

section
variable {s t u : State}

/-! ## Blocks (R32) -/

theorem blocked_congr (m : Mode) (hHold : t.limits.hold = s.limits.hold) (hDwell : t.seq.dwellStart = s.seq.dwellStart)
    (hMode : t.seq.mode = s.seq.mode) (hExpired : t.seq.defrostExpired = s.seq.defrostExpired) (hCfg : t.cfg = s.cfg)
    (hNow : t.now = s.now) (hLink : t.link.state = s.link.state)
    (hStarved : ∀ r, (procOf t r).state = .starved ↔ (procOf s r).state = .starved) : blocked t m = blocked s m := by
  have hFor : starvedFor t m = starvedFor s m := by
    unfold starvedFor
    split
    · rfl
    · exact decide_eq_decide.2 (hStarved _)
  have hDwelling : dwelling t = dwelling s := by unfold dwelling; rw [hDwell, hCfg, hNow]
  have hIsolated : isolatedFor t m = isolatedFor s m := by unfold isolatedFor isolated; rw [hLink]
  unfold blocked
  rw [hHold, hDwelling, hMode, hExpired, hFor, hIsolated]

/-! ## Cancelling a request (R43, R79) -/

/-- What a cancel does to its process and its frame (R79). -/
def RequestCancelled (r : Resource) (s t : State) : Prop :=
  ((procOf s r).state = .pending ∨ (procOf s r).state = .holdoff ∨ (procOf s r).state = .committing ∨ (procOf s r).state = .backoff →
      (procOf t r).state = .idle ∧ (procOf t r).attempt = 0 ∧ (procOf t r).request = false)
    ∧ ((procOf s r).state = .holdoff ∨ (procOf s r).state = .committing → s.link.state ≠ .clashed →
        claimIn t r = some (.withdraw r .cancelled))
    ∧ ((procOf s r).state = .idle ∨ (procOf s r).state = .releasing → procOf t r = { procOf s r with request := false })
    ∧ ((procOf s r).state = .held → procOf t r = procOf s r)

theorem procOf_toIdle_same (r : Resource) (b : Bool) (s : State) : procOf (toIdle r b s) r =
    { procOf s r with state := .idle, attempt := 0, request := b, timer := none, cause := none } := by rw [procOf_toIdle, if_pos rfl]

theorem withdraw_claimIn (r : Resource) (why : WithdrawReason) (h : s.link.state ≠ .clashed) :
    claimIn (placeClaim (.withdraw r why) s) r = some (.withdraw r why) := by
  rw [claimIn_placeClaim _ _ h]
  exact if_pos rfl

theorem cancelClaim_cancelled (r : Resource) (s : State) : RequestCancelled r s (cancelClaim r s) := by
  unfold RequestCancelled cancelClaim
  dsimp only
  split
  case h_1 hs => rw [hs]; exact ⟨by simp, by simp, fun _ => procOf_setProc_same .., nofun⟩
  case h_2 hs =>
    rw [hs, procOf_toIdle_same, procOf_removeIntent]
    exact ⟨fun _ => ⟨rfl, rfl, rfl⟩, by simp, by simp, nofun⟩
  case h_3 hs =>
    rw [hs, procOf_placeClaim, procOf_toIdle_same]
    exact ⟨fun _ => ⟨rfl, rfl, rfl⟩, fun _ h => withdraw_claimIn r _ h, by simp, nofun⟩
  case h_4 hs =>
    rw [hs, procOf_placeClaim, procOf_toIdle_same]
    exact ⟨fun _ => ⟨rfl, rfl, rfl⟩, fun _ h => withdraw_claimIn r _ h, by simp, nofun⟩
  case h_5 hs => rw [hs, procOf_toIdle_same]; exact ⟨fun _ => ⟨rfl, rfl, rfl⟩, by simp, by simp, nofun⟩
  case h_6 hs => rw [hs]; exact ⟨by simp, by simp, fun _ => procOf_setProc_same .., nofun⟩
  case h_7 hs => exact ⟨by rw [hs]; simp, by rw [hs]; simp, by rw [hs]; simp, fun _ => rfl⟩
  case h_8 hs => rw [hs]; exact ⟨by simp, by simp, by simp, nofun⟩
  case h_9 hs => rw [hs]; exact ⟨by simp, by simp, by simp, nofun⟩

/-- Two states with the same process and frame of a resource. -/
def SameProc (x : Resource) (s t : State) : Prop := procOf t x = procOf s x ∧ claimIn t x = claimIn s x

theorem SameProc.refl (x : Resource) (s : State) : SameProc x s s := ⟨rfl, rfl⟩

theorem SameProc.trans {x : Resource} (h : SameProc x s t) (h' : SameProc x t u) : SameProc x s u := ⟨h'.1.trans h.1, h'.2.trans h.2⟩

theorem SameProc.of_eq {x : Resource} (hClaims : t.claims = s.claims) (hSlots : t.link.claimSlot = s.link.claimSlot) : SameProc x s t :=
  ⟨procOf_congr hClaims x, by rw [claimIn, claimIn, hSlots]⟩

theorem SameProc.setProc {x r : Resource} (h : x ≠ r) (p : Process) (s : State) : SameProc x s (setProc r p s) :=
  ⟨procOf_setProc_other h p s, rfl⟩

theorem SameProc.placed {x r : Resource} (h : x ≠ r) {m : ClaimMsg} (hm : claimResource m = r) (s : State) :
    SameProc x s (placeClaim m s) := by
  refine ⟨procOf_placeClaim .., ?_⟩
  by_cases hc : s.link.state = .clashed
  · unfold placeClaim
    rw [if_pos hc]
  · rw [claimIn_placeClaim _ _ hc, hm, if_neg h]

theorem SameProc.removeIntent {x r : Resource} (h : x ≠ r) (s : State) : SameProc x s (removeIntent r s) := by
  refine ⟨procOf_removeIntent .., ?_⟩
  rw [claimIn_removeIntent, if_neg fun hn => h hn.1]

theorem SameProc.setPhase (x : Resource) (p : Phase) (s : State) : SameProc x s (setPhase p s) :=
  ⟨procOf_congr (setPhase_claims ..) x, claimIn_setPhase p s x⟩

theorem cancelClaim_other {x r : Resource} (h : x ≠ r) (s : State) : SameProc x s (cancelClaim r s) := by
  unfold cancelClaim
  dsimp only
  split
  case h_1 => exact .setProc h _ s
  case h_2 => exact (SameProc.removeIntent h s).trans (.setProc h _ _)
  case h_3 => exact (SameProc.setProc h _ s).trans (.placed h rfl _)
  case h_4 => exact (SameProc.setProc h _ s).trans (.placed h rfl _)
  case h_5 => exact .setProc h _ s
  case h_6 => exact .setProc h _ s
  all_goals exact .refl x s

theorem releaseUnless_of_free {m : Option Mode} {r : Resource} (h : holds (procOf s r) = false ∨ m.bind claimFor = some r) :
    releaseUnless m r s = s := by
  refine if_neg ?_
  rcases h with h | h <;> simp [h]

theorem releaseUnless_other {x r : Resource} (h : x ≠ r) (m : Option Mode) (s : State) : SameProc x s (releaseUnless m r s) := by
  have hRelease : SameProc x s (releaseClaim r s) := by
    unfold releaseClaim
    dsimp only
    split
    · exact (SameProc.setProc h _ s).trans (.placed h rfl _)
    · split
      · exact (SameProc.setProc h _ s).trans ⟨procOf_removeRecord .., rfl⟩
      · exact (SameProc.setProc h _ s).trans (.placed h rfl _)
    · exact .refl x s
  unfold releaseUnless
  split
  · exact hRelease
  · exact .refl x s

/-- A process that does not hold, or whose claim the mode needs, is not released. -/
theorem releaseUnneeded_of_free {m : Option Mode} {r : Resource} (h : holds (procOf s r) = false ∨ m.bind claimFor = some r) :
    SameProc r s (releaseUnneeded m s) := by
  unfold releaseUnneeded forBoth
  cases r with
  | relief =>
    rw [releaseUnless_of_free h]
    exact releaseUnless_other (by decide) m s
  | defrost =>
    have hFirst := releaseUnless_other (x := .defrost) (r := .relief) (by decide) m s
    rw [releaseUnless_of_free (s := releaseUnless m .relief s) (h.imp_left fun hh => by rw [hFirst.1]; exact hh)]
    exact hFirst

theorem releaseClaim_of_held {r : Resource} (h : (procOf s r).state = .held) :
    releaseClaim r s = placeClaim (.release r .done) (setProc r { procOf s r with state := .releasing, cause := none } s) := by
  unfold releaseClaim
  dsimp only
  rw [h]

theorem releaseUnless_of_held {m : Option Mode} {r : Resource} (h : (procOf s r).state = .held) (hm : m.bind claimFor ≠ some r) :
    (procOf (releaseUnless m r s) r).state = .releasing
      ∧ (s.link.state ≠ .clashed → claimIn (releaseUnless m r s) r = some (.release r .done)) := by
  have hCond : (holds (procOf s r) && m.bind claimFor != some r) = true := by simp [holds, h, hm]
  unfold releaseUnless
  rw [if_pos hCond, releaseClaim_of_held h, procOf_placeClaim, procOf_setProc_same]
  refine ⟨rfl, fun hc => ?_⟩
  rw [claimIn_placeClaim _ (setProc r { procOf s r with state := .releasing, cause := none } s) hc]
  exact if_pos rfl

theorem releaseUnless_linkState (m : Option Mode) (r : Resource) (s : State) : (releaseUnless m r s).link.state = s.link.state :=
  (releaseUnless_works m r .refl).sameLine.state

/-- A HELD claim that the mode does not need is released (R41, R80). -/
theorem releaseUnneeded_of_held {m : Option Mode} {r : Resource} (h : (procOf s r).state = .held) (hm : m.bind claimFor ≠ some r) :
    (procOf (releaseUnneeded m s) r).state = .releasing
      ∧ (s.link.state ≠ .clashed → claimIn (releaseUnneeded m s) r = some (.release r .done)) := by
  unfold releaseUnneeded forBoth
  cases r with
  | relief =>
    have hAfter := releaseUnless_other (x := .relief) (r := .defrost) (by decide) m (releaseUnless m .relief s)
    obtain ⟨hState, hSlot⟩ := releaseUnless_of_held h hm
    exact ⟨by rw [hAfter.1]; exact hState, fun hc => by rw [hAfter.2]; exact hSlot hc⟩
  | defrost =>
    have hFirst := releaseUnless_other (x := .defrost) (r := .relief) (by decide) m s
    obtain ⟨hState, hSlot⟩ := releaseUnless_of_held (s := releaseUnless m .relief s) (by rw [hFirst.1]; exact h) hm
    exact ⟨hState, fun hc => hSlot (by rw [releaseUnless_linkState]; exact hc)⟩

/-! ## Counting (R30) -/

/-- The Sequencer with a record's desire counted. -/
def counted (m : Mode) (s : State) : State := s.setSeq { s.seq with candidate := some m, count := countAfter s m }

theorem updateCandidate_counted (m : Mode) (s : State) : updateCandidate m s = counted m s := updateCandidate_eq m s

theorem countAfter_pos (s : State) (m : Mode) : 1 ≤ countAfter s m := by unfold countAfter; split <;> omega

/-- The desires that a count of n confirms (R30). -/
def Confirms (c : Settings) (m : Mode) (n : Nat) : Prop := m = .safe ∨ m = .defrost ∨ c.decision.confirm ≤ n

theorem confirmNeed_le_iff {c : Settings} {m : Mode} {n : Nat} (hn : 1 ≤ n) : confirmNeed c m ≤ n ↔ Confirms c m n := by
  unfold confirmNeed Confirms
  cases m <;> simp [hn]

theorem confirmed_counted (m : Mode) (s : State) (h : Confirms s.cfg m (countAfter s m)) : confirmed (counted m s) = some m :=
  if_pos ((confirmNeed_le_iff (countAfter_pos s m)).2 h)

theorem confirmed_counted_none (m : Mode) (s : State) (h : ¬Confirms s.cfg m (countAfter s m)) : confirmed (counted m s) = none :=
  if_neg (mt (confirmNeed_le_iff (countAfter_pos s m)).1 h)

section
variable {m : Mode} (hRun : running s = true) (hDesired : s.decision.last.desired = some m)
include hRun hDesired

theorem takeRecord_of_suspended (hp : s.seq.phase = some .suspended) : takeRecord s = counted m s := by
  unfold takeRecord
  rw [hDesired]
  dsimp only
  rw [hRun, if_neg (by decide), updateCandidate_counted]
  rw [show (counted m s).seq.phase = _ from hp]

theorem takeRecord_of_settled (hp : s.seq.phase = some .settled) : takeRecord s = startTest (runningUpdate (counted m s)) := by
  unfold takeRecord
  rw [hDesired]
  dsimp only
  rw [hRun, if_neg (by decide), updateCandidate_counted]
  rw [show (counted m s).seq.phase = _ from hp]

theorem takeRecord_of_moving {x : Transition} {p : Phase} (ht : s.seq.transition = some x) (hp : s.seq.phase = some p)
    (hMoving : p = .claiming ∨ p = .followWait ∨ p = .ramping) : takeRecord s = desireAgainst x (counted m s) := by
  unfold takeRecord
  rw [hDesired]
  dsimp only
  rw [hRun, if_neg (by decide), updateCandidate_counted]
  rw [show (counted m s).seq.phase = _ from hp, show (counted m s).seq.transition = _ from ht]
  rcases hMoving with rfl | rfl | rfl <;> rfl

theorem takeRecord_of_waitless {p : Phase} (ht : s.seq.transition = none) (hp : s.seq.phase = some p) (hSettled : p ≠ .settled) :
    takeRecord s = counted m s := by
  unfold takeRecord
  rw [hDesired]
  dsimp only
  rw [hRun, if_neg (by decide), updateCandidate_counted]
  rw [show (counted m s).seq.phase = _ from hp, show (counted m s).seq.transition = _ from ht]
  cases p <;> first | rfl | contradiction

end

theorem desireAgainst_of_unconfirmed {m : Mode} (x : Transition) (h : ¬Confirms s.cfg m (countAfter s m) ∨ m = x.target) :
    desireAgainst x (counted m s) = counted m s := by
  unfold desireAgainst
  by_cases hc : Confirms s.cfg m (countAfter s m)
  · rw [confirmed_counted m s hc]
    exact if_pos (h.resolve_left (not_not_intro hc))
  · rw [confirmed_counted_none m s hc]

theorem desireAgainst_of_ramping {m : Mode} (x : Transition) (hp : s.seq.phase = some .ramping) (hm : m ≠ .safe) :
    desireAgainst x (counted m s) = counted m s := by
  by_cases hc : Confirms s.cfg m (countAfter s m)
  · unfold desireAgainst
    rw [confirmed_counted m s hc]
    dsimp only
    rw [if_neg hm, if_pos (show (counted m s).seq.phase = some .ramping from hp), ite_self]
  · exact desireAgainst_of_unconfirmed x (.inl hc)

theorem desireAgainst_of_safe {x : Transition} (hx : x.target ≠ .safe) : desireAgainst x (counted .safe s) = abortToSafe (counted .safe s) := by
  unfold desireAgainst
  rw [confirmed_counted .safe s (.inl rfl)]
  dsimp only
  rw [if_neg (Ne.symm hx), if_pos rfl]

theorem desireAgainst_of_other {m : Mode} {x : Transition} (hc : Confirms s.cfg m (countAfter s m)) (hm : m ≠ .safe) (hx : x.target ≠ m)
    (hp : s.seq.phase = some .claiming ∨ s.seq.phase = some .followWait) :
    desireAgainst x (counted m s) = afterSettled (cancelTransition (counted m s)) := by
  have hNot : (counted m s).seq.phase ≠ some .ramping := by
    show s.seq.phase ≠ _
    rcases hp with hp | hp <;> rw [hp] <;> exact nofun
  unfold desireAgainst
  rw [confirmed_counted m s hc]
  dsimp only
  rw [if_neg (Ne.symm hx), if_neg hm, if_neg hNot]

/-! ## The running update (R42) -/

/-- The demand set the running update posts, where it posts one. -/
def updatedSet (s : State) : Option DemandSet :=
  s.seq.demands.bind fun d =>
    if s.seq.mode = some .recover then s.decision.last.speed.map fun v => { d with whl := v }
    else if s.seq.mode = some .free then s.decision.last.mixing.map fun v => { d with oda := v }
    else none

theorem runningUpdate_eq (s : State) : runningUpdate s = (updatedSet s).elim s fun d => postSet d s := by
  unfold runningUpdate updatedSet
  cases s.seq.demands with
  | none => rfl
  | some d =>
    dsimp only [Option.bind]
    split
    · cases s.decision.last.speed <;> rfl
    · split
      · cases s.decision.last.mixing <;> rfl
      · rfl

theorem runningUpdate_of_some {d : DemandSet} (h : updatedSet s = some d) : runningUpdate s = postSet d s := by
  rw [runningUpdate_eq, h]
  rfl

theorem runningUpdate_of_none (h : updatedSet s = none) : runningUpdate s = s := by
  rw [runningUpdate_eq, h]
  rfl

theorem postSet_hold (d : DemandSet) (s : State) : (postSet d s).limits.hold = s.limits.hold := by
  rw [(postSet_moved d s).limits]
  rfl

/-- A posted set takes no part in the start test (R30, R32). -/
theorem blocked_postSet (m : Mode) (d : DemandSet) (s : State) : blocked (postSet d s) m = blocked s m := by
  refine blocked_congr m (postSet_hold d s) ?_ ?_ ?_ (postSet_cfg d s) (postSet_now d s) (congrArg Link.state (postSet_link d s))
    fun r => by rw [procOf_congr (postSet_claims d s)]
  all_goals rw [postSet_seq]

theorem confirmed_postSet (d : DemandSet) (s : State) : confirmed (postSet d s) = confirmed s :=
  confirmed_congr (postSet_cfg d s) (by rw [postSet_seq]) (by rw [postSet_seq])

theorem blocked_counted (m n : Mode) (s : State) : blocked (counted m s) n = blocked s n :=
  blocked_congr n rfl rfl rfl rfl rfl rfl rfl fun _ => Iff.rfl

theorem startTest_postSet_eq (d : DemandSet)
    (hTest : ∀ m, confirmed s = some m → s.seq.mode = some m ∨ blocked s m = true) : startTest (postSet d s) = postSet d s := by
  refine startTest_eq_self fun m hm => .inr ?_
  rw [confirmed_postSet] at hm
  rw [blocked_postSet, postSet_seq]
  exact hTest m hm

/-- The start test after a record that confirms no start (R30, R31). -/
theorem startTest_counted_tests {m : Mode} (h : ¬(Confirms s.cfg m (countAfter s m) ∧ s.seq.mode ≠ some m ∧ blocked s m = false)) :
    ∀ d, confirmed (counted m s) = some d → (counted m s).seq.mode = some d ∨ blocked (counted m s) d = true := by
  intro d hd
  by_cases hc : Confirms s.cfg m (countAfter s m)
  · rw [confirmed_counted m s hc] at hd
    cases hd
    rw [blocked_counted]
    refine Classical.byContradiction fun hNot => ?_
    rw [not_or, Bool.not_eq_true] at hNot
    exact h ⟨hc, hNot⟩
  · rw [confirmed_counted_none m s hc] at hd
    cases hd

/-! ## A transition cancelled (R43) -/

theorem cancelClaim_starved_iff (r x : Resource) (s : State) :
    (procOf (cancelClaim r s) x).state = .starved ↔ (procOf s x).state = .starved := by
  by_cases hx : x = r
  · subst hx
    unfold cancelClaim
    dsimp only
    split
    case h_1 hs => rw [procOf_setProc_same]
    case h_2 hs => rw [procOf_toIdle_same, hs]; simp
    case h_3 hs => rw [procOf_placeClaim, procOf_toIdle_same, hs]; simp
    case h_4 hs => rw [procOf_placeClaim, procOf_toIdle_same, hs]; simp
    case h_5 hs => rw [procOf_toIdle_same, hs]; simp
    case h_6 hs => rw [procOf_setProc_same]
    all_goals rfl
  · rw [(cancelClaim_other hx s).1]

theorem releaseClaim_starved_iff (r : Resource) (s : State) :
    (procOf (releaseClaim r s) r).state = .starved ↔ (procOf s r).state = .starved := by
  unfold releaseClaim
  dsimp only
  split
  case h_1 hs => rw [procOf_placeClaim, procOf_setProc_same, hs]; simp
  case h_2 hs =>
    split
    · rw [procOf_removeRecord, procOf_toIdle_same, hs]; simp
    · rw [procOf_placeClaim, procOf_setProc_same, hs]; simp
  case h_3 => rfl

theorem releaseUnless_starved_iff (m : Option Mode) (r x : Resource) (s : State) :
    (procOf (releaseUnless m r s) x).state = .starved ↔ (procOf s x).state = .starved := by
  by_cases hx : x = r
  · subst hx
    unfold releaseUnless
    split
    · exact releaseClaim_starved_iff x s
    · rfl
  · rw [(releaseUnless_other hx m s).1]

theorem cancelRequest_starved_iff (x : Resource) (s : State) :
    (procOf (cancelRequest s) x).state = .starved ↔ (procOf s x).state = .starved := by
  unfold cancelRequest
  split
  · rfl
  · split
    · rfl
    · exact cancelClaim_starved_iff _ x s

theorem cancelTransition_claims (s : State) :
    (cancelTransition s).claims = (releaseUnneeded s.seq.mode (cancelRequest s)).claims := by
  unfold cancelTransition
  rw [toSettled_claims, endWait, State.setSeq_claims]

theorem claimIn_setSeq (q : Sequencer) (s : State) (r : Resource) : claimIn (s.setSeq q) r = claimIn s r := rfl

theorem cancelTransition_claimIn (s : State) (r : Resource) :
    claimIn (cancelTransition s) r = claimIn (releaseUnneeded s.seq.mode (cancelRequest s)) r := by
  unfold cancelTransition toSettled
  rw [claimIn_setPhase, claimIn_setSeq, endWait, claimIn_setSeq]

theorem cancelTransition_starved_iff (x : Resource) (s : State) :
    (procOf (cancelTransition s) x).state = .starved ↔ (procOf s x).state = .starved := by
  rw [procOf_congr (cancelTransition_claims s), releaseUnneeded, forBoth, releaseUnless_starved_iff, releaseUnless_starved_iff,
    cancelRequest_starved_iff]

theorem cancelTransition_limits (s : State) : (cancelTransition s).limits = s.limits := by
  unfold cancelTransition toSettled
  rw [setPhase_limits, State.setSeq_limits, endWait, State.setSeq_limits, ClaimActs.limits (releaseUnneeded_claimActs _ _),
    ClaimActs.limits (cancelRequest_claimActs s)]

theorem cancelTransition_decision (s : State) : (cancelTransition s).decision = s.decision := by
  unfold cancelTransition
  rw [toSettled_decision, endWait, State.setSeq_decision, releaseUnneeded_decision, ClaimActs.decision (cancelRequest_claimActs s)]

theorem cancelTransition_peers (s : State) : (cancelTransition s).peers = s.peers := by
  unfold cancelTransition toSettled
  rw [setPhase_peers, State.setSeq_peers, endWait, State.setSeq_peers, ClaimActs.peers (releaseUnneeded_claimActs _ _),
    ClaimActs.peers (cancelRequest_claimActs s)]

theorem cancelTransition_linkState (s : State) : (cancelTransition s).link.state = s.link.state :=
  (cancelTransition_works .refl).sameLine.state

theorem cancelTransition_now (s : State) : (cancelTransition s).now = s.now := (cancelTransition_works .refl).now_eq

theorem blocked_cancelTransition (m : Mode) (s : State) : blocked (cancelTransition s) m = blocked s m := by
  refine blocked_congr m (by rw [cancelTransition_limits]) ?_ ?_ ?_ (cancelTransition_cfg s) (cancelTransition_now s)
    (cancelTransition_linkState s) fun r => cancelTransition_starved_iff r s
  all_goals rw [cancelTransition_seq]; rfl

theorem confirmed_cancelTransition (s : State) : confirmed (cancelTransition s) = confirmed s :=
  confirmed_congr (cancelTransition_cfg s) (by rw [cancelTransition_seq]; rfl) (by rw [cancelTransition_seq]; rfl)

/-- A cancellation with no exit from DEFROST to make: the start test alone follows (R31, R46). -/
theorem afterSettled_cancelTransition {m : Mode} (hc : confirmed s = some m) (hExit : NoExitWaits s) :
    (¬(s.seq.mode ≠ some m ∧ blocked s m = false) → afterSettled (cancelTransition s) = cancelTransition s)
      ∧ (s.seq.mode ≠ some m ∧ blocked s m = false →
          afterSettled (cancelTransition s) = beginTransition m false (cancelTransition s)) := by
  have hSeq := cancelTransition_seq s
  refine ⟨fun h => ?_, fun ⟨hMode, hBlock⟩ => ?_⟩
  · have hStart : startTest (cancelTransition s) = cancelTransition s := startTest_eq_self fun d hd => .inr <| by
      rw [confirmed_cancelTransition, hc] at hd
      cases hd
      rw [blocked_cancelTransition, hSeq]
      refine Classical.byContradiction fun hNot => ?_
      rw [not_or, Bool.not_eq_true] at hNot
      exact h hNot
    unfold afterSettled
    rw [hStart]
    refine exitTest_eq_self (.inr ?_)
    rw [hSeq]
    by_cases hd : s.seq.mode = some .defrost
    · exact .inr (hExit hd)
    · exact .inl hd
  · have hStart : startTest (cancelTransition s) = beginTransition m false (cancelTransition s) :=
      startTest_of_passed (by rw [hSeq]; rfl) (by rw [confirmed_cancelTransition]; exact hc) (by rw [hSeq]; exact hMode)
        (by rw [blocked_cancelTransition]; exact hBlock)
    unfold afterSettled
    rw [hStart]
    exact exitTest_of_not_settled (beginTransition_phase m false _)

/-! ## The transition that follows (R33, R34, R36, R39) -/

theorem claimFor_injective {m n : Mode} {r : Resource} (hm : claimFor m = some r) (hn : claimFor n = some r) : m = n := by
  cases m <;> cases hm <;> cases n <;> cases hn <;> rfl

theorem requestClaim_other {r x : Resource} (h : x ≠ r) (s : State) : SameProc x s (requestClaim r s).1 := by
  unfold requestClaim
  dsimp only
  split
  case h_1 =>
    split
    · exact .refl x s
    · split
      · exact .setProc h _ s
      · exact ⟨(beginAttempt_other 1 h).1, (beginAttempt_other 1 h).2⟩
  case h_2 => exact .setProc h _ s
  case h_3 => exact .setProc h _ s
  all_goals exact .refl x s

theorem claimIn_enterRamping (m : Mode) (s : State) (r : Resource) : claimIn (enterRamping m s) r = claimIn s r := by
  rw [enterRamping_eq]
  have hSet : claimIn (postSet (rampSet s.cfg s.decision.last m) (setPhase .ramping (endWait s))) r = claimIn (setPhase .ramping (endWait s)) r :=
    claimIn_congr (postSet_link _ _) r
  exact hSet.trans (claimIn_setPhase .ramping (endWait s) r)

/-- A transition that starts leaves the process and the frame of every resource it does not need. -/
theorem beginTransition_other {m : Mode} {r : Resource} (f : Bool) (h : claimFor m ≠ some r) (s : State) :
    SameProc r s (beginTransition m f s) := by
  have hWait (u : State) : SameProc r u (enterWaitOrRamp m f u) := by
    unfold enterWaitOrRamp
    dsimp only
    split
    · exact ⟨procOf_congr (enterRamping_claims m u) r, claimIn_enterRamping m u r⟩
    · have hSeq (q : Sequencer) : SameProc r u (u.setSeq q) := ⟨rfl, rfl⟩
      exact (hSeq _).trans (.setPhase r _ _)
  have hBegun : SameProc r s (begun m f s) := ⟨rfl, rfl⟩
  rw [beginTransition_eq]
  refine hBegun.trans ?_
  unfold enterFirstPhase
  split
  next x hx =>
    split
    · exact hWait _
    · exact (SameProc.setPhase r _ _).trans (requestClaim_other (fun hr : r = x => h (hr ▸ hx)) _)
  · exact hWait _

/-- The Sequencer with a transition toward a mode begun from SETTLED, its phase yet to come. -/
theorem begun_settledSeq {m : Mode} (hm : m ≠ .safe) {q : Sequencer} (h : s.seq = settledSeq q) :
    (begun m false s).seq = { settledSeq q with transition := some ⟨m, false⟩ } := by
  rw [begun, State.setSeq_seq, h, if_neg hm]

/-- The transition in its first phase, the claim not yet held (R34). -/
theorem beginTransition_claiming {m : Mode} {r : Resource} (hm : m ≠ .safe) (hr : claimFor m = some r) {q : Sequencer}
    (hSeq : s.seq = settledSeq q) (hIdle : (procOf s r).state = .idle) :
    (beginTransition m false s).seq = { settledSeq q with phase := some .claiming, transition := some ⟨m, false⟩ }
      ∧ (beginTransition m false s).out = s.out
      ∧ ((procOf s r).request = false → heldBack s = false →
          (procOf (beginTransition m false s) r).state = .pending ∧ (procOf (beginTransition m false s) r).attempt = 1) := by
  rw [beginTransition_eq, enterFirstPhase_of_unheld (s := begun m false s) false hr fun h => by cases hIdle.symm.trans h]
  have hActs := requestClaim_claimActs r (setPhase .claiming (begun m false s))
  refine ⟨?_, ?_, fun hRequest hFree => ?_⟩
  · rw [ClaimActs.seq hActs, setPhase_seq, begun_settledSeq hm hSeq]
  · exact (ClaimActs.out hActs).trans (setPhase_out ..)
  · rw [requestClaim_of_free (by rw [procOf_setPhase]; exact hIdle) (by rw [procOf_setPhase]; exact hRequest)
      (by rw [heldBack_setPhase]; exact hFree), beginAttempt_proc]
    exact ⟨rfl, rfl⟩

theorem beginTransition_of_free {m : Mode} (f : Bool) (h : claimFor m = none) (s : State) :
    beginTransition m f s = enterWaitOrRamp m f (begun m f s) := by
  rw [beginTransition_eq, enterFirstPhase_of_free h]

/-- The abort to SAFE (R45). -/
theorem abortToSafe_aborted (s : State) : (abortToSafe s).seq.phase = some .ramping
    ∧ (abortToSafe s).seq.transition = some ⟨.safe, false⟩ ∧ (abortToSafe s).seq.mode = s.seq.mode
    ∧ (abortToSafe s).seq.demands = some (safeSet s.cfg) ∧ (abortToSafe s).out.seqSet = some (safeSet s.cfg)
    ∧ (abortToSafe s).seq.waitSet = [] ∧ (abortToSafe s).seq.followTimer = none ∧ (abortToSafe s).seq.forcedPending = none
    ∧ (abortToSafe s).claims = (forBoth cancelClaim s).claims := by
  have hActs : Acts Part.claiming s (forBoth cancelClaim s) := forBoth_acts (fun x _ h => cancelClaim_acts x h rfl rfl) .refl
  have hCfg : (endWait (forBoth cancelClaim s)).cfg = s.cfg := hActs.cfg
  have hSeq : (endWait (forBoth cancelClaim s)).seq = { s.seq with waitSet := [], followTimer := none } := by
    rw [endWait, State.setSeq_seq, ClaimActs.seq hActs]
  unfold abortToSafe
  dsimp only
  rw [hSeq, enterRamping_seq, enterRamping_claims, enterRamping_out, State.setSeq_claims, State.setSeq_seq]
  have hSet : rampSet ((endWait (forBoth cancelClaim s)).setSeq { s.seq with
      waitSet := [], followTimer := none, transition := some ⟨.safe, false⟩, forcedPending := none }).cfg
      ((endWait (forBoth cancelClaim s)).setSeq { s.seq with
        waitSet := [], followTimer := none, transition := some ⟨.safe, false⟩, forcedPending := none }).decision.last .safe
      = safeSet s.cfg := congrArg safeSet hCfg
  rw [hSet, postSet_seqSet]
  exact ⟨rfl, rfl, rfl, rfl, rfl, rfl, rfl, rfl, by rw [endWait, State.setSeq_claims]⟩

/-- An attempt of either process ends in IDLE when both requests are cancelled (R45, R79). -/
theorem cancelBoth_idle (r : Resource) (s : State) (h : (procOf s r).state = .pending ∨ (procOf s r).state = .holdoff
    ∨ (procOf s r).state = .committing ∨ (procOf s r).state = .backoff) : (procOf (forBoth cancelClaim s) r).state = .idle := by
  unfold forBoth
  cases r with
  | relief =>
    rw [(cancelClaim_other (x := .relief) (r := .defrost) (by decide) _).1]
    exact ((cancelClaim_cancelled .relief s).1 h).1
  | defrost =>
    have hFirst := cancelClaim_other (x := .defrost) (r := .relief) (by decide) s
    exact ((cancelClaim_cancelled .defrost (cancelClaim .relief s)).1 (by rw [hFirst.1]; exact h)).1

/-- The resource of the cancelled transition after the cancellation (R43, R79, R80). -/
theorem cancelTransition_released {x : Transition} {r : Resource} (ht : s.seq.transition = some x) (hr : claimFor x.target = some r) :
    ((procOf s r).state = .pending ∨ (procOf s r).state = .holdoff ∨ (procOf s r).state = .committing ∨ (procOf s r).state = .backoff →
        (procOf (cancelTransition s) r).state = .idle ∧ (procOf (cancelTransition s) r).attempt = 0
          ∧ (procOf (cancelTransition s) r).request = false)
      ∧ ((procOf s r).state = .holdoff ∨ (procOf s r).state = .committing → s.link.state ≠ .clashed →
          claimIn (cancelTransition s) r = some (.withdraw r .cancelled))
      ∧ ((procOf s r).state = .idle ∨ (procOf s r).state = .releasing →
          procOf (cancelTransition s) r = { procOf s r with request := false })
      ∧ ((procOf s r).state = .held → s.seq.mode ≠ some x.target → (procOf (cancelTransition s) r).state = .releasing
          ∧ (s.link.state ≠ .clashed → claimIn (cancelTransition s) r = some (.release r .done))) := by
  have hRequest : cancelRequest s = cancelClaim r s := by
    unfold cancelRequest
    rw [ht]
    dsimp only
    rw [hr]
  obtain ⟨hAttempt, hWithdraw, hIdle, hHeld⟩ := cancelClaim_cancelled r s
  have hFree (h : holds (procOf (cancelClaim r s) r) = false) : SameProc r (cancelClaim r s) (cancelTransition s) := by
    have hKept := releaseUnneeded_of_free (m := s.seq.mode) (s := cancelClaim r s) (.inl h)
    refine ⟨?_, ?_⟩
    · rw [procOf_congr (cancelTransition_claims s), hRequest, hKept.1]
    · rw [cancelTransition_claimIn, hRequest, hKept.2]
  have hLink : (cancelClaim r s).link.state = s.link.state := (cancelClaim_works r .refl).sameLine.state
  refine ⟨fun h => ?_, fun h hc => ?_, fun h => ?_, fun h hMode => ?_⟩
  · obtain ⟨hState, hRest⟩ := hAttempt h
    rw [(hFree (by rw [holds, hState]; rfl)).1]
    exact ⟨hState, hRest⟩
  · obtain ⟨hState, -⟩ := hAttempt (by rcases h with h | h <;> simp [h])
    rw [(hFree (by rw [holds, hState]; rfl)).2]
    exact hWithdraw h hc
  · have hSame := hIdle h
    rw [(hFree (by rw [hSame]; rcases h with h | h <;> rw [holds, h] <;> rfl)).1, hSame]
  · have hNeed : s.seq.mode.bind claimFor ≠ some r := fun hBind => by
      obtain ⟨n, hn, hnr⟩ := Option.bind_eq_some_iff.1 hBind
      exact hMode (by rw [hn, claimFor_injective hnr hr])
    obtain ⟨hState, hSlot⟩ := releaseUnneeded_of_held (m := s.seq.mode) (s := cancelClaim r s) (by rw [hHeld h]; exact h) hNeed
    rw [procOf_congr (cancelTransition_claims s), cancelTransition_claimIn, hRequest]
    exact ⟨hState, fun hc => hSlot (by rw [hLink]; exact hc)⟩

/-- A process that stands IDLE for another mode is left by the cancellation. -/
theorem cancelTransition_idle {x : Transition} {r : Resource} (ht : s.seq.transition = some x) (hx : claimFor x.target ≠ some r)
    (hIdle : (procOf s r).state = .idle) : SameProc r s (cancelTransition s) := by
  have hRequest : SameProc r s (cancelRequest s) := by
    unfold cancelRequest
    rw [ht]
    dsimp only
    split
    · exact .refl r s
    next y hy => exact cancelClaim_other (fun h : r = y => hx (h ▸ hy)) s
  have hRelease := releaseUnneeded_of_free (m := s.seq.mode) (s := cancelRequest s) (r := r)
    (.inl (by rw [hRequest.1, holds, hIdle]; rfl))
  refine ⟨?_, ?_⟩
  · rw [procOf_congr (cancelTransition_claims s), hRelease.1, hRequest.1]
  · rw [cancelTransition_claimIn, hRelease.2, hRequest.2]

theorem begun_peers (m : Mode) (f : Bool) (s : State) : (begun m f s).peers = s.peers := by simp [begun]
theorem begun_now (m : Mode) (f : Bool) (s : State) : (begun m f s).now = s.now := by simp [begun]
theorem begun_decision (m : Mode) (f : Bool) (s : State) : (begun m f s).decision = s.decision := by simp [begun]
theorem begun_out (m : Mode) (f : Bool) (s : State) : (begun m f s).out = s.out := by simp [begun]
theorem begun_cfg (m : Mode) (f : Bool) (s : State) : (begun m f s).cfg = s.cfg := rfl

/-- A confirmed desire for another mode cancels a transition that waits, and starts its own where it may (R31, R43). -/
theorem cancelled_counted {m : Mode} {x : Transition} (hc : Confirms s.cfg m (countAfter s m)) (hm : m ≠ .safe) (hx : x.target ≠ m)
    (ht : s.seq.transition = some x) (hExit : NoExitWaits s) :
    let t := afterSettled (cancelTransition (counted m s))
    let settled := settledSeq (counted m s).seq
    let wait := chooseWaitSet s
    let starts : Prop := s.seq.mode ≠ some m ∧ blocked s m = false
    (¬starts → t.seq = settled ∧ t.out = s.out)
      ∧ (∀ r, starts → claimFor m = some r → (procOf s r).state = .idle →
        t.seq = { settled with phase := some .claiming, transition := some ⟨m, false⟩ } ∧ t.out = s.out
          ∧ ((procOf s r).request = false → heldBack s = false → (procOf t r).state = .pending ∧ (procOf t r).attempt = 1))
      ∧ (starts → claimFor m = none → rampingMembers s wait ≠ [] →
        t.seq = { settled with
            phase := some .followWait, transition := some ⟨m, false⟩, waitSet := wait
            followTimer := some (s.now + s.cfg.follow.tFOLLOW * 1000) }
          ∧ t.out = s.out)
      ∧ (starts → claimFor m = none → rampingMembers s wait = [] →
        RampingTo m false settled (nextPosting s.out.posting) s t)
      ∧ ∀ r, claimFor x.target = some r →
        let p := procOf s r
        (p.state = .pending ∨ p.state = .holdoff ∨ p.state = .committing ∨ p.state = .backoff →
            (procOf t r).state = .idle ∧ (procOf t r).attempt = 0 ∧ (procOf t r).request = false)
          ∧ (p.state = .holdoff ∨ p.state = .committing → s.link.state ≠ .clashed →
            claimIn t r = some (.withdraw r .cancelled))
          ∧ (p.state = .idle ∨ p.state = .releasing → procOf t r = { p with request := false })
          ∧ (p.state = .held → s.seq.mode ≠ some x.target → (procOf t r).state = .releasing
            ∧ (s.link.state ≠ .clashed → claimIn t r = some (.release r .done))) := by
  obtain ⟨hStill, hStarts⟩ := afterSettled_cancelTransition (confirmed_counted m s hc) (s := counted m s) hExit
  rw [blocked_counted] at hStill hStarts
  have hSeq : (cancelTransition (counted m s)).seq = settledSeq (counted m s).seq := cancelTransition_seq _
  have hOut : (cancelTransition (counted m s)).out = s.out := cancelTransition_out _
  have hCfg : (cancelTransition (counted m s)).cfg = s.cfg := cancelTransition_cfg _
  have hPeers : (cancelTransition (counted m s)).peers = s.peers := cancelTransition_peers _
  have hNow : (cancelTransition (counted m s)).now = s.now := cancelTransition_now _
  have hDecision : (cancelTransition (counted m s)).decision = s.decision := cancelTransition_decision _
  have hWorks : Works (counted m s) (cancelTransition (counted m s)) := cancelTransition_works .refl
  have hTarget (r : Resource) (h : claimFor x.target = some r) : claimFor m ≠ some r := fun hmr => hx (claimFor_injective h hmr)
  have hWait : chooseWaitSet (begun m false (cancelTransition (counted m s))) = chooseWaitSet s := by
    unfold chooseWaitSet ownShaft ownLevel
    rw [begun_peers, hPeers,
      begun_cfg, hCfg]
  have hMembers (set : List Nat) : rampingMembers (begun m false (cancelTransition (counted m s))) set = rampingMembers s set := by
    unfold rampingMembers
    rw [begun_peers, hPeers]
  have hBegun := begun_settledSeq hm hSeq
  refine ⟨fun hNot => ?still, fun r hs hr hIdle => ?claiming, fun hs hFree hRamp => ?waiting, fun hs hFree hRamp => ?ramping,
    fun r hr => ?released⟩
  case still =>
    rw [hStill hNot]
    exact ⟨hSeq, hOut⟩
  case claiming =>
    have hProc : SameProc r (counted m s) (cancelTransition (counted m s)) :=
      cancelTransition_idle ht (fun h => hTarget r h hr) hIdle
    rw [hStarts hs]
    obtain ⟨hSeq', hOut', hPending⟩ := beginTransition_claiming hm hr hSeq (by rw [hProc.1]; exact hIdle)
    refine ⟨hSeq', hOut'.trans hOut, fun hRequest hBack => hPending (by rw [hProc.1]; exact hRequest) ?_⟩
    unfold heldBack
    rw [hWorks.sameClaims.freeze, hOut]
    exact hBack
  case waiting =>
    rw [hStarts hs, beginTransition_of_free false hFree,
      enterWaitOrRamp_of_waiting (s := begun m false (cancelTransition (counted m s))) hm (by rw [hWait, hMembers]; exact hRamp)]
    refine ⟨?_, by rw [setPhase_out, waitBegun, State.setSeq_out, begun_out, hOut]⟩
    rw [setPhase_seq, waitBegun, State.setSeq_seq, hBegun, hWait,
      begun_now, hNow,
      begun_cfg, hCfg]
    rfl
  case ramping =>
    rw [hStarts hs, beginTransition_of_free false hFree,
      enterWaitOrRamp_of_ramping (s := begun m false (cancelTransition (counted m s))) (.inr (.inr (by rw [hWait, hMembers]; exact hRamp)))]
    obtain ⟨h1, h2, h3⟩ := enterRamping_rampingTo (target := m) (forced := false) (s := begun m false (cancelTransition (counted m s))) rfl
    rw [hBegun, begun_cfg, hCfg,
      begun_decision, hDecision,
      begun_out, hOut] at h1
    rw [begun_cfg, hCfg,
      begun_decision, hDecision] at h2
    rw [begun_out, hOut] at h3
    exact ⟨h1, h2, h3⟩
  case released =>
    have hAfter : SameProc r (cancelTransition (counted m s)) (afterSettled (cancelTransition (counted m s))) := by
      by_cases hs : s.seq.mode ≠ some m ∧ blocked s m = false
      · rw [hStarts hs]
        exact beginTransition_other false (hTarget r hr) _
      · rw [hStill hs]
        exact .refl r _
    have hReleased := cancelTransition_released (s := counted m s) ht hr
    rw [hAfter.1, hAfter.2]
    exact hReleased

/-- Settles O38. -/
theorem recordsConfirmUpdateAbortAndCancel : Obligations.RecordsConfirmUpdateAbortAndCancel := by
  unfold Obligations.RecordsConfirmUpdateAbortAndCancel
  intro s m hClosed hRestart hDesired n counted' confirmed' starts t
  have hRun : running s = true := running_iff.2 ⟨hClosed, hRestart⟩
  have hCounted : counted m s = counted' := rfl
  have hConfirms : Confirms s.cfg m (countAfter s m) ↔ confirmed' := Iff.rfl
  refine ⟨fun hp => takeRecord_of_suspended hRun hDesired hp, fun hp hm => ?ramping, fun hp hNot => ?running, fun hp hc hs => ?begins,
    fun x p ht hp hMoving hm _ hx => ?aborts, fun x p ht hp hWaiting => ⟨fun h => ?counts, fun hm hc hx hExit => ?cancels⟩⟩
  case ramping =>
    rcases hTrans : s.seq.transition with _ | x
    · exact takeRecord_of_waitless hRun hDesired hTrans hp (by decide)
    · exact (takeRecord_of_moving hRun hDesired hTrans hp (.inr (.inr rfl))).trans (desireAgainst_of_ramping x hp hm)
  case running =>
    have hTests := startTest_counted_tests (s := s) (m := m) hNot
    have hEq : t = startTest (runningUpdate (counted m s)) := takeRecord_of_settled hRun hDesired hp
    have hPosts {d : DemandSet} (h : updatedSet (counted m s) = some d) : t = postSet d (counted m s) := by
      rw [hEq, runningUpdate_of_some h]
      exact startTest_postSet_eq d hTests
    have hShown {d : DemandSet} (h : updatedSet (counted m s) = some d) : t.seq = { counted'.seq with demands := some d }
        ∧ t.out.seqSet = some d ∧ t.out.posting = nextPosting s.out.posting ∧ t.claims = s.claims ∧ t.link = s.link := by
      rw [hPosts h, postSet_seq, postSet_seqSet, postSet_posting, postSet_claims, postSet_link]
      exact ⟨rfl, rfl, rfl, rfl, rfl⟩
    refine ⟨fun hSpeed hMixing => ?_, fun d v hd hMode hv => hShown ?_, fun d v hd hMode hv => hShown ?_⟩
    · have hNone : updatedSet (counted m s) = none := by
        unfold updatedSet
        show s.seq.demands.bind _ = none
        cases s.seq.demands with
        | none => rfl
        | some d =>
          show (if s.seq.mode = some .recover then s.decision.last.speed.map _ else
            if s.seq.mode = some .free then s.decision.last.mixing.map _ else none) = none
          split
          next h => rw [hSpeed h]; rfl
          · split
            next h => rw [hMixing h]; rfl
            · rfl
      rw [hEq, runningUpdate_of_none hNone]
      exact startTest_eq_self fun d hd => .inr (hTests d hd)
    · show (s.seq.demands.bind fun d => if s.seq.mode = some .recover then _ else _) = _
      rw [hd]
      show (if s.seq.mode = some .recover then s.decision.last.speed.map _ else _) = _
      rw [if_pos hMode, hv]
      rfl
    · show (s.seq.demands.bind fun d => if s.seq.mode = some .recover then _ else _) = _
      rw [hd]
      show (if s.seq.mode = some .recover then _ else if s.seq.mode = some .free then s.decision.last.mixing.map _ else _) = _
      rw [if_neg (by rw [hMode]; decide), if_pos hMode, hv]
      rfl
  case begins =>
    have hEq : t = startTest (runningUpdate (counted m s)) := takeRecord_of_settled hRun hDesired hp
    have hBegins {u : State} (hSeq : u.seq.phase = some .settled) (hc' : confirmed u = some m) (hMode : u.seq.mode = s.seq.mode)
        (hBlock : blocked u m = false) : (startTest u).seq.transition = some ⟨m, false⟩ ∧ (startTest u).seq.phase ≠ some .settled
          ∧ (startTest u).seq.mode = s.seq.mode := by
      rw [startTest_of_passed hSeq hc' (by rw [hMode]; exact hs.1) hBlock]
      have hCourse := beginTransition_course m false u
      exact ⟨hCourse.transition, beginTransition_phase m false u, hCourse.mode.trans hMode⟩
    have hHere : confirmed (counted m s) = some m := confirmed_counted m s hc
    rw [hEq, runningUpdate_eq]
    cases updatedSet (counted m s) with
    | none => exact hBegins hp hHere rfl ((blocked_counted m m s).trans hs.2)
    | some d =>
      refine hBegins (u := postSet d (counted m s)) ?_ ?_ ?_ ?_
      · rw [postSet_seq]; exact hp
      · rw [confirmed_postSet]; exact hHere
      · rw [postSet_seq]; rfl
      · rw [blocked_postSet, blocked_counted]; exact hs.2
  case aborts =>
    subst hm
    have hEq : t = abortToSafe (counted .safe s) := (takeRecord_of_moving hRun hDesired ht hp hMoving).trans (desireAgainst_of_safe hx)
    obtain ⟨hPhase, hTrans, hMode, hDemands, hSet, hWait, hTimer, hForced, hClaims⟩ := abortToSafe_aborted (counted .safe s)
    rw [hEq]
    refine ⟨hPhase, hTrans, hMode, hDemands, hSet.trans hDemands.symm, hWait, hTimer, hForced, fun r h => ?_⟩
    rw [procOf_congr hClaims]
    exact cancelBoth_idle r (counted .safe s) h
  case counts =>
    have hMoving : p = .claiming ∨ p = .followWait ∨ p = .ramping := hWaiting.imp_right .inl
    exact (takeRecord_of_moving hRun hDesired ht hp hMoving).trans (desireAgainst_of_unconfirmed x (h.imp_left (mt hConfirms.1)))
  case cancels =>
    have hMoving : p = .claiming ∨ p = .followWait ∨ p = .ramping := hWaiting.imp_right .inl
    have hPhase : s.seq.phase = some .claiming ∨ s.seq.phase = some .followWait := hWaiting.imp (fun h => by rw [← h]; exact hp) fun h => by rw [← h]; exact hp
    have hEq : t = afterSettled (cancelTransition (counted m s)) :=
      (takeRecord_of_moving hRun hDesired ht hp hMoving).trans (desireAgainst_of_other hc hm hx hPhase)
    exact hEq ▸ cancelled_counted hc hm hx ht hExit

end

end Sys2Proof.Machine
end

section
/-! PROOF. The completion of a ramp (O44): the mode and the timers it enters, the holds it releases, and the forced leave that waited. -/

namespace Sys2Proof.Machine

section
variable {s t u : State}

/-! ## A BEACON queued, whatever other frame is under attempt (R100) -/

/-- No BEACON is under attempt. -/
def Unbeaconed (l : Link) : Prop := ∀ a, l.attempt = some a → a.slot ≠ .beacon

theorem dropFrame_unbeaconed {sl : Slot} {l : Link} (h : Unbeaconed l) : Unbeaconed (dropFrame sl l) := by
  intro a ha
  by_cases hn : ∀ b, l.attempt = some b → b.slot ≠ sl
  · rw [dropFrame_attempt_of_other hn] at ha
    exact h a ha
  · have hGone : (dropFrame sl l).attempt = none := by
      obtain ⟨b, hb⟩ := Classical.not_forall.1 hn
      obtain ⟨hb, hNot⟩ := Classical.not_imp.1 hb
      have hSlot := Classical.not_not.1 hNot
      unfold dropFrame
      dsimp only
      have hSame : (if l.failSlot = some sl then { l with failSlot := none } else l).attempt = some b := by split <;> exact hb
      rw [hSame]
      dsimp only
      rw [if_pos hSlot]
    rw [hGone] at ha
    cases ha

/-- No BEACON is under attempt, and one queued at this time waits. -/
def BeaconQueued (s : State) : Prop := Unbeaconed s.link ∧ s.link.beaconSlot = some s.now

theorem queueBeacon_unbeaconed (h : Unbeaconed s.link) : Unbeaconed (queueBeacon s).link := by
  unfold queueBeacon
  dsimp only
  split
  · exact h
  · split
    · exact h
    · exact dropFrame_unbeaconed h

theorem queueBeacon_queued (h : BeaconQueued s) : BeaconQueued (queueBeacon s) := by
  refine ⟨queueBeacon_unbeaconed h.1, ?_⟩
  unfold queueBeacon
  dsimp only
  split
  · exact h.2
  · split
    · exact h.2
    · rfl

theorem queueBeacon_beaconQueued (hr : s.port.restarting = false) (hs : s.link.state = .online ∨ s.link.state = .quiet)
    (h : Unbeaconed s.link) : BeaconQueued (queueBeacon s) := by
  refine ⟨queueBeacon_unbeaconed h, ?_⟩
  rw [queueBeacon_of_free hr hs h]
  rfl

theorem placeClaim_unbeaconed (m : ClaimMsg) (h : Unbeaconed s.link) : Unbeaconed (placeClaim m s).link := by
  unfold placeClaim
  split
  · exact h
  · exact dropFrame_unbeaconed h

theorem removeIntent_unbeaconed (x : Resource) (h : Unbeaconed s.link) : Unbeaconed (removeIntent x s).link := by
  unfold removeIntent
  split
  · exact dropFrame_unbeaconed h
  · exact h

theorem Works.unbeaconed (h : Works s t) (hs : Unbeaconed s.link) : Unbeaconed t.link := by
  induction h with
  | refl => exact hs
  | still _ hl _ _ _ _ ih => rw [hl]; exact ih
  | beacon _ ih => exact queueBeacon_unbeaconed ih
  | place m _ _ ih => exact placeClaim_unbeaconed m ih
  | unIntent x _ _ ih => exact removeIntent_unbeaconed x ih
  | proc x p _ _ _ ih => exact ih
  | drop x _ ih => exact ih

theorem Works.beaconQueued (h : Works s t) (hs : BeaconQueued s) : BeaconQueued t := by
  induction h with
  | refl => exact hs
  | still _ hl _ _ _ hn ih => exact ⟨by rw [hl]; exact ih.1, by rw [hl, hn]; exact ih.2⟩
  | beacon _ ih => exact queueBeacon_queued ih
  | @place v m _ _ ih =>
    refine ⟨placeClaim_unbeaconed m ih.1, ((placeClaim_slots m v).1.trans ih.2).trans ?_⟩
    rw [placeClaim_now]
  | @unIntent v x _ _ ih =>
    refine ⟨removeIntent_unbeaconed x ih.1, ?_⟩
    unfold removeIntent
    split
    · rw [State.setLink_link, State.setLink_now, clearClaimSlot_eq]
      exact ih.2
    · exact ih.2
  | proc x p _ _ _ ih => exact ih
  | drop x _ ih => exact ih

/-! ## Where the channels stand after a completion (R165, R167) -/

/-- A channel that jumps under a new sequencer set jumps already under the one before. -/
theorem aim_of_jump_posted {c : Settings} {o : OutputUnit} {ch : Channel} {v n : Nat} {d : DemandSet}
    (h : aim c { o with seqSet := some d, posting := n, completionPending := true } ch = some (v, true)) :
    aim c o ch = some (v, true) := by
  rcases hw : winner c { o with seqSet := some d, posting := n, completionPending := true } ch with _ | src
  · rw [aim, hw] at h; cases h
  rw [aim_of_winner hw] at h
  obtain ⟨x, hx, hPair⟩ := Option.map_eq_some_iff.1 h
  obtain ⟨rfl, hJump⟩ := Prod.mk.inj hPair
  have hNot : src ≠ .sequencer := fun hs => by rw [hs] at hJump; cases hJump
  have hDemand (y : DemandSource) (hy : y ≠ .sequencer) :
      demandOf { o with seqSet := some d, posting := n, completionPending := true } ch y = demandOf o ch y := by
    cases y <;> first | rfl | contradiction
  obtain ⟨hHere, hBest⟩ := winner_eq_some_iff.1 hw
  have hWinner : winner c o ch = some src := by
    refine winner_eq_some_iff.2 ⟨by rw [← hDemand src hNot]; exact hHere, fun y hy => ?_⟩
    by_cases hs : y = .sequencer
    · subst hs
      exact hBest .sequencer nofun
    · exact hBest y (by rw [hDemand y hs]; exact hy)
  rw [aim_of_winner hWinner, ← hDemand src hNot, hx]
  exact congrArg some (Prod.ext rfl hJump)

/-- Where the channels that jump stand at their demands, a new sequencer set moves no channel. -/
theorem postSet_present_of_jumps (h : JumpsMade s) (d : DemandSet) : (postSet d s).out.present = s.out.present := by
  refine perChannel_ext fun ch => (postSet_present d s ch).trans ?_
  unfold settledAt
  split
  next v hv => exact (h ch v (aim_of_jump_posted hv)).symm
  · rfl

/-! ## The end of a ramp (R40) -/

/-- The state at the end of a ramp with the mode entered, the holds still standing. -/
def modeEntered (target : Mode) (s : State) : State := if s.seq.mode = some target then s else enterMode target s

/-- The Sequencer at the end of a ramp toward a target (R40, R46, R48). -/
def enteredSeq (target : Mode) (s : State) : Sequencer :=
  let settled := { s.seq with phase := some .settled, transition := none, rampPosting := none }
  if s.seq.mode = some target then settled else { settled with
    mode := some target
    dwellStart := some s.now, dwellTimer := some (s.now + s.cfg.decision.tDWELL * 1000)
    defrostTimer := if target = .defrost then some (s.now + s.cfg.decision.tDEFROST * 1000)
                    else if s.seq.mode = some .defrost then none else s.seq.defrostTimer
    defrostExpired := if target = .defrost ∨ s.seq.mode = some .defrost then false else s.seq.defrostExpired
    defrostEnd := if target ≠ .defrost ∧ s.seq.mode = some .defrost then some s.now else s.seq.defrostEnd }

theorem defrostTimers_phase (old : Option Mode) (m : Mode) (s : State) : (defrostTimers old m s).seq.phase = s.seq.phase := by
  unfold defrostTimers
  split
  · rfl
  · split <;> rfl

theorem arrived_eq (target : Mode) (s : State) : ∃ q : Sequencer, q.phase = s.seq.phase ∧ arrived target s =
    toSettled ((releaseUnneeded (some target) (modeEntered target s)).setSeq q) := by
  unfold modeEntered
  by_cases h : s.seq.mode = some target
  · rw [arrived_of_back h, if_pos h]
    exact ⟨(releaseUnneeded (some target) s).seq, by rw [releaseUnneeded_seq], rfl⟩
  · rw [arrived_of_new h, if_neg h, defrostTimers_eq]
    exact ⟨_, by rw [defrostTimers_phase, releaseUnneeded_seq, enterMode_seq], rfl⟩

theorem arrived_seq (target : Mode) (s : State) : (arrived target s).seq = enteredSeq target s := by
  unfold enteredSeq
  dsimp only
  by_cases h : s.seq.mode = some target
  · rw [arrived_of_back h, if_pos h, toSettled_seq, releaseUnneeded_seq]
  · rw [arrived_of_new h, if_neg h, toSettled_seq]
    unfold defrostTimers
    by_cases hd : target = .defrost
    · rw [if_pos hd, State.setSeq_seq, releaseUnneeded_seq, enterMode_seq, releaseUnneeded_now, releaseUnneeded_cfg, enterMode_cfg,
        if_pos hd, if_pos (.inl hd), if_neg fun hn => hn.1 hd, (enterMode_works target .refl).now_eq]
      rfl
    · rw [if_neg hd, if_neg hd]
      by_cases ho : s.seq.mode = some .defrost
      · rw [if_pos ho, if_pos ho, if_pos (.inr ho), if_pos ⟨hd, ho⟩, State.setSeq_seq, releaseUnneeded_seq, enterMode_seq, releaseUnneeded_now,
          (enterMode_works target .refl).now_eq]
        rfl
      · rw [if_neg ho, if_neg ho, if_neg fun hn => hn.elim hd ho, if_neg fun hn => ho hn.2, releaseUnneeded_seq, enterMode_seq]
        rfl

theorem queueBeacon_claimSlot (s : State) : (queueBeacon s).link.claimSlot = s.link.claimSlot := by
  unfold queueBeacon
  dsimp only
  split
  · rfl
  · split
    · rfl
    · exact dropFrame_claimSlot _ _

theorem claimIn_setMode (m : Mode) (s : State) (r : Resource) : claimIn (setMode m s) r = claimIn s r := by
  unfold setMode
  split
  · rfl
  · have hQueue (v : State) : claimIn (queueBeacon v) r = claimIn v r := by
      unfold claimIn
      rw [queueBeacon_claimSlot]
    exact hQueue _

theorem modeEntered_proc (target : Mode) (s : State) (r : Resource) : SameProc r s (modeEntered target s) := by
  unfold modeEntered
  split
  · exact .refl r s
  · have hSeq (q : Sequencer) : SameProc r s (s.setSeq q) := ⟨rfl, rfl⟩
    have hMode (v : State) : SameProc r v (setMode target v) := ⟨procOf_congr (setMode_claims ..) r, claimIn_setMode target v r⟩
    exact ((hSeq _).trans (hMode _)).trans ⟨rfl, rfl⟩

theorem arrived_proc (target : Mode) (s : State) (r : Resource) :
    SameProc r (releaseUnneeded (some target) (modeEntered target s)) (arrived target s) := by
  obtain ⟨q, -, hq⟩ := arrived_eq target s
  rw [hq]
  have hSeq (v : State) : SameProc r v (v.setSeq q) := ⟨rfl, rfl⟩
  refine (hSeq _).trans ⟨procOf_congr (toSettled_claims _) r, ?_⟩
  unfold toSettled
  rw [claimIn_setPhase]
  rfl

theorem modeEntered_linkState (target : Mode) (s : State) : (modeEntered target s).link.state = s.link.state := by
  have h : Works s (modeEntered target s) := ite_works .refl (enterMode_works target .refl)
  exact h.sameLine.state

theorem releaseClaim_of_yielding {r : Resource} (h : (procOf s r).state = .yielding) (hc : (procOf s r).cause ≠ some .clash) :
    releaseClaim r s = placeClaim (.release r .yield) (setProc r { procOf s r with state := .releasing, cause := none } s) := by
  unfold releaseClaim
  dsimp only
  rw [h]
  exact if_neg hc

/-- A YIELDING claim that the mode does not need is released as one that yields (R41, R80, R86). -/
theorem releaseUnneeded_of_yielding {m : Option Mode} {r : Resource} (h : (procOf s r).state = .yielding)
    (hc : (procOf s r).cause ≠ some .clash) (hm : m.bind claimFor ≠ some r) : (procOf (releaseUnneeded m s) r).state = .releasing
      ∧ (s.link.state ≠ .clashed → claimIn (releaseUnneeded m s) r = some (.release r .yield)) := by
  have hOne {v : State} (hv : procOf v r = procOf s r) (hl : v.link.state = s.link.state) :
      (procOf (releaseUnless m r v) r).state = .releasing
        ∧ (s.link.state ≠ .clashed → claimIn (releaseUnless m r v) r = some (.release r .yield)) := by
    have hCond : (holds (procOf v r) && m.bind claimFor != some r) = true := by rw [hv]; simp [holds, h, hm]
    unfold releaseUnless
    rw [if_pos hCond, releaseClaim_of_yielding (by rw [hv]; exact h) (by rw [hv]; exact hc), procOf_placeClaim, procOf_setProc_same]
    refine ⟨rfl, fun hClash => ?_⟩
    rw [claimIn_placeClaim _ (setProc r { procOf v r with state := .releasing, cause := none } v) (by
      show v.link.state ≠ _
      rw [hl]
      exact hClash)]
    exact if_pos rfl
  unfold releaseUnneeded forBoth
  cases r with
  | relief =>
    have hAfter := releaseUnless_other (x := .relief) (r := .defrost) (by decide) m (releaseUnless m .relief s)
    rw [hAfter.1, hAfter.2]
    exact hOne rfl rfl
  | defrost =>
    have hFirst := releaseUnless_other (x := .defrost) (r := .relief) (by decide) m s
    exact hOne hFirst.1 (releaseUnless_linkState m .relief s)

/-- What the end of a ramp leaves of the own claims (R41). -/
def ClaimsArrived (target : Mode) (s t : State) : Prop :=
  (∀ r, claimFor target = some r → procOf t r = procOf s r)
    ∧ ∀ r, claimFor target ≠ some r →
      ((procOf s r).state = .held → (procOf t r).state = .releasing
        ∧ (s.link.state ≠ .clashed → claimIn t r = some (.release r .done)))
        ∧ ((procOf s r).state = .yielding → (procOf s r).cause ≠ some .clash → (procOf t r).state = .releasing
            ∧ (s.link.state ≠ .clashed → claimIn t r = some (.release r .yield)))
        ∧ (holds (procOf s r) = false → procOf t r = procOf s r)

theorem arrived_claims (target : Mode) (s : State) : ClaimsArrived target s (arrived target s) := by
  have hBind (r : Resource) : (some target).bind claimFor = some r ↔ claimFor target = some r := Iff.rfl
  refine ⟨fun r hr => ?_, fun r hr => ⟨fun h => ?_, fun h hc => ?_, fun h => ?_⟩⟩
  · have hKept := releaseUnneeded_of_free (m := some target) (s := modeEntered target s) (r := r) (.inr hr)
    rw [(arrived_proc target s r).1, hKept.1, (modeEntered_proc target s r).1]
  · have hProc := modeEntered_proc target s r
    obtain ⟨hState, hSlot⟩ := releaseUnneeded_of_held (m := some target) (s := modeEntered target s) (r := r) (by rw [hProc.1]; exact h) hr
    rw [(arrived_proc target s r).1, (arrived_proc target s r).2]
    exact ⟨hState, fun hc => hSlot (by rw [modeEntered_linkState]; exact hc)⟩
  · have hProc := modeEntered_proc target s r
    obtain ⟨hState, hSlot⟩ := releaseUnneeded_of_yielding (m := some target) (s := modeEntered target s) (r := r) (by rw [hProc.1]; exact h)
      (by rw [hProc.1]; exact hc) hr
    rw [(arrived_proc target s r).1, (arrived_proc target s r).2]
    exact ⟨hState, fun hc => hSlot (by rw [modeEntered_linkState]; exact hc)⟩
  · have hProc := modeEntered_proc target s r
    have hKept := releaseUnneeded_of_free (m := some target) (s := modeEntered target s) (r := r) (.inl (by rw [hProc.1]; exact h))
    rw [(arrived_proc target s r).1, hKept.1, hProc.1]

theorem arrived_port (target : Mode) (s : State) : (arrived target s).port = (modeEntered target s).port := by
  obtain ⟨q, -, hq⟩ := arrived_eq target s
  rw [hq, toSettled_port, State.setSeq_port, releaseUnneeded_port]

theorem modeEntered_port (target : Mode) (s : State) : (modeEntered target s).port =
    if s.seq.mode = some target then s.port else (post (.modeChanged target) s).port := by
  unfold modeEntered
  split
  · rfl
  · unfold enterMode
    dsimp only
    exact post_port_congr (by rw [setMode_port, State.setSeq_port]) (by rw [setMode_now, State.setSeq_now]) _

theorem arrived_works (target : Mode) (s : State) : Works s (arrived target s) := by
  have hEntered : Works s (modeEntered target s) := ite_works .refl (enterMode_works target .refl)
  obtain ⟨q, -, hq⟩ := arrived_eq target s
  rw [hq]
  exact toSettled_works ((releaseUnneeded_works _ hEntered).seq q)

/-- The phase that becomes SETTLED queues a BEACON on an ONLINE link (R26, R100). -/
theorem arrived_beaconQueued {target : Mode} (hp : s.seq.phase ≠ some .settled) (hr : s.port.restarting = false)
    (hs : s.link.state = .online) (h : Unbeaconed s.link) : BeaconQueued (arrived target s) := by
  obtain ⟨q, hPhase, hq⟩ := arrived_eq target s
  have hEntered : Works s (modeEntered target s) := ite_works .refl (enterMode_works target .refl)
  have hWorks := (releaseUnneeded_works (some target) hEntered).seq { q with phase := q.phase, transition := none, rampPosting := none }
  have hSettle : arrived target s = queueBeacon
      (((releaseUnneeded (some target) (modeEntered target s)).setSeq { q with transition := none, rampPosting := none }).setSeq
        { q with transition := none, rampPosting := none, phase := some .settled }) := by
    rw [hq]
    unfold toSettled setPhase
    exact if_neg (by rw [← hPhase] at hp; exact hp)
  rw [hSettle]
  have hAll := hWorks.seq { q with transition := none, rampPosting := none, phase := some .settled }
  exact queueBeacon_beaconQueued (hAll.cfg_port_now.2.1.trans hr) (.inl (hAll.sameLine.state.trans hs)) (hAll.unbeaconed h)

theorem arrived_decision (target : Mode) (s : State) : (arrived target s).decision = s.decision := by
  obtain ⟨q, -, hq⟩ := arrived_eq target s
  rw [hq, toSettled_decision, State.setSeq_decision, releaseUnneeded_decision]
  unfold modeEntered
  split
  · rfl
  · unfold enterMode
    dsimp only
    rw [post_eq, State.setPort_decision, setMode_decision, State.setSeq_decision]

/-! ## The completion (R40, R170) -/

theorem settleRamps_of_once (hDue : completionDue s = true) (hAfter : completionDue (reportOnce s) = false) :
    settleRamps s = reportOnce s := by
  show reportAll 8 s = _
  rw [reportAll, if_pos hDue, reportAll, if_neg (by rw [hAfter]; decide)]

/-- The completion of the ramp's own posting is acted on (R170). -/
theorem reportOnce_of_ramp {target : Mode} {forced : Bool} (hDue : completionDue s = true) (hRun : running s = true)
    (hp : s.seq.phase = some .ramping) (ht : s.seq.transition = some ⟨target, forced⟩) (hn : s.seq.rampPosting = some s.out.posting) :
    reportOnce s = rampCompleted target (s.setOut { s.out with completionPending := false }) := by
  unfold reportOnce takeCompletion
  rw [if_pos hDue, State.setOut_seq, ht]
  dsimp only
  rw [if_pos]
  rw [show running (s.setOut { s.out with completionPending := false }) = true from hRun, hp, hn]
  simp

/-- No exit from DEFROST waits at the end of a ramp. -/
theorem arrived_noExit {target : Mode} (hExit : s.seq.mode = some target → NoExitWaits s) :
    (arrived target s).seq.mode ≠ some .defrost ∨ (arrived target s).seq.defrostExpired = false := by
  have hSpec := arrived_spec target s
  by_cases hTarget : target = .defrost
  · refine .inr (Bool.eq_false_iff.2 fun hExpired => ?_)
    obtain ⟨hOld, hMode⟩ := hSpec.defrostExpired hExpired hTarget
    have hNone := hExit (by rw [hMode, hTarget]) hMode
    rw [hOld] at hNone
    cases hNone
  · exact .inl (by rw [hSpec.mode]; exact fun h => hTarget (Option.some.inj h))

theorem afterSettled_arrived {target : Mode} (hDesires : OnlyDesires target s) (hExit : s.seq.mode = some target → NoExitWaits s) :
    afterSettled (arrived target s) = arrived target s := by
  have hSpec := arrived_spec target s
  have hStart : startTest (arrived target s) = arrived target s := startTest_eq_self fun m hm => .inr (.inl <| by
    rw [confirmed_congr hSpec.cfg hSpec.candidate hSpec.count] at hm
    rw [hSpec.mode, hDesires m hm])
  unfold afterSettled
  rw [hStart]
  exact exitTest_eq_self (.inr (arrived_noExit hExit))

/-- The state at the end of a ramp that a slew step on a channel completes. -/
def landed (target : Mode) (ch : Channel) (s : State) : State :=
  arrived target ((slewOnce ch s).setOut { (slewOnce ch s).out with completionPending := false })

/-- What the completion leaves beside the Sequencer, whatever follows it in the event. -/
structure Completed (target : Mode) (ch : Channel) (s t : State) : Prop where
  present : t.out.present = (slewOnce ch s).out.present
  claims : ClaimsArrived target s t
  changed : s.seq.mode ≠ some target → HasRoom s → Posted (.modeChanged target) s t
  back : s.seq.mode = some target → t.port = s.port
  beacon : s.link.state = .online → Unbeaconed s.link → t.link.beaconSlot = some s.now

section
variable {target : Mode} {ch : Channel}

theorem landed_seq : (landed target ch s).seq = enteredSeq target s := by
  have hMoved := slewOnce_moved ch s
  unfold landed
  rw [arrived_seq]
  unfold enteredSeq
  rw [State.setOut_seq, hMoved.seq, State.setOut_now, hMoved.now,
    show ((slewOnce ch s).setOut { (slewOnce ch s).out with completionPending := false }).cfg = s.cfg from hMoved.cfg]

theorem landed_out : (landed target ch s).out = { (slewOnce ch s).out with completionPending := false } := by
  unfold landed
  rw [(arrived_spec target _).out, State.setOut_out]

theorem landed_cfg : (landed target ch s).cfg = s.cfg := by
  unfold landed
  rw [(arrived_spec target _).cfg]
  exact (slewOnce_moved ch s).cfg

theorem landed_decision : (landed target ch s).decision = s.decision := by
  unfold landed
  rw [arrived_decision, State.setOut_decision, (slewOnce_moved ch s).decision]

theorem slewed_kept (o : OutputUnit) : ((slewOnce ch s).setOut o).claims = s.claims ∧ ((slewOnce ch s).setOut o).link = s.link
    ∧ ((slewOnce ch s).setOut o).port = s.port ∧ ((slewOnce ch s).setOut o).now = s.now
    ∧ ((slewOnce ch s).setOut o).seq = s.seq := by
  have hMoved := slewOnce_moved ch s
  exact ⟨by rw [State.setOut_claims, hMoved.claims], by rw [State.setOut_link, hMoved.link], by rw [State.setOut_port, hMoved.port],
    by rw [State.setOut_now, hMoved.now], by rw [State.setOut_seq, hMoved.seq]⟩

/-- A state that follows the landing with the claims, the port and the outputs it left. -/
theorem completed_of_landed (hp : s.seq.phase = some .ramping) (hr : s.port.restarting = false)
    (hProc : ∀ r, SameProc r (landed target ch s) t) (hPort : t.port = (landed target ch s).port)
    (hWorks : Works (landed target ch s) t) (hPresent : t.out.present = (landed target ch s).out.present) : Completed target ch s t := by
  obtain ⟨hClaims, hLink, hPort', hNow, hSeq⟩ :=
    slewed_kept (s := s) (ch := ch) { (slewOnce ch s).out with completionPending := false }
  have hArrived := arrived_claims target ((slewOnce ch s).setOut { (slewOnce ch s).out with completionPending := false })
  have hPosts : (landed target ch s).port = if s.seq.mode = some target then s.port else (post (.modeChanged target) s).port := by
    unfold landed
    rw [arrived_port, modeEntered_port, hSeq, hPort', post_port_congr hPort' hNow]
  constructor
  case present => rw [hPresent, landed_out]
  case claims =>
    unfold ClaimsArrived at *
    simp only [procOf_congr hClaims, hLink] at hArrived
    refine ⟨fun r hr => (hProc r).1.trans (hArrived.1 r hr), fun r hr => ?_⟩
    rw [(hProc r).1, (hProc r).2]
    exact hArrived.2 r hr
  case changed =>
    intro hNew hRoom
    unfold Posted
    rw [hPort, hPosts, if_neg hNew, post_of_room hRoom]
    rfl
  case back =>
    intro hBack
    rw [hPort, hPosts, if_pos hBack]
  case beacon =>
    intro hOnline hFree
    have hQueued : BeaconQueued (landed target ch s) := by
      refine arrived_beaconQueued ?_ ?_ ?_ ?_
      · rw [hSeq, hp]; exact nofun
      · rw [hPort']; exact hr
      · rw [hLink]; exact hOnline
      · rw [hLink]; exact hFree
    have hAfter := hWorks.beaconQueued hQueued
    rw [hAfter.2, hWorks.now_eq]
    unfold landed
    rw [(arrived_works target _).now_eq, hNow]

theorem winner_pending (c : Settings) (o : OutputUnit) (b : Bool) (ch : Channel) :
    winner c { o with completionPending := b } ch = winner c o ch := winner_congr (fun src => by cases src <;> rfl) c

theorem landed_rampsAway {d : DemandSet} (h : RampsAway (slewOnce ch s) d) : RampsAway (landed target ch s) d := by
  obtain ⟨x, hWins, hAway⟩ := h
  refine ⟨x, ?_, ?_⟩
  · rw [landed_out, landed_cfg, winner_pending]
    rw [(slewOnce_moved ch s).cfg] at hWins
    exact hWins
  · rw [landed_out]
    exact hAway

theorem landed_jumps (h : JumpsMade s) : JumpsMade (landed target ch s) := by
  have hSlewed := slewOnce_jumps ch h
  intro x v hv
  rw [landed_out, landed_cfg] at hv
  rw [landed_out]
  refine hSlewed x v ?_
  rw [(slewOnce_moved ch s).cfg]
  have hSame : SameDrive (slewOnce ch s).out { (slewOnce ch s).out with completionPending := false } := ⟨rfl, rfl, rfl, rfl, rfl⟩
  exact (aim_congr hSame s.cfg x).trans hv

end

/-- A forced leave acted on outside its mode: no candidate, and none pending (R50). -/
def stoodDown (s : State) : State := clearCandidate (s.setSeq { s.seq with forcedPending := none })

theorem stoodDown_seq (s : State) : (stoodDown s).seq = { s.seq with candidate := none, count := 0, forcedPending := none } := rfl

theorem stoodDown_out (s : State) : (stoodDown s).out = s.out := rfl

theorem stoodDown_port (s : State) : (stoodDown s).port = s.port := rfl

theorem stoodDown_proc (s : State) (r : Resource) : SameProc r s (stoodDown s) := ⟨rfl, rfl⟩

theorem stoodDown_works (s : State) : Works s (stoodDown s) := (Works.refl.seq _).seq _

theorem leaveNow_of_cleared {m : Mode} (hm : s.seq.mode ≠ some m) (hExit : s.seq.mode ≠ some .defrost ∨ s.seq.defrostExpired = false) :
    leaveNow m s = stoodDown s := by
  rw [leaveNow_of_other hm]
  exact afterSettled_of_cleared rfl hExit

/-- Settles O44. -/
theorem rampCompletionEntersTheTarget : Obligations.RampCompletionEntersTheTarget := by
  unfold Obligations.RampCompletionEntersTheTarget
  intro s ch target forced hSlew hDue hClosed hRestart hp ht hn hExit back settled entered cleared stepped
  have hMoved := slewOnce_moved ch s
  have hRun : running (slewOnce ch s) = true := by
    rw [running_iff, hMoved.port]
    exact ⟨hClosed, hRestart⟩
  have hPosting : (slewOnce ch s).out.posting = s.out.posting := by rw [hMoved.out]
  have hSet : (slewOnce ch s).out.seqSet = s.out.seqSet := by rw [hMoved.out]
  have hReport : reportOnce (slewOnce ch s) = rampCompleted target _ :=
    reportOnce_of_ramp (forced := forced) hDue hRun (by rw [hMoved.seq]; exact hp) (by rw [hMoved.seq]; exact ht)
      (by rw [hMoved.seq, hPosting]; exact hn)
  obtain ⟨hClaims, hLink, hPort, hNow, hSeq⟩ := slewed_kept (s := s) (ch := ch) { (slewOnce ch s).out with completionPending := false }
  have hLanded : (landed target ch s).seq = entered := landed_seq
  have hForced : (landed target ch s).seq.forcedPending = s.seq.forcedPending := by
    unfold landed
    rw [(arrived_spec target _).forcedPending, hSeq]
  have hMode : (landed target ch s).seq.mode = some target := (arrived_spec target _).mode
  have hNoExit : (landed target ch s).seq.mode ≠ some .defrost ∨ (landed target ch s).seq.defrostExpired = false := by
    refine arrived_noExit fun h => ?_
    rw [hSeq] at h
    unfold NoExitWaits
    rw [hSeq]
    exact hExit h
  have hNotDue {v : State} (hv : v.out = (landed target ch s).out) : completionDue v = false :=
    completionDue_of_not_pending (by rw [hv, landed_out])
  have hExec : exec (.slewStep ch) s = .next (settleRamps (slewOnce ch s)) :=
    congrArg Host.Outcome.next (if_pos hSlew)
  have hEnds {v : State} (h : reportOnce (slewOnce ch s) = v) (hv : completionDue v = false) : settleRamps (slewOnce ch s) = v := by
    rw [settleRamps_of_once hDue (by rw [h]; exact hv), h]
  refine ⟨_, hExec, fun hFree hDesires => ?free, fun m hm hOther => ?other, fun d hJumps hm ⟨hDesired, hNot, hAway⟩ => ?leaves⟩
  case free =>
    have hEnd : settleRamps (slewOnce ch s) = landed target ch s := by
      refine hEnds ?_ (hNotDue rfl)
      rw [hReport, rampCompleted_of_free (hForced.trans hFree)]
      refine afterSettled_arrived (fun d hd => hDesires d ?_) fun h => ?_
      · rw [← hd]
        exact (confirmed_congr hMoved.cfg (congrArg Sequencer.candidate hSeq) (congrArg Sequencer.count hSeq)).symm
      · rw [hSeq] at h
        unfold NoExitWaits
        rw [hSeq]
        exact hExit h
    rw [hEnd]
    have hCompleted : Completed target ch s (landed target ch s) :=
      completed_of_landed hp hRestart (fun r => .refl r _) rfl .refl rfl
    exact ⟨⟨hLanded, by rw [landed_out]; exact hSet, by rw [landed_out]⟩, hCompleted.present, hCompleted.claims.1, hCompleted.claims.2,
      hCompleted.changed, hCompleted.back, hCompleted.beacon⟩
  case other =>
    have hEnd : settleRamps (slewOnce ch s) = stoodDown (landed target ch s) := by
      refine hEnds ?_ (hNotDue (stoodDown_out _))
      rw [hReport, rampCompleted_of_forced (hForced.trans hm)]
      exact leaveNow_of_cleared (by rw [show (arrived target _).seq.mode = _ from hMode]; exact fun h => hOther (Option.some.inj h).symm) hNoExit
    rw [hEnd]
    have hCompleted : Completed target ch s (stoodDown (landed target ch s)) :=
      completed_of_landed hp hRestart (stoodDown_proc _) (stoodDown_port _) (stoodDown_works _) (by rw [stoodDown_out])
    refine ⟨⟨?_, ?_, ?_⟩, hCompleted.present, hCompleted.claims.1, hCompleted.claims.2, hCompleted.changed, hCompleted.back,
      hCompleted.beacon⟩
    · rw [stoodDown_seq, hLanded]
    · rw [stoodDown_out, landed_out]
      exact hSet
    · rw [stoodDown_out, landed_out]
  case leaves =>
    have hTarget : forcedTarget (landed target ch s) target = leaveTarget target d :=
      forcedTarget_eq target (by rw [landed_decision]; exact hDesired) hNot
    have hAway' : RampsAway (landed target ch s) (rampSet (landed target ch s).cfg (landed target ch s).decision.last
        (forcedTarget (landed target ch s) target)) := by
      rw [hTarget, landed_cfg, landed_decision]
      exact landed_rampsAway hAway
    have hEnd : settleRamps (slewOnce ch s) = leaveNow target (landed target ch s) := by
      refine hEnds ?_ (leaveNow_completionDue hMode hAway')
      rw [hReport, rampCompleted_of_forced (hForced.trans hm)]
      rfl
    have hOut := leaveNow_forcedOut (s := landed target ch s) hMode rfl rfl rfl rfl
    rw [hTarget] at hOut
    rw [hEnd]
    have hRamp := leaveNow_of_mode hMode
    have hCompleted : Completed target ch s (leaveNow target (landed target ch s)) := by
      rw [hRamp]
      refine completed_of_landed hp hRestart (fun r => ?_) ?_ ?_ ?_
      · have hStart : SameProc r (landed target ch s) (forcedStart (forcedTarget (landed target ch s) target) (landed target ch s)) := ⟨rfl, rfl⟩
        exact hStart.trans ⟨procOf_congr (enterRamping_claims ..) r, claimIn_enterRamping ..⟩
      · rw [enterRamping_port]
        rfl
      · exact enterRamping_works _ (Works.refl.seq _)
      · rw [enterRamping_out]
        exact postSet_present_of_jumps (s := forcedStart (forcedTarget (landed target ch s) target) (landed target ch s))
          (landed_jumps hJumps) _
    refine ⟨?_, hCompleted.present, hCompleted.claims.1, hCompleted.claims.2, hCompleted.changed, hCompleted.back, hCompleted.beacon⟩
    unfold ForcedOut RampingTo at hOut
    rw [hLanded, landed_cfg, landed_decision, landed_out] at hOut
    unfold RampingTo
    rw [← hPosting]
    exact hOut

end

end Sys2Proof.Machine
end

section
/-! PROOF. The frames on offer, the choice among them, and the outcomes of an attempt (O54): what sixteen failures of a frame do to the own
claim processes (R85, R103, R109). -/

namespace Sys2Proof.Machine

section
variable {s t u : State}

/-! ## The first entry of a list by a strict order -/

/-- No entry stands before the first of a list, where standing before is a strict weak order. -/
theorem firstBy_least {α : Type} {before : α → α → Bool} {l : List α} {x : α} (hAsymm : ∀ a b, before a b = true → before b a = false)
    (hNeg : ∀ a b c, before a b = false → before b c = false → before a c = false) (h : firstBy before l = some x) :
    ∀ y ∈ l, before y x = false := by
  have hIrrefl (a : α) : before a a = false := Bool.eq_false_iff.2 fun h => absurd h (by rw [hAsymm a a h]; decide)
  induction l generalizing x with
  | nil => exact nofun
  | cons z rest ih =>
    rw [firstBy] at h
    intro y hy
    cases hRest : firstBy before rest with
    | none =>
      rw [hRest] at h
      cases h
      rcases List.mem_cons.1 hy with rfl | hy
      · exact hIrrefl y
      · cases rest with
        | nil => cases hy
        | cons w rest' =>
          rw [firstBy] at hRest
          split at hRest
          · cases hRest
          · split at hRest <;> cases hRest
    | some w =>
      simp only [hRest] at h
      split at h
      next hw =>
        cases h
        rcases List.mem_cons.1 hy with rfl | hy
        · exact hAsymm _ _ hw
        · exact ih hRest y hy
      next hw =>
        cases h
        rcases List.mem_cons.1 hy with rfl | hy
        · exact hIrrefl y
        · exact hNeg _ _ _ (ih hRest y hy) (Bool.not_eq_true _ ▸ hw)

theorem firstBy_isSome {α : Type} {before : α → α → Bool} {l : List α} (h : l ≠ []) : ∃ x, firstBy before l = some x := by
  cases l with
  | nil => exact absurd rfl h
  | cons z rest =>
    rw [firstBy]
    split
    · exact ⟨_, rfl⟩
    · split <;> exact ⟨_, rfl⟩

/-! ## The frames on offer (R103) -/

theorem mem_offers_iff (s : State) (o : Offer) :
    let ident (b : FrameBody) := identNat (bodyKind b) (ownShaft s) (ownAddr s)
    o ∈ offers s ↔
      (∃ q, s.link.alertSlot = some q ∧ o = ⟨ident (.alert (alertNow s)), q, .alert, .alert (alertNow s)⟩)
        ∨ (∃ q, s.link.claimSlot.relief = some q ∧ o = ⟨ident (.claim q.msg), q.queuedAt, .relief, .claim q.msg⟩)
        ∨ (∃ q, s.link.claimSlot.defrost = some q ∧ o = ⟨ident (.claim q.msg), q.queuedAt, .defrost, .claim q.msg⟩)
        ∨ (∃ q, s.link.beaconSlot = some q ∧ o = ⟨ident (.beacon (beaconNow s)), q, .beacon, .beacon (beaconNow s)⟩) := by
  simp only [offers, List.mem_append, List.mem_map, Option.mem_toList, or_assoc, eq_comm (a := o)]

theorem offers_ident {o : Offer} (h : o ∈ offers s) : o.ident = identNat (bodyKind o.body) (ownShaft s) (ownAddr s) := by
  obtain ⟨q, -, rfl⟩ | ⟨q, -, rfl⟩ | ⟨q, -, rfl⟩ | ⟨q, -, rfl⟩ := (mem_offers_iff s o).1 h <;> rfl

theorem offeredBefore_iff (a b : Offer) : offeredBefore a b = true ↔
    a.ident < b.ident ∨ (a.ident = b.ident ∧ (a.queuedAt < b.queuedAt
      ∨ (a.queuedAt = b.queuedAt ∧ a.slot = .relief ∧ b.slot ≠ .relief))) := by
  simp [offeredBefore, and_assoc]

theorem offeredBefore_false_iff (a b : Offer) : offeredBefore a b = false ↔
    b.ident < a.ident ∨ (b.ident = a.ident ∧ (b.queuedAt < a.queuedAt
      ∨ (b.queuedAt = a.queuedAt ∧ (b.slot = .relief ∨ a.slot ≠ .relief)))) := by
  rw [← Bool.not_eq_true, offeredBefore_iff]
  by_cases ha : a.slot = .relief <;> by_cases hb : b.slot = .relief <;> simp only [ha, hb] <;> grind

theorem offeredBefore_asymm (a b : Offer) (h : offeredBefore a b = true) : offeredBefore b a = false := by
  rw [offeredBefore_false_iff]
  rw [offeredBefore_iff] at h
  grind

theorem offeredBefore_negTrans (a b c : Offer) (h : offeredBefore a b = false) (h' : offeredBefore b c = false) :
    offeredBefore a c = false := by
  rw [offeredBefore_false_iff] at *
  grind

/-- The frame offered next is one that none stands before (R103). -/
theorem nextOffer_least {o : Offer} (h : nextOffer s = some o) : o ∈ offers s ∧ ∀ x ∈ offers s, offeredBefore x o = false :=
  ⟨firstBy_mem h, firstBy_least offeredBefore_asymm offeredBefore_negTrans h⟩

/-! ## A process in BACKOFF (R76) -/

/-- A process in BACKOFF stands, with the frame in its slot. -/
def KeepsBackoff (x : Resource) (s t : State) : Prop := (procOf s x).state = .backoff → SameProc x s t

variable {x : Resource}

theorem KeepsBackoff.of_same (h : SameProc x s t) : KeepsBackoff x s t := fun _ => h

theorem KeepsBackoff.of_eq (hClaims : t.claims = s.claims) (hLink : t.link = s.link) : KeepsBackoff x s t :=
  .of_same ⟨procOf_congr hClaims x, claimIn_congr hLink x⟩

theorem KeepsBackoff.trans (h : KeepsBackoff x s t) (h' : KeepsBackoff x t u) : KeepsBackoff x s u := fun hs =>
  (h hs).trans (h' (by rw [(h hs).1]; exact hs))

theorem KeepsBackoff.ite {c : Prop} [Decidable c] {a b : State} (ha : KeepsBackoff x s a) (hb : KeepsBackoff x s b) :
    KeepsBackoff x s (if c then a else b) := by
  split <;> assumption

theorem KeepsBackoff.refl (x : Resource) (s : State) : KeepsBackoff x s s := .of_same (.refl x s)

theorem KeepsBackoff.setSeq (x : Resource) (q : Sequencer) (s : State) : KeepsBackoff x s (s.setSeq q) :=
  .of_eq (State.setSeq_claims s q) (State.setSeq_link s q)

theorem requestClaim_keepsBackoff (r : Resource) (s : State) : KeepsBackoff x s (requestClaim r s).1 := by
  by_cases h : x = r
  · subst h
    intro hs
    simp only [requestClaim, hs]
    exact .refl x s
  · exact .of_same (requestClaim_other h s)

theorem beginTransition_keepsBackoff (m : Mode) (f : Bool) (s : State) : KeepsBackoff x s (beginTransition m f s) := by
  have hPhase (p : Phase) (v : State) : KeepsBackoff x v (setPhase p v) := .of_same (.setPhase x p v)
  have hRamp (v : State) : KeepsBackoff x v (enterRamping m v) :=
    .of_same ⟨procOf_congr (enterRamping_claims m v) x, claimIn_enterRamping m v x⟩
  have hWait (v : State) : KeepsBackoff x v (enterWaitOrRamp m f v) :=
    .ite (hRamp v) ((KeepsBackoff.setSeq x _ v).trans (hPhase _ _))
  rw [beginTransition_eq]
  have hBegun : KeepsBackoff x s (begun m f s) := .setSeq x _ s
  refine hBegun.trans ?_
  unfold enterFirstPhase
  split
  · exact .ite (hWait _) ((hPhase _ _).trans (requestClaim_keepsBackoff _ _))
  · exact hWait _

theorem startTest_keepsBackoff (s : State) : KeepsBackoff x s (startTest s) := by
  unfold startTest
  split
  · exact .refl x s
  · exact .ite (beginTransition_keepsBackoff _ _ s) (.refl x s)

theorem afterSettled_keepsBackoff (s : State) : KeepsBackoff x s (afterSettled s) :=
  (startTest_keepsBackoff s).trans (.ite (beginTransition_keepsBackoff _ _ _) (.refl x _))

theorem toSettled_keepsBackoff (s : State) : KeepsBackoff x s (toSettled s) :=
  (KeepsBackoff.setSeq x _ s).trans (.of_same (.setPhase x .settled _))

theorem leaveNow_keepsBackoff (m : Mode) (s : State) : KeepsBackoff x s (leaveNow m s) := by
  have hCleared : KeepsBackoff x s (clearCandidate (s.setSeq { s.seq with forcedPending := none })) :=
    (KeepsBackoff.setSeq x _ s).trans (.setSeq x _ _)
  exact hCleared.trans (.ite (beginTransition_keepsBackoff _ _ _) (afterSettled_keepsBackoff _))

theorem rampCompleted_keepsBackoff (m : Mode) (s : State) : KeepsBackoff x s (rampCompleted m s) := by
  have hMode : KeepsBackoff x s (enterMode m s) :=
    (KeepsBackoff.setSeq x _ s).trans (KeepsBackoff.trans (.of_same ⟨procOf_congr (setMode_claims ..) x, claimIn_setMode ..⟩)
      (.of_same ⟨procOf_post .., rfl⟩))
  have hEntered : KeepsBackoff x s (if s.seq.mode = some m then s else enterMode m s) := .ite (.refl x s) hMode
  have hRelease (v : State) : KeepsBackoff x v (releaseUnneeded (some m) v) := fun hv =>
    releaseUnneeded_of_free (.inl (by simp [holds, hv]))
  have hTimers (v : State) : KeepsBackoff x v (if s.seq.mode = some m then v else defrostTimers s.seq.mode m v) := by
    refine .ite (.refl x v) ?_
    rw [defrostTimers_eq]
    exact .setSeq x _ v
  have hSettled := ((hEntered.trans (hRelease _)).trans (hTimers _)).trans (toSettled_keepsBackoff _)
  unfold rampCompleted
  dsimp only
  split
  · exact hSettled.trans (leaveNow_keepsBackoff _ _)
  · exact hSettled.trans (afterSettled_keepsBackoff _)

theorem settleRamps_keepsBackoff (s : State) : KeepsBackoff x s (settleRamps s) := by
  have hOnce (v : State) : KeepsBackoff x v (reportOnce v) := by
    have hOut (o : OutputUnit) : KeepsBackoff x v (v.setOut o) := .of_eq rfl rfl
    refine .ite ?_ (.refl x v)
    unfold takeCompletion
    split
    · exact hOut _
    · exact .ite ((hOut _).trans (rampCompleted_keepsBackoff _ _)) (hOut _)
  have hAll (n : Nat) (v : State) : KeepsBackoff x v (reportAll n v) := by
    induction n generalizing v with
    | zero => exact .refl x v
    | succ n ih => exact .ite ((hOnce v).trans (ih _)) (.refl x v)
  exact hAll 8 s

theorem abandon_keepsBackoff (m : Mode) (s : State) : KeepsBackoff x s (abandon m s) := by
  have hEnded : KeepsBackoff x s (abandoned m s) :=
    ((KeepsBackoff.setSeq x _ s).trans (toSettled_keepsBackoff _)).trans (.of_same ⟨procOf_post .., rfl⟩)
  exact hEnded.trans (afterSettled_keepsBackoff _)

theorem takeStarved_keepsBackoff (r : Resource) (s : State) : KeepsBackoff x s (takeClaimReport (.starved r) s) := by
  unfold takeClaimReport
  refine .ite (.refl x s) ?_
  dsimp only
  split
  · exact abandon_keepsBackoff _ s
  · exact .refl x s

/-! ## Reports of starved claims alone (R35) -/

theorem takeStarved_of_another {y : Transition} (hy : s.seq.transition = some y) (hx : claimFor y.target ≠ some x) :
    takeClaimReport (.starved x) s = s := by
  simp [takeClaimReport, hy, hx]

/-- Every report is one of a starved claim. -/
def StarvedOnly (l : List ClaimReport) : Prop := ∀ c ∈ l, ∃ r, c = .starved r

theorem StarvedOnly.tail {c : ClaimReport} {l : List ClaimReport} (h : StarvedOnly (c :: l)) : StarvedOnly l := fun d hd =>
  h d (List.mem_cons_of_mem c hd)

theorem takeClaimReports_of_unclaiming {l : List ClaimReport} (hl : StarvedOnly l) (hp : s.seq.phase ≠ some .claiming) :
    takeClaimReports l s = s := by
  induction l with
  | nil => rfl
  | cons c rest ih =>
    obtain ⟨r, rfl⟩ := hl c List.mem_cons_self
    rw [takeClaimReports, takeStarved_of_other hp]
    exact ih hl.tail

theorem takeClaimReports_of_another {l : List ClaimReport} {y : Transition} (hl : StarvedOnly l) (hy : s.seq.transition = some y)
    (hNot : ∀ r, claimFor y.target = some r → .starved r ∉ l) : takeClaimReports l s = s := by
  induction l with
  | nil => rfl
  | cons c rest ih =>
    obtain ⟨r, rfl⟩ := hl c List.mem_cons_self
    rw [takeClaimReports, takeStarved_of_another hy fun h => hNot r h List.mem_cons_self]
    exact ih hl.tail fun r hr => fun hm => hNot r hr (List.mem_cons_of_mem _ hm)

/-- The report of the claim that a transition awaits ends it, and the others change nothing (R35). -/
theorem takeClaimReports_abandoned {l : List ClaimReport} {y : Transition} (hl : StarvedOnly l) (hm : .starved x ∈ l)
    (hr : running s = true) (hp : s.seq.phase = some .claiming) (hy : s.seq.transition = some y) (hx : claimFor y.target = some x)
    (hs : (procOf s x).state = .starved) (hOnly : OnlyDesires y.target s) (hExit : NoExitWaits s) :
    takeClaimReports l s = abandoned y.target s := by
  induction l with
  | nil => cases hm
  | cons c rest ih =>
    obtain ⟨r, rfl⟩ := hl c List.mem_cons_self
    rw [takeClaimReports]
    by_cases hrx : r = x
    · rw [hrx, takeStarved_of_claiming hr hp hy hx, abandon_of_only hx hs hOnly hExit]
      exact takeClaimReports_of_unclaiming hl.tail (by rw [abandoned_seq]; exact nofun)
    · rw [takeStarved_of_another hy fun h => hrx (Option.some.inj (h.symm.trans hx))]
      refine ih hl.tail ?_
      rcases List.mem_cons.1 hm with h | h
      · exact absurd (ClaimReport.starved.inj h).symm hrx
      · exact h

theorem takeClaimReports_keepsBackoff {l : List ClaimReport} (hl : StarvedOnly l) (s : State) :
    KeepsBackoff x s (takeClaimReports l s) := by
  induction l generalizing s with
  | nil => exact .refl x s
  | cons c rest ih =>
    obtain ⟨r, rfl⟩ := hl c List.mem_cons_self
    exact (takeStarved_keepsBackoff r s).trans (ih hl.tail _)

theorem abandon_posts (m : Mode) (s : State) : Posts SequencerPosts s (abandon m s) :=
  (((Posts.seq _ s).trans (toSettled_posts _)).trans (.post (.inr ⟨m, rfl⟩) _)).trans (afterSettled_posts _)

theorem takeClaimReports_posts {l : List ClaimReport} (hl : StarvedOnly l) (s : State) : Posts SequencerPosts s (takeClaimReports l s) := by
  induction l generalizing s with
  | nil => exact .refl s
  | cons c rest ih =>
    obtain ⟨r, rfl⟩ := hl c List.mem_cons_self
    have hHead : Posts SequencerPosts s (takeClaimReport (.starved r) s) := by
      unfold takeClaimReport
      refine .ite (.refl s) ?_
      dsimp only
      split
      · exact abandon_posts _ s
      · exact .refl s
    exact hHead.trans (ih hl.tail _)

/-! ## The own processes as the link falls QUIET (R85) -/

/-- What stands while the claims change: the Sequencer, the outputs, the Peer Table, the configuration, the link's state and queue but
its claim slots, and the port but a notice more. -/
structure Beside (s t : State) : Prop where
  seq : t.seq = s.seq
  out : t.out = s.out
  peers : t.peers = s.peers
  cfg : t.cfg = s.cfg
  now : t.now = s.now
  running : running t = running s
  line : SameLine s.link t.link
  queue : SameQueue s.link t.link
  posts : Posts (fun _ => True) s t

theorem Beside.refl (s : State) : Beside s s := ⟨rfl, rfl, rfl, rfl, rfl, rfl, .refl _, .refl _, .refl s⟩

theorem Beside.trans (h : Beside s t) (h' : Beside t u) : Beside s u :=
  ⟨h'.seq.trans h.seq, h'.out.trans h.out, h'.peers.trans h.peers, h'.cfg.trans h.cfg, h'.now.trans h.now,
    h'.running.trans h.running, h.line.trans h'.line, h.queue.trans h'.queue, h.posts.trans h'.posts⟩

theorem removeIntent_port (r : Resource) (s : State) : (removeIntent r s).port = s.port := by rw [removeIntent_eq, State.setLink_port]
theorem removeIntent_seq (r : Resource) (s : State) : (removeIntent r s).seq = s.seq := by rw [removeIntent_eq, State.setLink_seq]
theorem removeIntent_out (r : Resource) (s : State) : (removeIntent r s).out = s.out := by rw [removeIntent_eq, State.setLink_out]
theorem removeIntent_peers (r : Resource) (s : State) : (removeIntent r s).peers = s.peers := by rw [removeIntent_eq, State.setLink_peers]
theorem removeIntent_now (r : Resource) (s : State) : (removeIntent r s).now = s.now := by rw [removeIntent_eq, State.setLink_now]
theorem removeIntent_cfg (r : Resource) (s : State) : (removeIntent r s).cfg = s.cfg := congrArg Port.cfg (removeIntent_port r s)

theorem removeIntent_beside (r : Resource) (s : State) : Beside s (removeIntent r s) :=
  ⟨removeIntent_seq r s, removeIntent_out r s, removeIntent_peers r s, removeIntent_cfg r s, removeIntent_now r s,
    by rw [running, running, removeIntent_port], removeIntent_sameLine r s, removeIntent_sameQueue r s,
    .of_port (removeIntent_port r s) (removeIntent_now r s)⟩

theorem setProc_beside (r : Resource) (p : Process) (s : State) : Beside s (setProc r p s) :=
  ⟨rfl, rfl, rfl, rfl, rfl, rfl, .refl _, .refl _, .of_port rfl rfl⟩

theorem post_beside (b : NoticeBody) (s : State) : Beside s (post b s) :=
  ⟨rfl, rfl, rfl, rfl, rfl, rfl, .refl _, .refl _, .post trivial s⟩

/-- A process whose INTENT is given up backs off (R75, R85). -/
def backedOff (r : Resource) (s : State) : Process := { procOf s r with
  state := .backoff, timer := some (s.now + (s.cfg.claims.tBACK * 1000 * (procOf s r).attempt + ownAddr s % 8 * 250)) }

/-- A process whose INTENT is given up at its last attempt starves (R77, R85). -/
def lockedOut (r : Resource) (s : State) : Process := { procOf s r with
  state := .starved, timer := some (s.now + s.cfg.claims.tLOCK * 1000), request := false }

/-- A process is PENDING at its last attempt. -/
def AtLast (r : Resource) (s : State) : Prop := (procOf s r).state = .pending ∧ s.cfg.claims.maxTries ≤ (procOf s r).attempt

/-- What the entry into QUIET makes of a process that stood as in s: an INTENT leaves its slot, and a PENDING process backs off, or
starves after the last attempt. -/
structure QuietTaken (r : Resource) (s t : State) : Prop where
  slot : claimIn t r = if isIntent (claimIn s r) = true then none else claimIn s r
  still : (procOf s r).state ≠ .pending → procOf t r = procOf s r
  back : (procOf s r).state = .pending → ¬AtLast r s → procOf t r = backedOff r s
  last : AtLast r s → procOf t r = lockedOut r s

theorem QuietTaken.after (h : QuietTaken x s t) (h' : SameProc x t u) : QuietTaken x s u :=
  ⟨h'.2.trans h.slot, fun hs => h'.1.trans (h.still hs), fun hs hl => h'.1.trans (h.back hs hl), fun hl => h'.1.trans (h.last hl)⟩

theorem QuietTaken.disturbed (h : QuietTaken x s t) : (procOf t x).disturbed = (procOf s x).disturbed := by
  by_cases hs : (procOf s x).state = .pending
  · by_cases hl : AtLast x s
    · rw [h.last hl]; rfl
    · rw [h.back hs hl]; rfl
  · rw [h.still hs]

theorem quietProc_of_still (h : (procOf s x).state ≠ .pending) : quietProc x s = (removeIntent x s, []) := by
  unfold quietProc
  dsimp only
  rw [procOf_removeIntent, if_neg h]
  rfl

theorem removeIntent_ownAddr (r : Resource) (s : State) : ownAddr (removeIntent r s) = ownAddr s := by
  rw [ownAddr, ownAddr, removeIntent_cfg]

theorem quietProc_of_more (h : (procOf s x).state = .pending) (hl : ¬AtLast x s) :
    quietProc x s = (setProc x (backedOff x s) (removeIntent x s), []) := by
  have hMore : (procOf s x).attempt < s.cfg.claims.maxTries := Nat.lt_of_not_le fun hle => hl ⟨h, hle⟩
  unfold quietProc afterFailure
  dsimp only
  rw [procOf_removeIntent, if_pos h, removeIntent_cfg, if_pos hMore, removeIntent_ownAddr, removeIntent_now]
  rfl

theorem quietProc_of_last (h : AtLast x s) : quietProc x s
    = (post (.claimStarved x) (setProc x (lockedOut x s) (removeIntent x s)), [.starved x]) := by
  unfold quietProc afterFailure
  dsimp only
  rw [procOf_removeIntent, if_pos h.1, removeIntent_cfg, if_neg (Nat.not_lt.2 h.2)]
  unfold enterStarved
  rw [procOf_removeIntent, removeIntent_cfg, removeIntent_now]
  rfl

/-- One process as the link falls QUIET, with its report. -/
theorem quietProc_taken (r : Resource) (s : State) : QuietTaken r s (quietProc r s).1 ∧ Beside s (quietProc r s).1
    ∧ (∀ y, y ≠ r → SameProc y s (quietProc r s).1)
    ∧ ((AtLast r s ∧ (quietProc r s).2 = [.starved r]) ∨ (¬AtLast r s ∧ (quietProc r s).2 = [])) := by
  have hSlot := claimIn_removeIntent (s := s) (r := r) r
  rw [ite_cond_congr (propext (and_iff_right rfl))] at hSlot
  by_cases hs : (procOf s r).state = .pending
  · by_cases hl : AtLast r s
    · rw [quietProc_of_last hl]
      refine ⟨⟨hSlot, fun h => absurd hs h, fun _ h => absurd hl h, fun _ => ?_⟩,
        ((removeIntent_beside r s).trans (setProc_beside r _ _)).trans (post_beside _ _),
        fun y hy => ((SameProc.removeIntent hy s).trans (.setProc hy _ _)).trans ⟨procOf_post .., rfl⟩, .inl ⟨hl, rfl⟩⟩
      rw [procOf_post, procOf_setProc_same]
    · rw [quietProc_of_more hs hl]
      exact ⟨⟨hSlot, fun h => absurd hs h, fun _ _ => procOf_setProc_same .., fun h => absurd h hl⟩,
        (removeIntent_beside r s).trans (setProc_beside r _ _),
        fun y hy => (SameProc.removeIntent hy s).trans (.setProc hy _ _), .inr ⟨hl, rfl⟩⟩
  · rw [quietProc_of_still hs]
    exact ⟨⟨hSlot, fun _ => procOf_removeIntent r s r, fun h => absurd h hs, fun h => absurd h.1 hs⟩, removeIntent_beside r s,
      fun y hy => .removeIntent hy s, .inr ⟨fun h => hs h.1, rfl⟩⟩

/-- Both own processes as the link falls QUIET, RELIEF's first. -/
def quietProcs (s : State) : Reported := thenReport (quietProc .relief s) (quietProc .defrost)

theorem atLast_congr (hProc : SameProc x s t) (hCfg : t.cfg = s.cfg) : AtLast x t ↔ AtLast x s := by
  unfold AtLast
  rw [hProc.1, hCfg]

theorem QuietTaken.before (h : SameProc x s t) (hb : Beside s t) (h' : QuietTaken x t u) : QuietTaken x s u := by
  have hBack : backedOff x t = backedOff x s := by unfold backedOff; rw [h.1, hb.now, hb.cfg, ownAddr, ownAddr, hb.cfg]
  have hOut : lockedOut x t = lockedOut x s := by unfold lockedOut; rw [h.1, hb.now, hb.cfg]
  have hLast := atLast_congr h hb.cfg
  obtain ⟨hSlot, hStill, hMore, hDone⟩ := h'
  rw [h.2] at hSlot
  rw [h.1] at hStill hMore
  rw [hBack, hLast] at hMore
  rw [hOut, hLast] at hDone
  exact ⟨hSlot, hStill, hMore, hDone⟩

theorem quietProcs_taken (s : State) : (∀ r, QuietTaken r s (quietProcs s).1) ∧ Beside s (quietProcs s).1
    ∧ StarvedOnly (quietProcs s).2 ∧ ∀ r, .starved r ∈ (quietProcs s).2 ↔ AtLast r s := by
  obtain ⟨hFirst, hBeside, hOther, hReport⟩ := quietProc_taken .relief s
  obtain ⟨hSecond, hBeside', hOther', hReport'⟩ := quietProc_taken .defrost (quietProc .relief s).1
  have hStill := hOther .defrost (by decide)
  rw [atLast_congr hStill hBeside.cfg] at hReport'
  refine ⟨fun r => ?_, hBeside.trans hBeside', ?_⟩
  · cases r with
    | relief => exact hFirst.after (hOther' .relief (by decide))
    | defrost => exact hSecond.before hStill hBeside
  · have hList : (quietProcs s).2 = (quietProc .relief s).2 ++ (quietProc .defrost (quietProc .relief s).1).2 := rfl
    rw [hList]
    have hEach : ∀ c, c ∈ (quietProc .relief s).2 ++ (quietProc .defrost (quietProc .relief s).1).2 ↔
        (AtLast .relief s ∧ c = .starved .relief) ∨ (AtLast .defrost s ∧ c = .starved .defrost) := by
      intro c
      rcases hReport with ⟨hl, hr⟩ | ⟨hl, hr⟩ <;> rcases hReport' with ⟨hl', hr'⟩ | ⟨hl', hr'⟩ <;> simp [hr, hr', hl, hl']
    refine ⟨fun c hc => ?_, fun r => ?_⟩
    · obtain ⟨-, h⟩ | ⟨-, h⟩ := (hEach c).1 hc
      · exact ⟨_, h⟩
      · exact ⟨_, h⟩
    · rw [hEach]
      cases r <;> simp

theorem post_length (b : NoticeBody) (s : State) : (post b s).port.notices.length ≤ s.port.notices.length + 1 := by
  show (queueNotice s.port.notices s.port.overflow (noticeNow b s)).1.length ≤ _
  unfold queueNotice
  split
  · rw [List.length_append]; exact Nat.le_refl _
  · split
    · split
      next h => rw [List.length_append, List.length_singleton, dropOldestEvent_length h]; exact Nat.le_succ _
      next => exact Nat.le_succ _
    · exact Nat.le_succ _

theorem quietProc_notices (r : Resource) (s : State) :
    (quietProc r s).1.port.notices.length ≤ s.port.notices.length + 1 := by
  have hQueue : (removeIntent r s).port.notices = s.port.notices := by rw [removeIntent_port]
  by_cases hs : (procOf s r).state = .pending
  · by_cases hl : AtLast r s
    · rw [quietProc_of_last hl]
      exact Nat.le_trans (post_length _ _) (Nat.succ_le_succ (Nat.le_of_eq (congrArg List.length hQueue)))
    · rw [quietProc_of_more hs hl]
      exact Nat.le_trans (Nat.le_of_eq (congrArg List.length hQueue)) (Nat.le_succ _)
  · rw [quietProc_of_still hs]
    exact Nat.le_trans (Nat.le_of_eq (congrArg List.length hQueue)) (Nat.le_succ _)

/-! ## Sixteen failures of a frame (R103, R109) -/

/-- The link as it falls QUIET. -/
def quietLink (s : State) : Link := { abortAttempt s.link with
  state := .quiet, quietTimer := some (s.now + secs s.cfg.line.tQUIET), failCount := 0, failSlot := none }

/-- The station as its link falls QUIET, up to the notice and what disturbs its attempts. -/
def quietNoticed (k : FrameKind) (s : State) : State :=
  disturbFrom s.link.state (post (.linkQuiet k) (s.setLink (quietLink s)))

theorem enterQuiet_eq (k : FrameKind) (s : State) : enterQuiet k s = settleRamps (reported (quietProcs (quietNoticed k s))) := rfl

theorem disturbFrom_proc (was : LinkState) (s : State) (r : Resource) :
    procOf (disturbFrom was s) r = { procOf s r with disturbed := was = .online || (procOf s r).disturbed } := by
  unfold disturbFrom
  by_cases h : was = .online
  · rw [if_pos h, procOf_disturb, decide_eq_true h]; rfl
  · rw [if_neg h, decide_eq_false h]; rfl

theorem quietNoticed_link (k : FrameKind) (s : State) : (quietNoticed k s).link = quietLink s := by
  unfold quietNoticed
  rw [disturbFrom_eq, State.setClaims_link, post_eq, State.setPort_link, State.setLink_link]

theorem quietNoticed_port (k : FrameKind) (s : State) : (quietNoticed k s).port = (post (.linkQuiet k) s).port := by
  unfold quietNoticed
  rw [disturbFrom_eq, State.setClaims_port]
  exact post_port_congr (State.setLink_port s _) (State.setLink_now s _) _

theorem quietNoticed_kept (k : FrameKind) (s : State) : (quietNoticed k s).seq = s.seq ∧ (quietNoticed k s).out = s.out
    ∧ (quietNoticed k s).peers = s.peers ∧ (quietNoticed k s).now = s.now := by
  unfold quietNoticed
  rw [disturbFrom_eq, post_eq]
  exact ⟨rfl, rfl, rfl, rfl⟩

theorem quietNoticed_cfg (k : FrameKind) (s : State) : (quietNoticed k s).cfg = s.cfg := by
  rw [State.cfg, quietNoticed_port]; rfl

theorem quietNoticed_claimIn (k : FrameKind) (s : State) (r : Resource) : claimIn (quietNoticed k s) r = claimIn s r := by
  have hSlots : (abortAttempt s.link).claimSlot = s.link.claimSlot := by unfold abortAttempt; split <;> rfl
  rw [claimIn, claimIn, quietNoticed_link, quietLink, hSlots]

theorem procOf_quietNoticed (k : FrameKind) (s : State) (r : Resource) : procOf (quietNoticed k s) r
    = { procOf s r with disturbed := s.link.state = .online || (procOf s r).disturbed } := disturbFrom_proc _ _ r

theorem quietLink_shown (s : State) : (quietLink s).state = .quiet ∧ (quietLink s).attempt = none ∧ (quietLink s).failCount = 0
    ∧ (quietLink s).quietTimer = some (s.now + s.cfg.line.tQUIET * 1000) ∧ (quietLink s).beaconTimer = s.link.beaconTimer
    ∧ (quietLink s).alertSlot = s.link.alertSlot := by
  refine ⟨rfl, abortAttempt_attempt _, rfl, rfl, ?_, abortAttempt_alertSlot _⟩
  show (abortAttempt s.link).beaconTimer = _
  unfold abortAttempt
  split <;> rfl

/-- What the sixteenth failure of a frame leaves (R85, R109): q is the state in which the Claim Unit's reports are taken. -/
structure Quietened (k : FrameKind) (s t : State) : Prop where
  line : SameLine (quietLink s) t.link
  queue : SameQueue (quietLink s) t.link
  peers : t.peers = s.peers
  notice : HasRoom s → noticeNow (.linkQuiet k) s ∈ t.port.notices
  disturbed : s.link.state = .online → ∀ r, (procOf t r).disturbed = true
  back : ∀ r, (procOf s r).state = .pending → ¬AtLast r s →
    (procOf t r).state = .backoff ∧ (procOf t r).timer = (backedOff r s).timer
  last : ∀ r, AtLast r s → (procOf t r).state = .starved ∧ (procOf t r).timer = (lockedOut r s).timer
  slot : ∀ r, (procOf s r).state = .pending → isIntent (claimIn s r) = true → claimIn t r = none

theorem quietTaken_of_noticed {k : FrameKind} (h : QuietTaken x (quietNoticed k s) t) :
    claimIn t x = (if isIntent (claimIn s x) = true then none else claimIn s x)
      ∧ (procOf t x).disturbed = (decide (s.link.state = .online) || (procOf s x).disturbed)
      ∧ ((procOf s x).state ≠ .pending → (procOf t x).state = (procOf s x).state)
      ∧ ((procOf s x).state = .pending → ¬AtLast x s →
          (procOf t x).state = .backoff ∧ (procOf t x).timer = (backedOff x s).timer)
      ∧ (AtLast x s → (procOf t x).state = .starved ∧ (procOf t x).timer = (lockedOut x s).timer) := by
  obtain ⟨-, -, -, hNow⟩ := quietNoticed_kept k s
  have hCfg := quietNoticed_cfg k s
  have hProc := procOf_quietNoticed k s x
  have hLast : AtLast x (quietNoticed k s) ↔ AtLast x s := by unfold AtLast; rw [hProc, hCfg]
  have hDisturbed := h.disturbed
  obtain ⟨hSlot, hStill, hBack, hEnd⟩ := h
  rw [quietNoticed_claimIn] at hSlot
  rw [hLast] at hBack hEnd
  rw [backedOff, ownAddr] at hBack
  rw [lockedOut] at hEnd
  rw [hProc, hNow, hCfg] at hBack hEnd
  rw [hProc] at hStill hDisturbed
  refine ⟨hSlot, hDisturbed, fun hs => by rw [hStill hs], fun hs hl => ?_, fun hl => ?_⟩
  · rw [hBack hs hl]; exact ⟨rfl, rfl⟩
  · rw [hEnd hl]; exact ⟨rfl, rfl⟩

theorem enterQuiet_quietened (k : FrameKind) (s : State) : Quietened k s (enterQuiet k s) := by
  rw [enterQuiet_eq]
  obtain ⟨hEach, hBeside, hStarved, -⟩ := quietProcs_taken (quietNoticed k s)
  have hLink := quietNoticed_link k s
  have hPeers := (quietNoticed_kept k s).2.2.1
  have hPort := quietNoticed_port k s
  generalize quietProcs (quietNoticed k s) = q at hEach hBeside hStarved ⊢
  have hWorks : Works q.1 (settleRamps (reported q)) := settleRamps_works (reported_works .refl)
  have hKept (r : Resource) : KeepsBackoff r q.1 (settleRamps (reported q)) :=
    (takeClaimReports_keepsBackoff hStarved _).trans (settleRamps_keepsBackoff _)
  have hPosts : Posts SequencerPosts q.1 (settleRamps (reported q)) := (takeClaimReports_posts hStarved _).trans (settleRamps_posts _)
  have hSame : (settleRamps (reported q)).peers = q.1.peers :=
    Acts.peers_eq (P := fun p => p != .peers)
      (settleRamps_acts (reported_acts .refl ⟨rfl, rfl, rfl, rfl, rfl, rfl⟩) ⟨rfl, rfl, rfl, rfl, rfl, rfl⟩) rfl
  generalize settleRamps (reported q) = t at *
  have hFallen (r : Resource) := quietTaken_of_noticed (hEach r)
  refine ⟨hLink ▸ hBeside.line.trans hWorks.sameLine, hLink ▸ hBeside.queue.trans hWorks.sameQueue,
    hSame.trans (hBeside.peers.trans hPeers), fun hRoom => ?_, fun hOn r => ?_, fun r hs hl => ?_, fun r hl => ?_, fun r hs hi => ?_⟩
  · refine (hBeside.posts.trans (hPosts.mono fun _ _ => trivial)).mem ?_ nofun
    have hPosted := posted_post_of_room hRoom (.linkQuiet k)
    unfold Posted at hPosted
    rw [hPort, hPosted]
    exact List.mem_append_right _ (List.mem_singleton_self _)
  · rw [hWorks.sameClaims.disturbed r, (hFallen r).2.1, decide_eq_true hOn]
    rfl
  · have hBack := (hFallen r).2.2.2.1 hs hl
    rw [(hKept r hBack.1).1]
    exact hBack
  · have hLast := (hFallen r).2.2.2.2 hl
    rw [(hWorks.starved hLast.1).1]
    exact hLast
  · have hSlot := (hFallen r).1
    rw [if_pos hi] at hSlot
    by_cases hl : AtLast r s
    · rw [(hWorks.starved ((hFallen r).2.2.2.2 hl).1).2]
      exact hSlot
    · rw [(hKept r ((hFallen r).2.2.2.1 hs hl).1).2]
      exact hSlot

/-- The state as the reports of the fall into QUIET are taken, where no ramp waits to complete. -/
theorem quietNoticed_completionDue (k : FrameKind) (h : completionDue s = false) : completionDue (quietProcs (quietNoticed k s)).1 = false := by
  obtain ⟨-, hBeside, -, -⟩ := quietProcs_taken (quietNoticed k s)
  exact (completionDue_congr (hBeside.cfg.trans (quietNoticed_cfg k s)) (hBeside.out.trans (quietNoticed_kept k s).2.1)).trans h

/-- Where no transition waits for a claim that starves, the Sequencer takes nothing of the fall into QUIET. -/
theorem enterQuiet_of_ignored {k : FrameKind} (hs : completionDue s = false)
    (h : s.seq.phase ≠ some .claiming
      ∨ ∃ y, s.seq.transition = some y ∧ ∀ r, claimFor y.target = some r → ¬AtLast r s) :
    enterQuiet k s = (quietProcs (quietNoticed k s)).1 := by
  obtain ⟨-, hBeside, hStarved, hIff⟩ := quietProcs_taken (quietNoticed k s)
  have hSeq := hBeside.seq.trans (quietNoticed_kept k s).1
  have hTaken : reported (quietProcs (quietNoticed k s)) = (quietProcs (quietNoticed k s)).1 := by
    rcases h with h | ⟨y, hy, hNot⟩
    · exact takeClaimReports_of_unclaiming hStarved (by rw [hSeq]; exact h)
    · refine takeClaimReports_of_another hStarved (by rw [hSeq]; exact hy) fun r hr hm => hNot r hr ?_
      rw [hIff] at hm
      unfold AtLast at hm ⊢
      rwa [procOf_quietNoticed, quietNoticed_cfg] at hm
  rw [enterQuiet_eq, hTaken, settleRamps_of_not_due (quietNoticed_completionDue k hs)]

/-- A transition that awaits a claim at its last attempt is abandoned as the link falls QUIET (R35, R85). -/
theorem enterQuiet_abandoned {k : FrameKind} {r : Resource} {y : Transition} (hs : completionDue s = false) (hr : running s = true)
    (hp : s.seq.phase = some .claiming) (hy : s.seq.transition = some y) (hx : claimFor y.target = some r) (hl : AtLast r s)
    (hOnly : OnlyDesires y.target s) (hExit : NoExitWaits s) :
    (enterQuiet k s).seq = settledSeq s.seq ∧ (enterQuiet k s).out = s.out
      ∧ (s.port.notices.length ≤ 12 → noticeNow (.transitionAbandoned y.target) s ∈ (enterQuiet k s).port.notices) := by
  obtain ⟨hEach, hBeside, hStarved, hIff⟩ := quietProcs_taken (quietNoticed k s)
  obtain ⟨hSeq0, hOut0, -, hNow0⟩ := quietNoticed_kept k s
  have hCfg := hBeside.cfg.trans (quietNoticed_cfg k s)
  have hSeq := hBeside.seq.trans hSeq0
  have hOut := hBeside.out.trans hOut0
  have hNow := hBeside.now.trans hNow0
  have hRun : running (quietProcs (quietNoticed k s)).1 = true := by
    rw [hBeside.running, running, quietNoticed_port]
    exact hr
  have hMem : .starved r ∈ (quietProcs (quietNoticed k s)).2 := by
    rw [hIff]
    unfold AtLast at hl ⊢
    rwa [procOf_quietNoticed, quietNoticed_cfg]
  have hState := ((quietTaken_of_noticed (hEach r)).2.2.2.2 hl).1
  have hDue := quietNoticed_completionDue k hs
  have hLength : (quietProcs (quietNoticed k s)).1.port.notices.length ≤ s.port.notices.length + 3 := by
    have hFirst := quietProc_notices .relief (quietNoticed k s)
    have hSecond := quietProc_notices .defrost (quietProc .relief (quietNoticed k s)).1
    rw [quietNoticed_port] at hFirst
    have hNoticed := post_length (.linkQuiet k) s
    exact Nat.le_trans hSecond (Nat.succ_le_succ (Nat.le_trans hFirst (Nat.succ_le_succ hNoticed)))
  rw [enterQuiet_eq]
  generalize quietProcs (quietNoticed k s) = q at *
  have hTaken : reported q = abandoned y.target q.1 := by
    refine takeClaimReports_abandoned hStarved hMem hRun (by rw [hSeq]; exact hp) (by rw [hSeq]; exact hy) hx hState
      (fun d hd => hOnly d ?_) fun hm => ?_
    · rw [← hd]
      exact (confirmed_congr hCfg (by rw [hSeq]) (by rw [hSeq])).symm
    · rw [hSeq] at hm ⊢
      exact hExit hm
  have hDueAfter : completionDue (abandoned y.target q.1) = false :=
    (completionDue_congr (abandoned_cfg ..) (abandoned_out ..)).trans hDue
  rw [hTaken, settleRamps_of_not_due hDueAfter, abandoned_seq, abandoned_out, hSeq, hOut]
  refine ⟨rfl, rfl, fun hShort => ?_⟩
  have hRoom : HasRoom q.1 := Nat.lt_of_le_of_lt hLength (Nat.lt_of_le_of_lt (Nat.add_le_add_right hShort 3) (by decide))
  have hPosted := abandoned_posted y.target hRoom
  unfold Posted at hPosted
  rw [hPosted, noticeNow_congr _ hNow]
  exact List.mem_append_right _ (List.mem_singleton_self _)

/-! ## The outcomes of an attempt (R103) -/

theorem abortAttempt_eq {a : Attempt} {l : Link} (h : l.attempt = some a) : abortAttempt l = { l with
    attempt := none
    beaconMark := l.beaconMark && (l.attempt.map (·.slot)) != some .beacon
    alertMark := l.alertMark && (l.attempt.map (·.slot)) != some .alert } := by
  unfold abortAttempt
  rw [h]
  rfl

theorem abortAttempt_of_none {l : Link} (h : l.attempt = none) : abortAttempt l = l := by
  unfold abortAttempt
  rw [h]

theorem transmitFailed_of_attempt {a : Attempt} (h : s.link.attempt = some a) : transmitFailed s
    = if 16 ≤ failuresNow s.link a.slot then enterQuiet (bodyKind a.body) s
      else s.setLink { abortAttempt s.link with failCount := failuresNow s.link a.slot, failSlot := some a.slot } := by
  unfold transmitFailed
  rw [h]
  rfl

theorem beginTransmit_of_ready (hc : s.port.closed = true) (hl : s.link.state = .online) (ha : s.link.attempt = none)
    (ho : offers s ≠ []) : ∃ o, nextOffer s = some o
      ∧ beginTransmit s = s.setLink { s.link with attempt := some { slot := o.slot, body := o.body } } := by
  obtain ⟨o, hNext⟩ := firstBy_isSome (before := offeredBefore) ho
  have hOffer : nextOffer s = some o := hNext
  refine ⟨o, hOffer, ?_⟩
  unfold beginTransmit
  rw [if_pos (by simp [attemptReady, hc, hl, ha, hOffer]), hOffer]

theorem beginTransmit_of_unready (h : ¬(s.port.closed = true ∧ s.link.state = .online ∧ s.link.attempt = none ∧ offers s ≠ [])) :
    beginTransmit s = s := by
  refine if_neg fun hReady => h ?_
  simp only [attemptReady, Bool.and_eq_true, decide_eq_true_eq, Option.isNone_iff_eq_none] at hReady
  obtain ⟨⟨⟨hc, hl⟩, ha⟩, hNext⟩ := hReady
  refine ⟨hc, hl, ha, fun ho => ?_⟩
  rw [nextOffer, ho] at hNext
  cases hNext

theorem reports_iff (r : Resource) : reports (procOf s r) = true
    ↔ (procOf s r).state = .held ∨ (procOf s r).state = .yielding ∨ (procOf s r).state = .releasing := by
  simp [reports, holds, or_assoc]

end

/-- Settles O54: what the fall into QUIET leaves of the own claim processes does not depend on the ramps that complete with it. -/
theorem attemptsOfferTheLowestFrameAndCountFailures : Obligations.AttemptsOfferTheLowestFrameAndCountFailures := by
  intro s
  have hClaimIdent (m : ClaimMsg) : identNat (bodyKind (.claim m)) (ownShaft s) (ownAddr s) = (match m with
      | .withdraw .. => 1 * 2 ^ 26 + 4 * 2 ^ 22 + ownShaft s * 2 ^ 19 + ownAddr s * 2 ^ 13
      | .release .. => 1 * 2 ^ 26 + 5 * 2 ^ 22 + ownShaft s * 2 ^ 19 + ownAddr s * 2 ^ 13
      | .held .. => 2 * 2 ^ 26 + 3 * 2 ^ 22 + ownShaft s * 2 ^ 19 + ownAddr s * 2 ^ 13
      | .intent .. => 3 * 2 ^ 26 + 2 * 2 ^ 22 + ownShaft s * 2 ^ 19 + ownAddr s * 2 ^ 13) := by cases m <;> rfl
  have hAbsent (h : ownQuality s = .absent) : (beaconNow s).quality = .absent := h
  refine ⟨fun o => ?offers, fun o ho => ?ident, fun m hm => ?mode, fun p hp => ?phase, rfl, rfl, rfl, rfl, fun h => ?units,
    fun h => ?noUnits, reports_iff .defrost, rfl, fun h => ?probe, fun h => ?noProbe, fun h => ?unready, fun h => ?ready, ?lost,
    fun h => ?idle, fun a ha => ⟨fun hn => ?counts, fun hn => ?quiet⟩⟩
  case offers =>
    refine (mem_offers_iff s o).trans ?_
    simp only [hClaimIdent]
    rfl
  case ident => rw [offers_ident ho]; rfl
  case mode => exact congrArg (fun m => Option.getD m Mode.safe) hm
  case phase => exact congrArg (fun p => Option.getD p Phase.settled) hp
  case units => exact if_pos ((reports_iff .relief).2 h)
  case noUnits => exact if_neg (mt (reports_iff .relief).1 h)
  case probe => exact ⟨if_neg h, if_neg h⟩
  case noProbe => exact ⟨if_pos h, if_pos h, by simp only [beaconBytes, hAbsent h, ↓reduceIte]; rfl⟩
  case unready => exact congrArg Host.Outcome.next (beginTransmit_of_unready h)
  case ready =>
    obtain ⟨hc, hl, ha, ho⟩ := h
    obtain ⟨o, hNext, hBegin⟩ := beginTransmit_of_ready hc hl ha ho
    obtain ⟨hMem, hLeast⟩ := nextOffer_least hNext
    exact ⟨o, hMem, congrArg Host.Outcome.next hBegin, fun x hx => (offeredBefore_false_iff x o).1 (hLeast x hx)⟩
  case lost =>
    refine congrArg (fun l => Host.Outcome.next (s.setLink l)) ?_
    cases ha : s.link.attempt with
    | none => rw [if_pos rfl]; exact abortAttempt_of_none ha
    | some a => rw [if_neg nofun, ← ha]; exact abortAttempt_eq ha
  case idle =>
    refine congrArg Host.Outcome.next ?_
    unfold transmitFailed
    rw [h]
  case counts =>
    refine congrArg Host.Outcome.next ?_
    exact (transmitFailed_of_attempt ha).trans ((if_neg (Nat.not_le.2 hn)).trans (by rw [abortAttempt_eq ha]; rfl))
  case quiet =>
    refine ⟨enterQuiet (bodyKind a.body) s, ?_, ?_⟩
    · exact congrArg Host.Outcome.next ((transmitFailed_of_attempt ha).trans (if_pos hn))
    · have hQuiet := enterQuiet_quietened (bodyKind a.body) s
      obtain ⟨hState, hAttempt, hFail, hTimer, hBeacon, hAlert⟩ := quietLink_shown s
      obtain ⟨hEach, hBeside, -, -⟩ := quietProcs_taken (quietNoticed (bodyKind a.body) s)
      have hSeq := hBeside.seq.trans (quietNoticed_kept (bodyKind a.body) s).1
      have hOut := hBeside.out.trans (quietNoticed_kept (bodyKind a.body) s).2.1
      have hLine := hQuiet.line
      refine ⟨hLine.state.trans hState, hQuiet.queue.attempt hAttempt, hQuiet.queue.failCount.trans hFail, hLine.quiet.trans hTimer,
        hLine.beacon.trans hBeacon, hLine.alert.trans hAlert, hQuiet.peers, hQuiet.notice, fun hs hp => ?_, hQuiet.disturbed,
        fun r hr => ⟨hQuiet.slot r hr, fun hl => hQuiet.back r hr fun h => hl h.2, fun hl => hQuiet.last r ⟨hr, hl⟩,
          fun x hs hp hx hTarget => ⟨fun hl => ?_, fun hl hc hNot hOnly hExit => ?_⟩⟩⟩
      · rw [enterQuiet_of_ignored hs (.inl hp)]
        have hFallen (r : Resource) := quietTaken_of_noticed (hEach r)
        refine ⟨fun r hi => (hFallen r).1.trans (if_pos hi), fun r hi => (hFallen r).1.trans (if_neg (by rw [hi]; decide)),
          fun r hr => (hFallen r).2.2.1 hr, fun r hr => ?_, hSeq, hOut⟩
        by_cases hl : s.cfg.claims.maxTries ≤ (procOf s r).attempt
        · rw [if_neg (Nat.not_lt.2 hl)]
          exact ((hFallen r).2.2.2.2 ⟨hr, hl⟩).1
        · rw [if_pos (Nat.lt_of_not_le hl)]
          exact ((hFallen r).2.2.2.1 hr fun h => hl h.2).1
      · rw [enterQuiet_of_ignored hs (.inr ⟨x, hx, fun y hy h => hl (Option.some.inj (hTarget.symm.trans hy) ▸ h.2)⟩)]
        exact ⟨hSeq, hOut⟩
      · exact enterQuiet_abandoned hs (running_iff.2 ⟨hc, hNot⟩) hp hx hTarget ⟨hr, hl⟩ hOnly hExit

end Sys2Proof.Machine
end

section
/-! PROOF. The claim list: what a record entered, changed or refused leaves of the other records, and what a frame's capacity leaves of the
claims (R57, R58, R61 to R65, R81). -/

namespace Sys2Proof.Machine

section
variable {s t u : State} {a b : Nat} {r q : Resource}

/-! ## Records by their key (R60) -/

theorem hasKey_iff (c : ClaimRecord) : hasKey a r c = true ↔ c.addr = a ∧ c.res = r := by simp [hasKey]

theorem find_insertBy_of_other {α : Type} {p : α → Bool} {before : α → α → Bool} {e : α} (h : p e = false) (l : List α) :
    (insertBy before e l).find? p = l.find? p := by
  induction l with
  | nil => simp [insertBy, h]
  | cons c rest ih =>
    rw [insertBy]
    split
    · rw [List.find?_cons, h]
    · rw [List.find?_cons, List.find?_cons, ih]

theorem find_insertBy_of_new {α : Type} {p : α → Bool} {before : α → α → Bool} {e : α} (h : p e = true) {l : List α}
    (hl : l.find? p = none) : (insertBy before e l).find? p = some e := by
  induction l with
  | nil => simp [insertBy, h]
  | cons c rest ih =>
    have hc : p c = false := by simpa using List.find?_eq_none.1 hl c List.mem_cons_self
    have hRest : rest.find? p = none := by rwa [List.find?_cons, hc] at hl
    rw [insertBy]
    split
    · rw [List.find?_cons, h]
    · rw [List.find?_cons, hc]
      exact ih hRest

theorem find_filter_other {l : List ClaimRecord} (h : ¬(b = a ∧ q = r)) :
    (l.filter fun c => !hasKey a r c).find? (hasKey b q) = l.find? (hasKey b q) := by
  rw [List.find?_filter]
  refine congrArg (fun f => l.find? f) (funext fun c => ?_)
  by_cases hk : hasKey b q c = true
  · have hNot : hasKey a r c = false := by
      rw [Bool.eq_false_iff]
      intro hn
      obtain ⟨h1, h2⟩ := (hasKey_iff c).1 hk
      obtain ⟨h3, h4⟩ := (hasKey_iff c).1 hn
      exact h ⟨h1.symm.trans h3, h2.symm.trans h4⟩
    rw [hk, hNot]; rfl
  · rw [Bool.not_eq_true] at hk
    simp [hk]

theorem find_filter_same (l : List ClaimRecord) : (l.filter fun c => !hasKey a r c).find? (hasKey a r) = none := by
  rw [List.find?_eq_none]
  intro c hc
  have := (List.mem_filter.1 hc).2
  simpa using this

theorem hasKey_congr {c d : ClaimRecord} (h : d.addr = c.addr ∧ d.res = c.res) : hasKey a r d = hasKey a r c := by
  rw [hasKey, hasKey, h.1, h.2]

theorem findRecord_setClaimList (l : List ClaimRecord) (s : State) : findRecord (setClaimList l s) a r = l.find? (hasKey a r) := rfl

theorem findRecord_key {c : ClaimRecord} (h : findRecord s a r = some c) : c.addr = a ∧ c.res = r := (hasKey_iff c).1 (List.find?_some h)

/-- A record changed in place keeps its key, and no other record changes. -/
theorem findRecord_changeRecord {f : ClaimRecord → ClaimRecord} (hf : ∀ c, hasKey a r c = true → (f c).addr = c.addr ∧ (f c).res = c.res) :
    findRecord (changeRecord a r f s) b q = if b = a ∧ q = r then (findRecord s a r).map f else findRecord s b q := by
  have hKey (c : ClaimRecord) : hasKey b q (if hasKey a r c = true then f c else c) = hasKey b q c := by
    split
    next h => exact hasKey_congr (hf c h)
    · rfl
  have hFind : findRecord (changeRecord a r f s) b q
      = (findRecord s b q).map fun c => if hasKey a r c = true then f c else c := by
    unfold changeRecord
    rw [findRecord_setClaimList, List.find?_map]
    refine congrArg (fun p => (List.find? p s.claims.list).map _) (funext fun c => ?_)
    exact hKey c
  rw [hFind]
  by_cases h : b = a ∧ q = r
  · obtain ⟨rfl, rfl⟩ := h
    rw [if_pos ⟨rfl, rfl⟩]
    cases hc : findRecord s b q with
    | none => rfl
    | some c => rw [Option.map_some, if_pos ((hasKey_iff c).2 (findRecord_key hc)), Option.map_some]
  · rw [if_neg h]
    cases hc : findRecord s b q with
    | none => rfl
    | some c =>
      rw [Option.map_some, if_neg fun hn => h ?_]
      have hk := findRecord_key hc
      have hn' := (hasKey_iff c).1 hn
      exact ⟨hk.1.symm.trans hn'.1, hk.2.symm.trans hn'.2⟩

/-! ## A record created (R65) -/

theorem createRecord_of_room {e : ClaimRecord} {sender : Nat} (h : s.claims.list.length < 32) :
    createRecord e sender s = setClaimList (insertBy recordBefore e s.claims.list) s := if_pos h

theorem createRecord_of_victim {e v : ClaimRecord} {sender : Nat} (h : ¬s.claims.list.length < 32) (hv : victimIntent s = some v) :
    createRecord e sender s
      = setClaimList (insertBy recordBefore e (s.claims.list.filter fun c => !hasKey v.addr v.res c)) s := by
  refine (if_neg h).trans ?_
  rw [hv]

/-- A full list that gives nothing up: both own processes are disturbed, and the list is noticed full once (R65, R73). -/
def refused (sender : Nat) (s : State) : State :=
  if s.claims.fullMark = true then disturb s
  else post (.claimListFull sender) ((disturb s).setClaims { (disturb s).claims with fullMark := true })

theorem createRecord_of_full {e : ClaimRecord} {sender : Nat} (h : ¬s.claims.list.length < 32) (hv : victimIntent s = none) :
    createRecord e sender s = refused sender s := by
  refine (if_neg h).trans ?_
  rw [hv]
  rfl

theorem victimIntent_mem {v : ClaimRecord} (h : victimIntent s = some v) :
    v ∈ s.claims.list ∧ v.held = false ∧ v.addr ≠ ownAddr s := by
  obtain ⟨hMem, hKind⟩ := List.mem_filter.1 (firstBy_mem h)
  simp only [Bool.and_eq_true, Bool.not_eq_true', bne_iff_ne] at hKind
  exact ⟨hMem, hKind.1, hKind.2⟩

/-- The entry that stands before every other is the first. -/
theorem firstBy_of_first {α : Type} {before : α → α → Bool} {v : α} {l : List α} (hv : v ∈ l)
    (h : ∀ w ∈ l, w = v ∨ (before v w = true ∧ before w v = false)) : firstBy before l = some v := by
  induction l with
  | nil => cases hv
  | cons x rest ih =>
    have hRest : ∀ w ∈ rest, w = v ∨ (before v w = true ∧ before w v = false) := fun w hw => h w (List.mem_cons_of_mem x hw)
    rw [firstBy]
    by_cases hm : v ∈ rest
    · rw [ih hm hRest]
      dsimp only
      rcases h x List.mem_cons_self with hx | ⟨hx, -⟩
      · rw [hx]; split <;> rfl
      · rw [hx]; rfl
    · have hx : x = v := (List.mem_cons.1 hv).elim Eq.symm fun hm' => absurd hm' hm
      cases hf : firstBy before rest with
      | none => rw [hx]
      | some w =>
        have hw := firstBy_mem hf
        dsimp only
        rcases hRest w hw with hwv | ⟨-, hNot⟩
        · exact absurd (hwv ▸ hw) hm
        · rw [hx, hNot]; rfl

/-- The INTENT of another station whose sequence is earlier than all the others' is the one given up (R65, R66). -/
theorem victimIntent_of_earliest {v : ClaimRecord} (hv : v ∈ s.claims.list) (hHeld : v.held = false) (hOwn : v.addr ≠ ownAddr s)
    (hFirst : ∀ w ∈ s.claims.list, w.held = false → w.addr ≠ ownAddr s → w = v ∨ 2 ^ 31 < (v.seq - w.seq).toNat) :
    victimIntent s = some v := by
  refine firstBy_of_first (List.mem_filter.2 ⟨hv, by simp [hHeld, hOwn]⟩) fun w hw => ?_
  obtain ⟨hMem, hKind⟩ := List.mem_filter.1 hw
  simp only [Bool.and_eq_true, Bool.not_eq_true', bne_iff_ne] at hKind
  refine (hFirst w hMem hKind.1 hKind.2).imp id fun hLate => ⟨earlier_iff.2 (Nat.le_of_lt hLate), ?_⟩
  rw [Bool.eq_false_iff]
  intro hn
  have hBack := earlier_iff.1 hn
  have hSub : (w.seq - v.seq).toNat = 2 ^ 32 - (v.seq - w.seq).toNat := by
    have := (v.seq - w.seq).isLt
    bv_omega
  omega

theorem victimIntent_none (h : ∀ w ∈ s.claims.list, w.held = true ∨ w.addr = ownAddr s) : victimIntent s = none := by
  have hNil : s.claims.list.filter (fun c => !c.held && c.addr != ownAddr s) = [] := by
    rw [List.filter_eq_nil_iff]
    intro w hw
    rcases h w hw with h | h <;> simp [h]
  unfold victimIntent
  rw [hNil]
  rfl

/-! ## A record entered (R61, R62, R67) -/

/-- The record of a key is made, or changed where it exists. -/
def entered (a : Nat) (r : Resource) (f : ClaimRecord → ClaimRecord) (e : ClaimRecord) (s : State) : State :=
  if (findRecord s a r).isSome then changeRecord a r f s else createRecord e a s

/-- The record has room: the list is not full, or holds it already. -/
def HasPlace (a : Nat) (r : Resource) (s : State) : Prop := s.claims.list.length < 32 ∨ findRecord s a r ≠ none

/-- A change that keeps a record's key, and a new record that has it. -/
structure Keyed (a : Nat) (r : Resource) (f : ClaimRecord → ClaimRecord) (e : ClaimRecord) : Prop where
  changed : ∀ c, hasKey a r c = true → (f c).addr = c.addr ∧ (f c).res = c.res
  made : e.addr = a ∧ e.res = r

variable {f : ClaimRecord → ClaimRecord} {e : ClaimRecord}

theorem entered_of_some {c : ClaimRecord} (h : findRecord s a r = some c) : entered a r f e s = changeRecord a r f s :=
  if_pos (by rw [h]; rfl)

theorem entered_of_none (h : findRecord s a r = none) : entered a r f e s = createRecord e a s := if_neg (by rw [h]; decide)

theorem find_created (hKey : Keyed a r f e) (h : findRecord s a r = none) :
    (insertBy recordBefore e s.claims.list).find? (hasKey b q) = if b = a ∧ q = r then some e else findRecord s b q := by
  split
  next hk =>
    obtain ⟨rfl, rfl⟩ := hk
    exact find_insertBy_of_new ((hasKey_iff e).2 hKey.made) h
  next hk =>
    refine find_insertBy_of_other ?_ _
    rw [Bool.eq_false_iff]
    intro hn
    have hn' := (hasKey_iff e).1 hn
    exact hk ⟨hn'.1.symm.trans hKey.made.1, hn'.2.symm.trans hKey.made.2⟩

/-- A record that has a place changes the claim list alone, and there no other record. -/
theorem entered_of_place (hKey : Keyed a r f e) (h : HasPlace a r s) : ∃ l, entered a r f e s = setClaimList l s
    ∧ ∀ b q, l.find? (hasKey b q) = if b = a ∧ q = r then some (((findRecord s a r).map f).getD e) else findRecord s b q := by
  cases hc : findRecord s a r with
  | none =>
    rcases h with h | h
    · refine ⟨_, (entered_of_none hc).trans (createRecord_of_room h), fun b q => ?_⟩
      exact find_created hKey hc
    · exact absurd hc h
  | some c =>
    refine ⟨_, entered_of_some hc, fun b q => ?_⟩
    have hFind := findRecord_changeRecord (s := s) (b := b) (q := q) hKey.changed
    rw [hc] at hFind
    exact hFind

/-- A full list gives up an INTENT for the new record. -/
theorem entered_of_victim {v : ClaimRecord} (hKey : Keyed a r f e) (hFull : ¬s.claims.list.length < 32)
    (hNew : findRecord s a r = none) (hv : victimIntent s = some v) : ∃ l, entered a r f e s = setClaimList l s
      ∧ l.find? (hasKey a r) = some e ∧ l.find? (hasKey v.addr v.res) = none
      ∧ ∀ b q, ¬(b = a ∧ q = r) → ¬(b = v.addr ∧ q = v.res) → l.find? (hasKey b q) = findRecord s b q := by
  have hMem := (victimIntent_mem hv).1
  have hOther : ¬(v.addr = a ∧ v.res = r) := fun hk => by
    have := hasKey_false_of_findRecord hNew hMem
    rw [(hasKey_iff v).2 hk] at this
    cases this
  have hEntry {b : Nat} {q : Resource} (h : ¬(b = a ∧ q = r)) : hasKey b q e = false := by
    rw [Bool.eq_false_iff]
    intro hn
    have hn' := (hasKey_iff e).1 hn
    exact h ⟨hn'.1.symm.trans hKey.made.1, hn'.2.symm.trans hKey.made.2⟩
  refine ⟨_, (entered_of_none hNew).trans (createRecord_of_victim hFull hv), ?_, ?_, fun b q hk hk' => ?_⟩
  · refine find_insertBy_of_new ((hasKey_iff e).2 hKey.made) ?_
    rw [find_filter_other fun h => hOther ⟨h.1.symm, h.2.symm⟩]
    exact hNew
  · rw [find_insertBy_of_other (hEntry hOther)]
    exact find_filter_same _
  · rw [find_insertBy_of_other (hEntry hk), find_filter_other hk']
    rfl

theorem entered_of_full (hFull : ¬s.claims.list.length < 32) (hNew : findRecord s a r = none) (hv : victimIntent s = none) :
    entered a r f e s = refused a s := (entered_of_none hNew).trans (createRecord_of_full hFull hv)

/-- The record an INTENT makes (R61). -/
def intentEntry (a : Nat) (n : Word32) (r : Resource) (amount cls cap : Nat) (now : Time) : ClaimRecord :=
  { addr := a, res := r, amount := amount, held := false, cls := cls, seq := n, capacity := some cap, refreshed := now }

/-- The record a HELD frame makes where none is listed (R62). -/
def heldEntry (a : Nat) (n : Word32) (r : Resource) (amount cap : Nat) (now : Time) : ClaimRecord :=
  { addr := a, res := r, amount := amount, held := true, cls := 0, seq := n, capacity := some cap, refreshed := now }

/-- A record as a HELD frame changes it (R62). -/
def heldChange (amount cap : Nat) (now : Time) (c : ClaimRecord) : ClaimRecord :=
  { c with held := true, amount := amount, capacity := some cap, refreshed := now }

theorem listIntent_eq (n : Word32) (amount cls cap : Nat) : listIntent a n r amount cls cap s
    = entered a r (fun _ => intentEntry a n r amount cls cap s.now) (intentEntry a n r amount cls cap s.now) s := rfl

theorem listHeld_eq (n : Word32) (amount cap : Nat) :
    listHeld a n r amount cap s = entered a r (heldChange amount cap s.now) (heldEntry a n r amount cap s.now) s := rfl

theorem intentEntry_keyed (n : Word32) (amount cls cap : Nat) (now : Time) :
    Keyed a r (fun _ => intentEntry a n r amount cls cap now) (intentEntry a n r amount cls cap now) :=
  ⟨fun c hc => ⟨((hasKey_iff c).1 hc).1.symm, ((hasKey_iff c).1 hc).2.symm⟩, rfl, rfl⟩

theorem heldEntry_keyed (n : Word32) (amount cap : Nat) (now : Time) :
    Keyed a r (heldChange amount cap now) (heldEntry a n r amount cap now) := ⟨fun _ _ => ⟨rfl, rfl⟩, rfl, rfl⟩

/-! ## What stands beside the claim list -/

/-- The capacities, the mismatches noted, the fire set and the freeze stand, and the processes but for their disturbed flags. -/
structure Relisted (s t : State) : Prop where
  capacity : t.claims.capacity = s.claims.capacity
  mismatch : t.claims.mismatch = s.claims.mismatch
  fireSet : t.claims.fireSet = s.claims.fireSet
  freeze : t.claims.freeze = s.claims.freeze
  proc : ∀ x, ∃ d, procOf t x = { procOf s x with disturbed := d }

theorem Relisted.refl (s : State) : Relisted s s := ⟨rfl, rfl, rfl, rfl, fun _ => ⟨_, rfl⟩⟩

theorem Relisted.trans (h : Relisted s t) (h' : Relisted t u) : Relisted s u := by
  refine ⟨h'.capacity.trans h.capacity, h'.mismatch.trans h.mismatch, h'.fireSet.trans h.fireSet, h'.freeze.trans h.freeze,
    fun x => ?_⟩
  obtain ⟨d, hd⟩ := h.proc x
  obtain ⟨d', hd'⟩ := h'.proc x
  exact ⟨d', by rw [hd', hd]⟩

theorem Relisted.state (h : Relisted s t) (x : Resource) : (procOf t x).state = (procOf s x).state := by
  obtain ⟨d, hd⟩ := h.proc x
  rw [hd]

theorem setClaimList_relisted (l : List ClaimRecord) (s : State) : Relisted s (setClaimList l s) := ⟨rfl, rfl, rfl, rfl, fun _ => ⟨_, rfl⟩⟩

theorem disturb_relisted (s : State) : Relisted s (disturb s) := ⟨rfl, rfl, rfl, rfl, fun x => ⟨true, procOf_disturb s x⟩⟩

theorem refused_relisted (sender : Nat) (s : State) : Relisted s (refused sender s) := by
  unfold refused
  split
  · exact disturb_relisted s
  · exact (disturb_relisted s).trans ⟨rfl, rfl, rfl, rfl, fun x => ⟨_, rfl⟩⟩

theorem createRecord_relisted (e : ClaimRecord) (sender : Nat) (s : State) : Relisted s (createRecord e sender s) := by
  by_cases hRoom : s.claims.list.length < 32
  · rw [createRecord_of_room hRoom]; exact setClaimList_relisted _ s
  · cases hv : victimIntent s with
    | none => rw [createRecord_of_full hRoom hv]; exact refused_relisted sender s
    | some v => rw [createRecord_of_victim hRoom hv]; exact setClaimList_relisted _ s

theorem entered_relisted (a : Nat) (r : Resource) (f : ClaimRecord → ClaimRecord) (e : ClaimRecord) (s : State) :
    Relisted s (entered a r f e s) := by
  unfold entered
  split
  · exact setClaimList_relisted _ s
  · exact createRecord_relisted e a s

/-! ## What a full list leaves -/

theorem refused_list (sender : Nat) (s : State) : (refused sender s).claims.list = s.claims.list := by unfold refused; split <;> rfl

theorem refused_fullMark (sender : Nat) (s : State) : (refused sender s).claims.fullMark = true := by
  unfold refused
  split
  next h => exact h
  · rfl

theorem refused_disturbed (sender : Nat) (s : State) (x : Resource) : (procOf (refused sender s) x).disturbed = true := by
  unfold refused
  have h : procOf (disturb s) x = { procOf s x with disturbed := true } := procOf_disturb s x
  split
  · rw [h]
  · exact congrArg Process.disturbed h

theorem refused_port (sender : Nat) (s : State) : (refused sender s).port
    = if s.claims.fullMark = true then s.port else (post (.claimListFull sender) s).port := by
  unfold refused
  split <;> rfl

end

end Sys2Proof.Machine
end

section
/-! PROOF. Claim frames of other stations (O51): the capacity they carry, the record they enter, and the overcommit check that follows
(R57, R58, R61 to R65, R81). -/

namespace Sys2Proof.Machine

section
variable {s t u v w : State} {a b : Nat} {r q : Resource}

/-! ## Notices in the order they are posted (R208) -/

theorem notices_post_of_quiet {b : NoticeBody} (hb : noticeClass b ≠ .fault) (s : State) : ∃ rest,
    (post b s).port.notices = s.port.notices ++ rest ∧ ∀ n ∈ rest, n.body = b := by
  have hShow : (post b s).port.notices = (queueNotice s.port.notices s.port.overflow (noticeNow b s)).1 := rfl
  rw [hShow]
  unfold queueNotice
  split
  · exact ⟨_, rfl, fun n hn => by rw [List.mem_singleton.1 hn]; rfl⟩
  · rw [if_neg (show (noticeNow b s).cls ≠ .fault from hb)]
    exact ⟨[], (List.append_nil _).symm, fun _ hn => absurd hn List.not_mem_nil⟩

/-- Notices that are no FAULT join the end of the queue, or are dropped (R208). -/
theorem Posts.appends {P : NoticeBody → Prop} (hP : ∀ b, P b → noticeClass b ≠ .fault) (h : Posts P s t) :
    ∃ rest, t.port.notices = s.port.notices ++ rest ∧ ∀ n ∈ rest, P n.body := by
  obtain ⟨l, hl, hPort, -⟩ := h
  rw [hPort]
  clear hPort
  induction l generalizing s with
  | nil => exact ⟨[], (List.append_nil _).symm, fun _ hn => absurd hn List.not_mem_nil⟩
  | cons b rest ih =>
    obtain ⟨first, hFirst, hBodies⟩ := notices_post_of_quiet (hP b (hl b List.mem_cons_self)) s
    obtain ⟨more, hMore, hRest⟩ := ih (s := Machine.post b s) fun c hc => hl c (List.mem_cons_of_mem b hc)
    refine ⟨first ++ more, ?_, fun n hn => (List.mem_append.1 hn).elim (fun h => ?_) (hRest n)⟩
    · show (postAll rest (Machine.post b s)).port.notices = _
      rw [hMore, hFirst, List.append_assoc]
    · rw [hBodies n h]
      exact hl b List.mem_cons_self

/-- Every notice that was not queued before is of a kind posted. -/
theorem Posts.new {P : NoticeBody → Prop} (hP : ∀ b, P b → noticeClass b ≠ .fault) (h : Posts P s t) :
    ∀ n ∈ t.port.notices, n ∈ s.port.notices ∨ P n.body := by
  obtain ⟨rest, hRest, hBodies⟩ := h.appends hP
  rw [hRest]
  exact fun n hn => (List.mem_append.1 hn).imp id (hBodies n)

theorem Posts.now {P : NoticeBody → Prop} (h : Posts P s t) : t.now = s.now := by
  obtain ⟨-, -, -, hNow⟩ := h
  exact hNow

/-! ## Reports of the Claim Unit post the Sequencer's notices alone -/

theorem enterWaitOrRamp_posts (m : Mode) (f : Bool) (s : State) : Posts SequencerPosts s (enterWaitOrRamp m f s) :=
  .ite (.of_port (enterRamping_port m s) (enterRamping_now m s)) (.of_port (setPhase_port ..) (setPhase_now ..))

theorem takeClaimReport_posts (x : ClaimReport) (s : State) : Posts SequencerPosts s (takeClaimReport x s) := by
  unfold takeClaimReport
  refine .ite (.refl s) ?_
  dsimp only
  cases x with
  | granted r =>
    dsimp only
    split
    · exact enterWaitOrRamp_posts _ _ s
    · exact .refl s
  | starved r =>
    dsimp only
    split
    · exact abandon_posts _ s
    · exact .refl s
  | yielding r cause =>
    cases cause with
    | overcommit => exact forceLeave_posts _ s
    | clash => exact .refl s
  | starvedEnd r => exact startTest_posts s

theorem reported_posts (x : Reported) : Posts SequencerPosts x.1 (settleRamps (reported x)) := by
  have hAll (l : List ClaimReport) (s : State) : Posts SequencerPosts s (takeClaimReports l s) := by
    induction l generalizing s with
    | nil => exact .refl s
    | cons c rest ih => exact (takeClaimReport_posts c s).trans (ih _)
  exact (hAll x.2 x.1).trans (settleRamps_posts _)

theorem reported_works_settled (x : Reported) : Works x.1 (settleRamps (reported x)) := settleRamps_works (reported_works .refl)

theorem reported_of_none (hs : completionDue s = false) : settleRamps (reported (s, [])) = s := settleRamps_of_not_due hs

/-! ## What an operation on the claims leaves of the other blocks -/

/-- The parts that an operation on the claims which posts notices can change. -/
def Part.listing : Part → Bool := fun p => p == .claims || p == .notices

/-- What stands of the state while the claims change and notices are posted. -/
structure ClaimsAlone (s t : State) : Prop where
  seq : t.seq = s.seq
  out : t.out = s.out
  peers : t.peers = s.peers
  cfg : t.cfg = s.cfg
  now : t.now = s.now
  link : t.link = s.link
  decision : t.decision = s.decision
  band : t.band = s.band
  running : running t = running s

theorem claimsAlone_of_acts (h : Acts Part.listing s t) : ClaimsAlone s t :=
  ⟨h.seq_eq rfl, h.out_eq rfl, h.peers_eq rfl, h.cfg, h.now, h.link_eq rfl rfl, h.decision_eq rfl, h.band_eq rfl,
    by rw [Machine.running, Machine.running, h.closed, h.restarting_eq rfl]⟩

theorem takeClaimFrame_alone (a : Nat) (n : Word32) (m : ClaimMsg) (s : State) : ClaimsAlone s (takeClaimFrame a n m s).1 :=
  claimsAlone_of_acts (takeClaimFrame_acts a n m .refl rfl rfl)

theorem ClaimsAlone.completionDue (h : ClaimsAlone s t) (hs : completionDue s = false) : completionDue t = false :=
  (completionDue_congr h.cfg h.out).trans hs

/-! ## The overcommit check (R81) -/

/-- A process that yields by the overcommit check, with its notice. -/
def yielded (r : Resource) (s : State) : State :=
  post (.overcommitYield r) (setProc r { procOf s r with state := .yielding, cause := some .overcommit } s)

theorem yieldProc_eq (r : Resource) (s : State) : yieldProc r s = (yielded r s, [.yielding r .overcommit]) := rfl

theorem overcommitCheck_cases (r : Resource) (s : State) :
    ((procOf s r).state = .held ∧ withinRun s r = false ∧ overcommitCheck r s = (yielded r s, [.yielding r .overcommit]))
      ∨ (((procOf s r).state ≠ .held ∨ withinRun s r = true) ∧ overcommitCheck r s = (s, [])) := by
  by_cases h : (procOf s r).state = .held ∧ withinRun s r = false
  · exact .inl ⟨h.1, h.2, overcommitCheck_of_outside h.1 h.2⟩
  · have h' : (procOf s r).state ≠ .held ∨ withinRun s r = true := by
      by_cases hs : (procOf s r).state = .held
      · exact .inr (by simpa using fun hw => h ⟨hs, hw⟩)
      · exact .inl hs
    exact .inr ⟨h', overcommitCheck_of_inside h'⟩

theorem procOf_yielded (r : Resource) (s : State) (x : Resource) : procOf (yielded r s) x
    = if x = r then { procOf s r with state := .yielding, cause := some .overcommit } else procOf s x := by
  unfold yielded
  rw [procOf_post, procOf_setProc]

/-- The notices of the Claim Unit's own work on the list: OVERCOMMIT_YIELD and CLAIM_LIST_FULL. -/
def ClaimPosts (b : NoticeBody) : Prop := (∃ r, b = .overcommitYield r) ∨ ∃ a, b = .claimListFull a

/-- Two states with the same claim list, capacities, fire set and freeze, and the same disturbed flags. -/
structure Alike (s t : State) : Prop where
  list : t.claims.list = s.claims.list
  capacity : t.claims.capacity = s.claims.capacity
  mismatch : t.claims.mismatch = s.claims.mismatch
  fullMark : t.claims.fullMark = s.claims.fullMark
  fireSet : t.claims.fireSet = s.claims.fireSet
  freeze : t.claims.freeze = s.claims.freeze
  disturbed : ∀ x, (procOf t x).disturbed = (procOf s x).disturbed
  cfg : t.cfg = s.cfg
  posts : Posts ClaimPosts s t

theorem Alike.refl (s : State) : Alike s s := ⟨rfl, rfl, rfl, rfl, rfl, rfl, fun _ => rfl, rfl, .refl s⟩

theorem Alike.trans (h : Alike s t) (h' : Alike t u) : Alike s u :=
  ⟨h'.list.trans h.list, h'.capacity.trans h.capacity, h'.mismatch.trans h.mismatch, h'.fullMark.trans h.fullMark,
    h'.fireSet.trans h.fireSet, h'.freeze.trans h.freeze, fun x => (h'.disturbed x).trans (h.disturbed x), h'.cfg.trans h.cfg,
    h.posts.trans h'.posts⟩

theorem yielded_alike (r : Resource) (s : State) : Alike s (yielded r s) := by
  have hSet : Posts ClaimPosts s (setProc r { procOf s r with state := .yielding, cause := some .overcommit } s) := .of_port rfl rfl
  refine ⟨rfl, rfl, rfl, rfl, rfl, rfl, fun x => ?_, rfl, hSet.trans (.post (.inl ⟨r, rfl⟩) _)⟩
  rw [procOf_yielded]
  split
  next h => rw [h]
  · rfl

theorem overcommitCheck_alike (r : Resource) (s : State) : Alike s (overcommitCheck r s).1 := by
  rcases overcommitCheck_cases r s with ⟨-, -, h⟩ | ⟨-, h⟩
  · rw [h]; exact yielded_alike r s
  · rw [h]; exact .refl s

theorem checkEntered_alike (a : Nat) (r : Resource) (s : State) : Alike s (checkEntered a r s).1 := by
  unfold checkEntered
  split
  · exact overcommitCheck_alike r s
  · exact .refl s

theorem checkEntered_of_held {c : ClaimRecord} (h : findRecord s a r = some c) (hc : c.held = true) :
    checkEntered a r s = overcommitCheck r s := if_pos (by rw [h, ← hc]; rfl)

theorem checkEntered_of_none (h : findRecord s a r = none) : checkEntered a r s = (s, []) := if_neg (by rw [h]; exact nofun)

theorem withinRun_congr (hList : t.claims.list = s.claims.list) (hEff : effective t r = effective s r) (hCfg : t.cfg = s.cfg) :
    withinRun t r = withinRun s r := by
  unfold withinRun heldOrder ownAddr
  rw [hList, hEff, hCfg]

theorem yielded_posted (hRoom : HasRoom s) : Posted (.overcommitYield r) s (yielded r s) :=
  posted_post_after (u := setProc r _ s) rfl rfl hRoom _

/-! ## A claim that yields forces its mode out (R49, R81) -/

theorem takeYielding_eq {mode : Mode} (hRun : running w = true) (hMode : claimFor mode = some r) :
    takeClaimReport (.yielding r .overcommit) w = forceLeave mode w := by
  have hAdmit : ¬(!running w) = true := by rw [hRun]; decide
  cases mode with
  | free => cases hMode; exact if_neg hAdmit
  | defrost => cases hMode; exact if_neg hAdmit
  | safe | recover | neutral => cases hMode

/-- The report of a claim that yields, in a station SETTLED in the mode that uses it: the forced ramp starts, and no claim changes. -/
theorem yield_forcesOut {mode d : Mode} (hSeq : w.seq = s.seq) (hOut : w.out = s.out) (hCfg : w.cfg = s.cfg)
    (hDecision : w.decision = s.decision) (hRun : running w = true) (hMode : claimFor mode = some r)
    (hp : s.seq.phase = some .settled) (hm : s.seq.mode = some mode) (hFree : s.seq.forcedPending = none)
    (hd : s.decision.last.desired = some d) (hNot : d ≠ .defrost)
    (hAway : RampsAway s (rampSet s.cfg s.decision.last (leaveTarget mode d))) :
    ForcedOut (leaveTarget mode d) s (settleRamps (reported (w, [.yielding r .overcommit])))
      ∧ (settleRamps (reported (w, [.yielding r .overcommit]))).claims = w.claims := by
  have hTaken : reported (w, [.yielding r .overcommit]) = leaveNow mode w := by
    show takeClaimReport (.yielding r .overcommit) w = _
    rw [takeYielding_eq hRun hMode, forceLeave_of_settled hRun (by rw [hSeq]; exact hFree) (by rw [hSeq]; exact hp), if_pos (by rw [hSeq]; exact hm)]
  have hTarget : forcedTarget w mode = leaveTarget mode d := forcedTarget_eq mode (by rw [hDecision]; exact hd) hNot
  have hModeW : w.seq.mode = some mode := by rw [hSeq]; exact hm
  have hDue : completionDue (leaveNow mode w) = false := by
    refine leaveNow_completionDue hModeW ?_
    rw [hTarget, hCfg, hDecision]
    exact RampsAway.congr hCfg hOut hAway
  have hForced := leaveNow_forcedOut (s := s) hModeW (by rw [hSeq]; rfl) hOut hCfg hDecision
  rw [hTarget] at hForced
  rw [hTaken, settleRamps_of_not_due hDue]
  refine ⟨hForced, ?_⟩
  rw [leaveNow_of_mode hModeW, enterRamping_claims]
  rfl

/-! ## The capacity a frame carries (R57, R58) -/

/-- The state as a frame's capacity leaves it, before the overcommit check. -/
def capacityTaken (r : Resource) (cap a : Nat) (s : State) : State :=
  if capacityOk r cap = true then
    if cap < effective s r then
      (noteMismatch r cap a s).setClaims
        { (noteMismatch r cap a s).claims with capacity := resSet (noteMismatch r cap a s).claims.capacity r (some cap) }
    else noteMismatch r cap a s
  else s

/-- A capacity that falls short of the configured one and was not noted before (R58). -/
def Mismatched (r : Resource) (cap : Nat) (s : State) : Prop :=
  cap < ownCapacity s.cfg r ∧ cap ∉ resGet s.claims.mismatch r ∧ (resGet s.claims.mismatch r).length < 8

/-- A frame's capacity is valid and lower than the effective one. -/
def Falls (r : Resource) (cap : Nat) (s : State) : Prop := capacityOk r cap = true ∧ cap < effective s r

theorem capacityOk_iff (r : Resource) (cap : Nat) : capacityOk r cap = true ↔ 1 ≤ cap ∧ cap ≤ (if r = .relief then 4095 else 4) := by
  cases r <;> simp [capacityOk]

theorem noteMismatch_of_wrong {cap : Nat} (h : Mismatched r cap s) : noteMismatch r cap a s = post (.capacityMismatch r a)
    (s.setClaims { s.claims with mismatch := resSet s.claims.mismatch r (resGet s.claims.mismatch r ++ [cap]) }) := by
  obtain ⟨h1, h2, h3⟩ := h
  exact if_pos (by simp [h1, h2, h3])

theorem noteMismatch_of_right {cap : Nat} (h : ¬Mismatched r cap s) : noteMismatch r cap a s = s := by
  refine if_neg fun hn => h ?_
  simpa [Mismatched, and_assoc] using hn

/-- What the capacity leaves of the claims. -/
structure CapacityTaken (r : Resource) (cap a : Nat) (s t : State) : Prop where
  list : t.claims.list = s.claims.list
  proc : t.claims.proc = s.claims.proc
  fullMark : t.claims.fullMark = s.claims.fullMark
  cfg : t.cfg = s.cfg
  now : t.now = s.now
  falls : Falls r cap s → t.claims.capacity = resSet s.claims.capacity r (some cap)
  stands : ¬Falls r cap s → t.claims.capacity = s.claims.capacity
  wrong : capacityOk r cap = true → Mismatched r cap s →
    t.claims.mismatch = resSet s.claims.mismatch r (resGet s.claims.mismatch r ++ [cap])
      ∧ t.port = (post (.capacityMismatch r a) s).port
  right : ¬(capacityOk r cap = true ∧ Mismatched r cap s) → t.claims.mismatch = s.claims.mismatch ∧ t.port = s.port

theorem capacityTaken_taken (r : Resource) (cap a : Nat) (s : State) : CapacityTaken r cap a s (capacityTaken r cap a s) := by
  unfold capacityTaken
  by_cases hOk : capacityOk r cap = true
  · rw [if_pos hOk]
    by_cases hWrong : Mismatched r cap s
    · rw [noteMismatch_of_wrong hWrong]
      split
      next hf =>
        exact ⟨rfl, rfl, rfl, rfl, rfl, fun _ => rfl, fun h => absurd ⟨hOk, hf⟩ h, fun _ _ => ⟨rfl, rfl⟩,
          fun h => absurd ⟨hOk, hWrong⟩ h⟩
      next hf =>
        exact ⟨rfl, rfl, rfl, rfl, rfl, fun h => absurd h.2 hf, fun _ => rfl, fun _ _ => ⟨rfl, rfl⟩,
          fun h => absurd ⟨hOk, hWrong⟩ h⟩
    · rw [noteMismatch_of_right hWrong]
      split
      next hf =>
        exact ⟨rfl, rfl, rfl, rfl, rfl, fun _ => rfl, fun h => absurd ⟨hOk, hf⟩ h, fun _ h => absurd h hWrong, fun _ => ⟨rfl, rfl⟩⟩
      next hf =>
        exact ⟨rfl, rfl, rfl, rfl, rfl, fun h => absurd h.2 hf, fun _ => rfl, fun _ h => absurd h hWrong, fun _ => ⟨rfl, rfl⟩⟩
  · rw [if_neg hOk]
    exact ⟨rfl, rfl, rfl, rfl, rfl, fun h => absurd h.1 hOk, fun _ => rfl, fun h => absurd h hOk, fun _ => ⟨rfl, rfl⟩⟩

theorem effective_noteMismatch (r : Resource) (cap a : Nat) (s : State) : effective (noteMismatch r cap a s) r = effective s r := by
  by_cases h : Mismatched r cap s
  · rw [noteMismatch_of_wrong h]; rfl
  · rw [noteMismatch_of_right h]

theorem takeCapacity_of_fall {cap : Nat} (h : Falls r cap s) :
    takeCapacity r cap a s = overcommitCheck r (capacityTaken r cap a s) := by
  unfold takeCapacity capacityTaken
  rw [if_neg (by rw [h.1]; decide), if_pos h.1, if_pos h.2]
  exact if_pos (by rw [effective_noteMismatch]; exact h.2)

theorem takeCapacity_of_none {cap : Nat} (h : ¬Falls r cap s) : takeCapacity r cap a s = (capacityTaken r cap a s, []) := by
  unfold takeCapacity capacityTaken
  by_cases hOk : capacityOk r cap = true
  · have hNot : ¬cap < effective s r := fun hf => h ⟨hOk, hf⟩
    rw [if_neg (by rw [hOk]; decide), if_pos hOk, if_neg hNot]
    exact if_neg (by rw [effective_noteMismatch]; exact hNot)
  · rw [if_pos (by simpa using hOk), if_neg hOk]
    rfl

theorem takeCapacity_alike (r : Resource) (cap a : Nat) (s : State) : Alike (capacityTaken r cap a s) (takeCapacity r cap a s).1 := by
  by_cases h : Falls r cap s
  · rw [takeCapacity_of_fall h]; exact overcommitCheck_alike r _
  · rw [takeCapacity_of_none h]; exact .refl _

/-- The effective capacity after a frame's capacity is taken (R57). -/
theorem CapacityTaken.effective {cap : Nat} (h : CapacityTaken r cap a s t) :
    (Falls r cap s → effective t r = cap) ∧ (¬Falls r cap s → effective t r = effective s r) := by
  refine ⟨fun hf => ?_, fun hf => ?_⟩
  · rw [Machine.effective, h.falls hf, resGet_resSet, if_pos rfl]; rfl
  · rw [Machine.effective, h.stands hf]; rfl

/-! ## An INTENT or a HELD frame (R61, R62) -/

/-- The change of the list that an INTENT or a HELD frame makes, with the resource and the capacity it carries. -/
inductive Enters (a : Nat) (n : Word32) (now : Time) : ClaimMsg → Resource → Nat → Nat → (ClaimRecord → ClaimRecord) → ClaimRecord → Prop
  | intent (r : Resource) (amount cls k cap : Nat) : Enters a n now (.intent r amount cls k cap) r cap amount
      (fun _ => intentEntry a n r amount cls cap now) (intentEntry a n r amount cls cap now)
  | held (r : Resource) (amount cap : Nat) : Enters a n now (.held r amount cap) r cap amount
      (heldChange amount cap now) (heldEntry a n r amount cap now)

variable {m : ClaimMsg} {n : Word32} {cap amount : Nat} {now : Time} {f : ClaimRecord → ClaimRecord} {e : ClaimRecord}

theorem Enters.keyed (h : Enters a n now m r cap amount f e) : Keyed a r f e := by
  cases h with
  | intent => exact intentEntry_keyed ..
  | held => exact heldEntry_keyed ..

theorem Enters.made (h : Enters a n now m r cap amount f e) : e.amount = amount ∧ e.seq = n := by cases h <;> exact ⟨rfl, rfl⟩

theorem takeCapacity_now (r : Resource) (cap a : Nat) (s : State) : (takeCapacity r cap a s).1.now = s.now :=
  (takeCapacity_alike r cap a s).posts.now.trans (capacityTaken_taken r cap a s).now

/-- The state a frame leaves is that of its record entered, but for a process that yields. -/
theorem Enters.alike (h : Enters a n s.now m r cap amount f e) :
    Alike (entered a r f e (takeCapacity r cap a s).1) (takeClaimFrame a n m s).1 := by
  cases h with
  | intent _ _ cls k _ =>
    show Alike _ (listIntent a n r amount cls cap (takeCapacity r cap a s).1)
    rw [listIntent_eq, takeCapacity_now]
    exact .refl _
  | held =>
    show Alike _ (checkEntered a r (listHeld a n r amount cap (takeCapacity r cap a s).1)).1
    rw [listHeld_eq, takeCapacity_now]
    exact checkEntered_alike a r _

theorem refused_posts (a : Nat) (s : State) : Posts ClaimPosts s (refused a s) := by
  unfold refused
  have hMark : Posts ClaimPosts s ((disturb s).setClaims { (disturb s).claims with fullMark := true }) := .of_port rfl rfl
  exact .ite (.of_port rfl rfl) (hMark.trans (.post (.inr ⟨a, rfl⟩) _))

theorem entered_posts (a : Nat) (r : Resource) (f : ClaimRecord → ClaimRecord) (e : ClaimRecord) (s : State) :
    Posts ClaimPosts s (entered a r f e s) := by
  have hList (l : List ClaimRecord) : Posts ClaimPosts s (setClaimList l s) := .of_port rfl rfl
  unfold entered
  refine .ite (hList _) ?_
  by_cases hRoom : s.claims.list.length < 32
  · rw [createRecord_of_room hRoom]; exact hList _
  · cases hv : victimIntent s with
    | none => rw [createRecord_of_full hRoom hv]; exact refused_posts a s
    | some v => rw [createRecord_of_victim hRoom hv]; exact hList _

/-- The notices of a claim frame's work but for its mismatch. -/
def FramePosts (b : NoticeBody) : Prop := ClaimPosts b ∨ SequencerPosts b

theorem framePosts_quiet (b : NoticeBody) (h : FramePosts b) : noticeClass b ≠ .fault := by
  obtain (⟨x, rfl⟩ | ⟨x, rfl⟩) | (⟨x, rfl⟩ | ⟨x, rfl⟩) := h <;> exact nofun

theorem framePosts_no_mismatch {x : Resource} {a : Nat} (b : NoticeBody) (h : FramePosts b) : b ≠ .capacityMismatch x a := by
  obtain (⟨x, rfl⟩ | ⟨x, rfl⟩) | (⟨x, rfl⟩ | ⟨x, rfl⟩) := h <;> exact nofun

/-! ## What an INTENT or a HELD frame of another station leaves -/

/-- The claims and the notices after a frame that enters a record. -/
structure FrameTaken (a : Nat) (r : Resource) (cap : Nat) (f : ClaimRecord → ClaimRecord) (e : ClaimRecord) (s t : State) : Prop where
  place : HasPlace a r s → ∀ b q, b ≠ ownAddr s →
    findRecord t b q = if b = a ∧ q = r then some (((findRecord s a r).map f).getD e) else findRecord s b q
  victim : ∀ v, ¬s.claims.list.length < 32 → findRecord s a r = none → a ≠ ownAddr s → victimIntent s = some v →
    findRecord t a r = some e ∧ findRecord t v.addr v.res = none
      ∧ ∀ b q, b ≠ ownAddr s → ¬(b = v.addr ∧ q = v.res) → ¬(b = a ∧ q = r) → findRecord t b q = findRecord s b q
  full : ¬s.claims.list.length < 32 → findRecord s a r = none → victimIntent s = none →
    (∀ b q, b ≠ ownAddr s → findRecord t b q = findRecord s b q) ∧ ∀ x, (procOf t x).disturbed = true
  falls : Falls r cap s → effective t r = cap
  stands : ¬Falls r cap s → effective t r = effective s r
  wrong : capacityOk r cap = true → Mismatched r cap s →
    t.claims.mismatch = resSet s.claims.mismatch r (resGet s.claims.mismatch r ++ [cap])
      ∧ Posts FramePosts (post (.capacityMismatch r a) s) t
  right : ¬(capacityOk r cap = true ∧ Mismatched r cap s) → t.claims.mismatch = s.claims.mismatch ∧ Posts FramePosts s t

theorem hasPlace_congr (h : t.claims.list = s.claims.list) : HasPlace a r t ↔ HasPlace a r s := by
  unfold HasPlace
  rw [h, findRecord_congr h]

theorem victimIntent_congr (h : t.claims.list = s.claims.list) (hCfg : t.cfg = s.cfg) : victimIntent t = victimIntent s := by
  unfold victimIntent ownAddr
  rw [h, hCfg]

theorem Posts.from_port {P : NoticeBody → Prop} (hPort : t.port = s.port) (hNow : t.now = s.now) (h : Posts P t u) : Posts P s u :=
  Posts.trans (.of_port hPort hNow) h

theorem effective_congr (h : t.claims.capacity = s.claims.capacity) (x : Resource) : effective t x = effective s x := by
  unfold effective
  rw [h]

theorem frame_taken (h : Enters a n s.now m r cap amount f e) :
    FrameTaken a r cap f e s (settleRamps (reported (takeClaimFrame a n m s))) := by
  have hCapacity := capacityTaken_taken r cap a s
  have hBefore := takeCapacity_alike r cap a s
  have hEntered := entered_relisted a r f e (takeCapacity r cap a s).1
  have hEnteredPosts := entered_posts a r f e (takeCapacity r cap a s).1
  have hAfter := h.alike
  have hWorks := reported_works_settled (takeClaimFrame a n m s)
  have hReports := reported_posts (takeClaimFrame a n m s)
  have hCfgFrame := (takeClaimFrame_alone a n m s).cfg
  have hPostsAll : Posts FramePosts (capacityTaken r cap a s) (settleRamps (reported (takeClaimFrame a n m s))) :=
    ((hBefore.posts.trans (hEnteredPosts.trans hAfter.posts)).mono fun _ => .inl).trans (hReports.mono fun _ => .inr)
  have hKey := h.keyed
  have hOwn : ownAddr (takeClaimFrame a n m s).1 = ownAddr s := by unfold ownAddr; rw [hCfgFrame]
  have hOthers := hWorks.sameClaims.others
  rw [hOwn] at hOthers
  have hDisturbed := hWorks.sameClaims.disturbed
  have hEffective := effective_congr hWorks.sameClaims.capacity r
  have hMismatch := hWorks.sameClaims.mismatch
  generalize settleRamps (reported (takeClaimFrame a n m s)) = t at *
  generalize (takeClaimFrame a n m s).1 = w at *
  generalize (takeCapacity r cap a s).1 = u at *
  have hList : u.claims.list = s.claims.list := hBefore.list.trans hCapacity.list
  have hCfg : u.cfg = s.cfg := hBefore.cfg.trans hCapacity.cfg
  have hRecord (b : Nat) (q : Resource) (hb : b ≠ ownAddr s) : findRecord t b q = findRecord (entered a r f e u) b q :=
    (hOthers b q hb).trans (findRecord_congr hAfter.list b q)
  have hCapacityKept : effective t r = effective (capacityTaken r cap a s) r :=
    hEffective.trans (effective_congr (hAfter.capacity.trans (hEntered.capacity.trans hBefore.capacity)) r)
  have hMismatchKept : t.claims.mismatch = (capacityTaken r cap a s).claims.mismatch :=
    hMismatch.trans (hAfter.mismatch.trans (hEntered.mismatch.trans hBefore.mismatch))
  refine ⟨fun hPlace b q hb => ?_, fun v hFull hNew ha hv => ?_, fun hFull hNew hv => ?_,
    fun hf => hCapacityKept.trans (hCapacity.effective.1 hf), fun hf => hCapacityKept.trans (hCapacity.effective.2 hf),
    fun hOk hWrong => ?_, fun hRight => ?_⟩
  · obtain ⟨l, hEq, hFind⟩ := entered_of_place hKey ((hasPlace_congr hList).2 hPlace)
    rw [hRecord b q hb, hEq, findRecord_setClaimList, hFind, findRecord_congr hList, findRecord_congr hList]
  · obtain ⟨l, hEq, hNewFound, hGone, hRest⟩ := entered_of_victim hKey (by rw [hList]; exact hFull)
      (by rw [findRecord_congr hList]; exact hNew) ((victimIntent_congr hList hCfg).trans hv)
    have hVictim := (victimIntent_mem hv).2.2
    refine ⟨?_, ?_, fun b q hb hOff hOff' => ?_⟩
    · rw [hRecord a r ha, hEq]; exact hNewFound
    · rw [hRecord _ _ hVictim, hEq]; exact hGone
    · rw [hRecord b q hb, hEq, findRecord_setClaimList, hRest b q hOff' hOff, findRecord_congr hList]
  · have hEq := entered_of_full (f := f) (e := e) (by rw [hList]; exact hFull) (by rw [findRecord_congr hList]; exact hNew)
      ((victimIntent_congr hList hCfg).trans hv)
    refine ⟨fun b q hb => ?_, fun x => ?_⟩
    · rw [hRecord b q hb, hEq, findRecord_congr (refused_list a u), findRecord_congr hList]
    · rw [hDisturbed x, hAfter.disturbed x, hEq]
      exact refused_disturbed a u x
  · exact ⟨hMismatchKept.trans (hCapacity.wrong hOk hWrong).1,
      hPostsAll.from_port (hCapacity.wrong hOk hWrong).2 hCapacity.now⟩
  · exact ⟨hMismatchKept.trans (hCapacity.right hRight).1, hPostsAll.from_port (hCapacity.right hRight).2 hCapacity.now⟩

/-! ## The overcommit check that a frame brings (R57, R62, R81) -/

/-- A HELD process yields, with its report and its notice. -/
structure Yields (r : Resource) (s : State) (x : Reported) : Prop where
  report : x.2 = [.yielding r .overcommit]
  proc : (procOf x.1 r).state = .yielding ∧ (procOf x.1 r).cause = some .overcommit
  notice : s.port.notices.length ≤ 14 → noticeNow (.overcommitYield r) s ∈ x.1.port.notices

theorem CapacityTaken.room (h : CapacityTaken r cap a s t) (hs : s.port.notices.length ≤ 14) : HasRoom t := by
  unfold HasRoom
  by_cases hWrong : capacityOk r cap = true ∧ Mismatched r cap s
  · rw [(h.wrong hWrong.1 hWrong.2).2]
    exact Nat.lt_of_le_of_lt (post_length _ _) (Nat.lt_of_le_of_lt (Nat.succ_le_succ hs) (by decide))
  · rw [(h.right hWrong).2]
    exact Nat.lt_of_le_of_lt hs (by decide)

theorem yielded_notice (hRoom : HasRoom t) (hNow : t.now = s.now) :
    noticeNow (.overcommitYield r) s ∈ (yielded r t).port.notices := by
  have hPosted := yielded_posted (r := r) hRoom
  unfold Posted at hPosted
  rw [hPosted, noticeNow_congr _ hNow]
  exact List.mem_append_right _ (List.mem_singleton_self _)

theorem yielded_proc (r : Resource) (s : State) :
    (procOf (yielded r s) r).state = .yielding ∧ (procOf (yielded r s) r).cause = some .overcommit := by
  rw [procOf_yielded, if_pos rfl]
  exact ⟨rfl, rfl⟩

theorem takeIntent_eq (a : Nat) (n : Word32) (r : Resource) (amount cls k cap : Nat) (s : State) :
    takeClaimFrame a n (.intent r amount cls k cap) s
      = (listIntent a n r amount cls cap (takeCapacity r cap a s).1, (takeCapacity r cap a s).2) :=
  congrArg (Prod.mk _) (List.append_nil _)

theorem takeHeld_eq (a : Nat) (n : Word32) (r : Resource) (amount cap : Nat) (s : State) :
    takeClaimFrame a n (.held r amount cap) s
      = ((checkEntered a r (listHeld a n r amount cap (takeCapacity r cap a s).1)).1,
        (takeCapacity r cap a s).2 ++ (checkEntered a r (listHeld a n r amount cap (takeCapacity r cap a s).1)).2) := rfl

theorem fallen_withinRun (hf : Falls r cap s) :
    withinRun (capacityTaken r cap a s) r
      = withinRun (s.setClaims { s.claims with capacity := resSet s.claims.capacity r (some cap) }) r := by
  have h := capacityTaken_taken r cap a s
  exact withinRun_congr h.list (effective_congr (h.falls hf) r) h.cfg

/-- An INTENT's capacity that falls puts the own claim outside the run: it yields before the INTENT is listed. -/
theorem intent_yields {cls k : Nat} (hHeld : (procOf s r).state = .held) (hf : Falls r cap s)
    (hw : withinRun (s.setClaims { s.claims with capacity := resSet s.claims.capacity r (some cap) }) r = false)
    (hPlace : HasPlace a r s) : Yields r s (takeClaimFrame a n (.intent r amount cls k cap) s) := by
  have h := capacityTaken_taken r cap a s
  have hProc : procOf (capacityTaken r cap a s) r = procOf s r := by rw [procOf, h.proc]; rfl
  have hCheck : takeCapacity r cap a s = (yielded r (capacityTaken r cap a s), [.yielding r .overcommit]) :=
    (takeCapacity_of_fall hf).trans (overcommitCheck_of_outside (by rw [hProc]; exact hHeld) ((fallen_withinRun hf).trans hw))
  rw [takeIntent_eq, hCheck, listIntent_eq]
  obtain ⟨l, hEq, -⟩ := entered_of_place (s := yielded r (capacityTaken r cap a s))
    (intentEntry_keyed n amount cls cap (yielded r (capacityTaken r cap a s)).now)
    ((hasPlace_congr ((yielded_alike r _).list.trans h.list)).2 hPlace)
  dsimp only
  rw [hEq]
  exact ⟨rfl, yielded_proc r _, fun hs => yielded_notice (h.room hs) h.now⟩

theorem intent_stands {cls k : Nat}
    (hw : ¬(Falls r cap s ∧ withinRun (s.setClaims { s.claims with capacity := resSet s.claims.capacity r (some cap) }) r = false))
    (hPlace : HasPlace a r s) : (takeClaimFrame a n (.intent r amount cls k cap) s).2 = []
      ∧ (takeClaimFrame a n (.intent r amount cls k cap) s).1.claims.proc = s.claims.proc := by
  have h := capacityTaken_taken r cap a s
  have hCheck : takeCapacity r cap a s = (capacityTaken r cap a s, []) := by
    by_cases hf : Falls r cap s
    · refine (takeCapacity_of_fall hf).trans (overcommitCheck_of_inside (.inr ?_))
      rw [fallen_withinRun hf]
      simpa using fun hn => hw ⟨hf, hn⟩
    · exact takeCapacity_of_none hf
  rw [takeIntent_eq, hCheck, listIntent_eq]
  obtain ⟨l, hEq, -⟩ := entered_of_place (s := capacityTaken r cap a s)
    (intentEntry_keyed n amount cls cap (capacityTaken r cap a s).now) ((hasPlace_congr h.list).2 hPlace)
  dsimp only
  rw [hEq]
  exact ⟨rfl, h.proc⟩

theorem changeRecord_list (a : Nat) (r : Resource) (f : ClaimRecord → ClaimRecord) (s : State) :
    (changeRecord a r f s).claims.list = s.claims.list.map fun c => if hasKey a r c then f c else c := rfl

/-- The list a record is entered in depends on the list before and on the own address alone. -/
theorem entered_list_congr (hList : t.claims.list = s.claims.list) (hCfg : t.cfg = s.cfg) :
    (entered a r f e t).claims.list = (entered a r f e s).claims.list := by
  cases hc : findRecord s a r with
  | some c =>
    rw [entered_of_some hc, entered_of_some (by rw [findRecord_congr hList]; exact hc), changeRecord_list, changeRecord_list, hList]
  | none =>
    rw [entered_of_none hc, entered_of_none (by rw [findRecord_congr hList]; exact hc)]
    by_cases hRoom : s.claims.list.length < 32
    · rw [createRecord_of_room hRoom, createRecord_of_room (by rw [hList]; exact hRoom)]
      exact congrArg (insertBy recordBefore e) hList
    · have hFull : ¬t.claims.list.length < 32 := by rw [hList]; exact hRoom
      cases hv : victimIntent s with
      | none =>
        rw [createRecord_of_full hRoom hv, createRecord_of_full hFull ((victimIntent_congr hList hCfg).trans hv), refused_list,
          refused_list]
        exact hList
      | some v =>
        rw [createRecord_of_victim hRoom hv, createRecord_of_victim hFull ((victimIntent_congr hList hCfg).trans hv)]
        exact congrArg (fun l => insertBy recordBefore e (l.filter fun c => !hasKey v.addr v.res c)) hList

theorem entered_cfg (a : Nat) (r : Resource) (f : ClaimRecord → ClaimRecord) (e : ClaimRecord) (s : State) :
    (entered a r f e s).cfg = s.cfg := by
  unfold entered
  split
  · rfl
  · by_cases hRoom : s.claims.list.length < 32
    · rw [createRecord_of_room hRoom]; rfl
    · cases hv : victimIntent s with
      | none =>
        rw [createRecord_of_full hRoom hv]
        unfold refused
        split <;> rfl
      | some v => rw [createRecord_of_victim hRoom hv]; rfl

/-- A HELD frame's record entered, and the check that follows. -/
theorem held_checked (hf : ¬Falls r cap s) (hPlace : HasPlace a r s) : ∃ l,
    takeClaimFrame a n (.held r amount cap) s = overcommitCheck r (setClaimList l (capacityTaken r cap a s))
      ∧ withinRun (setClaimList l (capacityTaken r cap a s)) r = withinRun (listHeld a n r amount cap s) r := by
  have h := capacityTaken_taken r cap a s
  have hKey := heldEntry_keyed (a := a) (r := r) n amount cap s.now
  obtain ⟨l, hEq, hFind⟩ := entered_of_place hKey ((hasPlace_congr h.list).2 hPlace)
  have hFound : ∃ c, findRecord (setClaimList l (capacityTaken r cap a s)) a r = some c ∧ c.held = true := by
    refine ⟨_, (findRecord_setClaimList l _).trans ((hFind a r).trans (if_pos ⟨rfl, rfl⟩)), ?_⟩
    cases findRecord (capacityTaken r cap a s) a r <;> rfl
  obtain ⟨c, hc, hcHeld⟩ := hFound
  refine ⟨l, ?_, ?_⟩
  · rw [takeHeld_eq, takeCapacity_of_none hf, listHeld_eq, h.now]
    dsimp only
    rw [hEq, checkEntered_of_held hc hcHeld]
    rfl
  · rw [← hEq, listHeld_eq]
    refine withinRun_congr (entered_list_congr h.list h.cfg) ?_ ?_
    · rw [effective_congr (entered_relisted ..).capacity, h.effective.2 hf, effective_congr (entered_relisted ..).capacity]
    · rw [entered_cfg, entered_cfg, h.cfg]

/-! ## A numbered frame (R93, R96) -/

theorem numberFrame_running (s : State) : running (numberFrame s) = running s := rfl
theorem numberFrame_completionDue (s : State) : completionDue (numberFrame s) = completionDue s := rfl
theorem findRecord_numberFrame (s : State) (a : Nat) (r : Resource) : findRecord (numberFrame s) a r = findRecord s a r := rfl
theorem ownAddr_numberFrame (s : State) : ownAddr (numberFrame s) = ownAddr s := rfl
theorem effective_numberFrame (s : State) (r : Resource) : effective (numberFrame s) r = effective s r := rfl
theorem procOf_numberFrame (s : State) (r : Resource) : procOf (numberFrame s) r = procOf s r := rfl
theorem victimIntent_numberFrame (s : State) : victimIntent (numberFrame s) = victimIntent s := rfl

theorem receiveFrame_of_claim {l : LineFrame} {x : RiserFrame} (hx : readRiser l = some x) (hBody : readBody x = some (.claim m))
    (hc : s.port.closed = true) (hr : s.port.restarting = false) (hl : s.link.state ≠ .offline) (ha : x.addr ≠ ownAddr s) :
    exec (.frameReceived l) s = .next (if x.shaft = ownShaft s
      then settleRamps (reported (takeClaimFrame x.addr (s.link.sequence + 1) m (numberFrame s))) else numberFrame s) := by
  rw [receiveFrame_of_processed hx ⟨hc, hl⟩, processFrame_of_other ha, if_neg (by rw [hr]; decide)]
  refine congrArg Host.Outcome.next ?_
  unfold handOn
  rw [hBody]
  rfl

/-- What a frame that enters a record leaves, the frame having been numbered. -/
theorem claim_frame_listed (h : Enters a n s.now m r cap amount f e) :
    FrameTaken a r cap f e s (settleRamps (reported (takeClaimFrame a n m (numberFrame s)))) := by
  obtain ⟨h1, h2, h3, h4, h5, h6, h7⟩ := frame_taken (s := numberFrame s) h
  have hPost : (post (.capacityMismatch r a) (numberFrame s)).port = (post (.capacityMismatch r a) s).port := post_port_congr rfl rfl _
  exact ⟨h1, h2, h3, h4, h5, fun hOk hw => ⟨(h6 hOk hw).1, (h6 hOk hw).2.from_port hPost rfl⟩,
    fun hw => ⟨(h7 hw).1, (h7 hw).2.from_port (t := numberFrame s) rfl rfl⟩⟩

/-- The parts that the work of an event of the line can change. -/
def Part.lining : Part → Bool := fun p => p != .peers && p != .decision && p != .band && p != .number

theorem settled_kept (x : Reported) : (settleRamps (reported x)).link.sequence = x.1.link.sequence
    ∧ (settleRamps (reported x)).peers = x.1.peers ∧ (settleRamps (reported x)).decision = x.1.decision
    ∧ (settleRamps (reported x)).band = x.1.band := by
  have hActs : Acts Part.lining x.1 (settleRamps (reported x)) :=
    settleRamps_acts (reported_acts .refl ⟨rfl, rfl, rfl, rfl, rfl, rfl⟩) ⟨rfl, rfl, rfl, rfl, rfl, rfl⟩
  exact ⟨hActs.sequence_eq rfl, hActs.peers_eq rfl, hActs.decision_eq rfl, hActs.band_eq rfl⟩

theorem claim_frame_alone (a : Nat) (n : Word32) (m : ClaimMsg) (s : State) :
    (settleRamps (reported (takeClaimFrame a n m (numberFrame s)))).link.sequence = s.link.sequence + 1
      ∧ (settleRamps (reported (takeClaimFrame a n m (numberFrame s)))).peers = s.peers
      ∧ (settleRamps (reported (takeClaimFrame a n m (numberFrame s)))).decision = s.decision
      ∧ (settleRamps (reported (takeClaimFrame a n m (numberFrame s)))).band = s.band := by
  have hAlone := takeClaimFrame_alone a n m (numberFrame s)
  obtain ⟨hSequence, hPeers, hDecision, hBand⟩ := settled_kept (takeClaimFrame a n m (numberFrame s))
  rw [hSequence, hPeers, hDecision, hBand, hAlone.link, hAlone.peers, hAlone.decision, hAlone.band]
  exact ⟨rfl, rfl, rfl, rfl⟩

/-- A WITHDRAW or a RELEASE removes its sender's record, and nothing else (R63). -/
theorem claim_frame_removed (hs : completionDue s = false) :
    settleRamps (reported (quietly (removeRecord a r (numberFrame s)))) = removeRecord a r (numberFrame s) := reported_of_none hs

/-- What the overcommit check leaves, where the own process is HELD: it yields and the station is forced out, or nothing moves. -/
theorem yields_settled {x : Reported} (h : Yields r (numberFrame s) x) (hAlone : ClaimsAlone (numberFrame s) x.1)
    (hRun : running s = true) :
    (s.port.notices.length ≤ 14 → noticeNow (.overcommitYield r) s ∈ (settleRamps (reported x)).port.notices)
      ∧ ∀ mode d, claimFor mode = some r → s.seq.phase = some .settled → s.seq.mode = some mode →
        s.seq.forcedPending = none → s.decision.last.desired = some d → d ≠ .defrost →
        RampsAway s (rampSet s.cfg s.decision.last (leaveTarget mode d)) →
        ForcedOut (leaveTarget mode d) s (settleRamps (reported x)) ∧ (procOf (settleRamps (reported x)) r).state = .yielding
          ∧ (procOf (settleRamps (reported x)) r).cause = some .overcommit := by
  refine ⟨fun hShort => (reported_posts x).mem (h.notice hShort) nofun, fun mode d hMode hp hm hFree hd hNot hAway => ?_⟩
  obtain ⟨y, l⟩ := x
  have hl : l = [.yielding r .overcommit] := h.report
  subst hl
  obtain ⟨hForced, hClaims⟩ := yield_forcesOut (s := s) (w := y) hAlone.seq hAlone.out hAlone.cfg hAlone.decision
    (hAlone.running.trans hRun) hMode hp hm hFree hd hNot hAway
  refine ⟨hForced, ?_⟩
  rw [procOf_congr hClaims]
  exact h.proc

theorem stands_settled {x : Reported} (h : x.2 = [] ∧ x.1.claims.proc = s.claims.proc) (hAlone : ClaimsAlone (numberFrame s) x.1)
    (hs : completionDue s = false) : (settleRamps (reported x)).claims.proc = s.claims.proc
      ∧ (settleRamps (reported x)).seq = s.seq ∧ (settleRamps (reported x)).out = s.out := by
  obtain ⟨y, l⟩ := x
  have hl : l = [] := h.1
  subst hl
  rw [reported_of_none (hAlone.completionDue hs)]
  exact ⟨h.2, hAlone.seq, hAlone.out⟩

end

end Sys2Proof.Machine
end

section
/-! PROOF. Claim frames of other stations (O51): the clauses, each from what a frame leaves of the claims. -/

namespace Sys2Proof.Machine

section
variable {s t u : State} {a b : Nat} {r q : Resource} {m : ClaimMsg} {n : Word32} {cap amount : Nat} {f : ClaimRecord → ClaimRecord}
  {e : ClaimRecord}

theorem capacityTaken_of_nothing (hf : ¬Falls r cap s) (hw : ¬(capacityOk r cap = true ∧ Mismatched r cap s)) :
    capacityTaken r cap a s = s := by
  unfold capacityTaken
  by_cases hOk : capacityOk r cap = true
  · rw [if_pos hOk, if_neg fun h => hf ⟨hOk, h⟩]
    exact noteMismatch_of_right fun h => hw ⟨hOk, h⟩
  · rw [if_neg hOk]

/-- A frame whose record a full list keeps out, and whose capacity changes nothing. -/
theorem frame_refused (h : Enters a n s.now m r cap amount f e) (hFull : ¬s.claims.list.length < 32) (hNew : findRecord s a r = none)
    (hv : victimIntent s = none) (hf : ¬Falls r cap s) (hw : ¬(capacityOk r cap = true ∧ Mismatched r cap s)) :
    takeClaimFrame a n m s = (refused a s, []) := by
  have hCapacity : takeCapacity r cap a s = (s, []) := by rw [takeCapacity_of_none hf, capacityTaken_of_nothing hf hw]
  have hKept : findRecord (refused a s) a r = none := (findRecord_congr (refused_list a s) a r).trans hNew
  cases h with
  | intent => rw [takeIntent_eq, hCapacity, listIntent_eq, entered_of_full hFull hNew hv]
  | held =>
    rw [takeHeld_eq, hCapacity, listHeld_eq]
    dsimp only
    rw [entered_of_full hFull hNew hv, checkEntered_of_none hKept]
    rfl

/-- A record that the frame may displace: the INTENT of another station earlier than all the others' (R65). -/
def Displaced (s : State) (v : ClaimRecord) : Prop := v ∈ s.claims.list ∧ v.held = false ∧ v.addr ≠ ownAddr s
  ∧ ∀ w ∈ s.claims.list, w.held = false → w.addr ≠ ownAddr s → w = v ∨ 2 ^ 31 < (v.seq - w.seq).toNat

theorem refused_settled (hs : completionDue s = false) :
    (settleRamps (reported (refused a s, []))).claims.fullMark = true ∧ (settleRamps (reported (refused a s, []))).claims.list = s.claims.list
      ∧ (settleRamps (reported (refused a s, []))).seq = s.seq ∧ (settleRamps (reported (refused a s, []))).out = s.out
      ∧ (s.claims.fullMark = true → (settleRamps (reported (refused a s, []))).port = s.port)
      ∧ (s.claims.fullMark = false → HasRoom s → Posted (.claimListFull a) s (settleRamps (reported (refused a s, [])))) := by
  have hAlone : (refused a s).seq = s.seq ∧ (refused a s).out = s.out ∧ (refused a s).cfg = s.cfg := by
    unfold refused
    split <;> exact ⟨rfl, rfl, rfl⟩
  have hDue : completionDue (refused a s) = false := (completionDue_congr hAlone.2.2 hAlone.2.1).trans hs
  rw [reported_of_none hDue]
  refine ⟨refused_fullMark a s, refused_list a s, hAlone.1, hAlone.2.1, fun h => (refused_port a s).trans (if_pos h), fun h hRoom => ?_⟩
  unfold Posted
  rw [refused_port, if_neg (by rw [h]; decide)]
  exact posted_post_of_room hRoom _

theorem removed_settled (a : Nat) (r : Resource) (s : State) {b : Nat} {q : Resource} (hb : b ≠ ownAddr s) (hNot : ¬(b = a ∧ q = r)) :
    findRecord (settleRamps (reported (removeRecord a r (numberFrame s), []))) b q = findRecord s b q := by
  have hWorks := reported_works_settled (removeRecord a r (numberFrame s), [])
  have hOthers := hWorks.sameClaims.others b q hb
  rw [hOthers]
  exact (findRecord_removeRecord (numberFrame s) a b r q).trans (if_neg hNot)

theorem mismatch_noticed (h : FrameTaken a r cap f e s t) :
    (capacityOk r cap = true ∧ Mismatched r cap s →
        t.claims.mismatch = resSet s.claims.mismatch r (resGet s.claims.mismatch r ++ [cap])
          ∧ (HasRoom s → ∃ rest, t.port.notices = s.port.notices ++ noticeNow (.capacityMismatch r a) s :: rest))
      ∧ (¬(capacityOk r cap = true ∧ Mismatched r cap s) → t.claims.mismatch = s.claims.mismatch
          ∧ ∀ n ∈ t.port.notices, n ∈ s.port.notices ∨ n.body ≠ .capacityMismatch r a) := by
  refine ⟨fun ⟨hOk, hw⟩ => ⟨(h.wrong hOk hw).1, fun hRoom => ?_⟩, fun hw => ⟨(h.right hw).1, fun k hk => ?_⟩⟩
  · obtain ⟨rest, hRest, -⟩ := (h.wrong hOk hw).2.appends framePosts_quiet
    have hPosted := posted_post_of_room hRoom (.capacityMismatch r a)
    unfold Posted at hPosted
    exact ⟨rest, by rw [hRest, hPosted, List.append_assoc]; rfl⟩
  · exact ((h.right hw).2.new framePosts_quiet k hk).imp id fun hb => framePosts_no_mismatch _ hb

theorem withinRun_listHeld_numberFrame : withinRun (listHeld a n r amount cap (numberFrame s)) r = withinRun (listHeld a n r amount cap s) r := by
  rw [listHeld_eq, listHeld_eq]
  refine withinRun_congr (entered_list_congr rfl rfl) ?_ ?_
  · rw [effective_congr (entered_relisted ..).capacity, effective_congr (entered_relisted ..).capacity]
    rfl
  · rw [entered_cfg, entered_cfg]
    rfl

/-- A HELD frame with no fall of the capacity: outside the run the own claim yields, and within it nothing moves. -/
theorem held_settled (hHeld : (procOf s r).state = .held) (hf : ¬Falls r cap (numberFrame s)) (hPlace : HasPlace a r (numberFrame s))
    (hRun : running s = true) (hs : completionDue s = false) :
    let t := settleRamps (reported (takeClaimFrame a n (.held r amount cap) (numberFrame s)))
    (withinRun (listHeld a n r amount cap s) r = false →
        (s.port.notices.length ≤ 14 → noticeNow (.overcommitYield r) s ∈ t.port.notices)
          ∧ ∀ mode d, claimFor mode = some r → s.seq.phase = some .settled → s.seq.mode = some mode →
            s.seq.forcedPending = none → s.decision.last.desired = some d → d ≠ .defrost →
            RampsAway s (rampSet s.cfg s.decision.last (leaveTarget mode d)) →
            ForcedOut (leaveTarget mode d) s t ∧ (procOf t r).state = .yielding ∧ (procOf t r).cause = some .overcommit)
      ∧ (withinRun (listHeld a n r amount cap s) r = true → t.claims.proc = s.claims.proc ∧ t.seq = s.seq ∧ t.out = s.out) := by
  intro t
  have hAlone := takeClaimFrame_alone a n (.held r amount cap) (numberFrame s)
  obtain ⟨l, hEq, hWithin⟩ := held_checked (a := a) (n := n) (amount := amount) hf hPlace
  rw [withinRun_listHeld_numberFrame] at hWithin
  have hCapacity := capacityTaken_taken r cap a (numberFrame s)
  have hProc : (procOf (setClaimList l (capacityTaken r cap a (numberFrame s))) r).state = .held := by
    rw [procOf_setClaimList, procOf, hCapacity.proc]
    exact hHeld
  refine ⟨fun hw => ?_, fun hw => ?_⟩
  · refine yields_settled ?_ hAlone hRun
    rw [hEq, overcommitCheck_of_outside hProc (hWithin.trans hw)]
    exact ⟨rfl, yielded_proc r _, fun hs => yielded_notice (hCapacity.room hs) hCapacity.now⟩
  · refine stands_settled ?_ hAlone hs
    rw [hEq, overcommitCheck_of_inside (.inr (hWithin.trans hw))]
    exact ⟨rfl, hCapacity.proc⟩

end

/-- Settles O51: every clause reads off the list the record is entered in, or the overcommit check that follows. -/
theorem claimFramesChangeTheClaimList : Obligations.ClaimFramesChangeTheClaimList := by
  intro s l x m hx hBody hc hr hl ha
  have hExec := receiveFrame_of_claim hx hBody hc hr hl ha
  have hRun : running s = true := running_iff.2 ⟨hc, hr⟩
  refine ⟨fun hShaft => ?other, fun hShaft => ?own⟩
  case other => rw [hExec, if_neg hShaft]; rfl
  rw [if_pos hShaft] at hExec
  obtain ⟨hSequence, hPeers, hDecision, hBand⟩ := claim_frame_alone x.addr (s.link.sequence + 1) m s
  refine ⟨_, hExec, hSequence, hPeers, hDecision, hBand, fun b q hb hNot hPlace => ?others, fun r amount cls k cap hm hPlace => ?intent,
    fun r amount cap hm => ⟨fun c hFound => ?renewed, fun hNew hRoom => ?made⟩, fun r why hm hs => ?removed,
    fun r amount cap hm => ?enters, fun r amount cap hs hHeld => ?checks⟩
  case others =>
    cases m with
    | intent r amount cls k cap => exact ((claim_frame_listed (.intent r amount cls k cap)).place hPlace b q hb).trans (if_neg hNot)
    | held r amount cap => exact ((claim_frame_listed (.held r amount cap)).place hPlace b q hb).trans (if_neg hNot)
    | withdraw r why => exact removed_settled x.addr r s hb hNot
    | release r why => exact removed_settled x.addr r s hb hNot
  case intent =>
    subst hm
    refine ((claim_frame_listed (.intent r amount cls k cap)).place hPlace x.addr r ha).trans ((if_pos ⟨rfl, rfl⟩).trans ?_)
    cases findRecord s x.addr r <;> rfl
  case renewed =>
    subst hm
    have hPlace : HasPlace x.addr r s := .inr (by rw [hFound]; exact nofun)
    refine ((claim_frame_listed (.held r amount cap)).place hPlace x.addr r ha).trans ((if_pos ⟨rfl, rfl⟩).trans ?_)
    rw [hFound]
    rfl
  case made =>
    subst hm
    refine ((claim_frame_listed (.held r amount cap)).place (.inl hRoom) x.addr r ha).trans ((if_pos ⟨rfl, rfl⟩).trans ?_)
    rw [hNew]
    rfl
  case removed =>
    have hTaken : settleRamps (reported (takeClaimFrame x.addr (s.link.sequence + 1) m (numberFrame s)))
        = removeRecord x.addr r (numberFrame s) := by
      rcases hm with rfl | ⟨w, rfl⟩ <;> exact claim_frame_removed hs
    rw [hTaken]
    exact ⟨(findRecord_removeRecord (numberFrame s) x.addr x.addr r r).trans (if_pos ⟨rfl, rfl⟩), rfl, rfl, rfl, rfl⟩
  case enters =>
    obtain ⟨f, e, hEnters⟩ : ∃ f e, Enters x.addr (s.link.sequence + 1) s.now m r cap amount f e := by
      rcases hm with ⟨cls, k, rfl⟩ | rfl
      · exact ⟨_, _, .intent r amount cls k cap⟩
      · exact ⟨_, _, .held r amount cap⟩
    have hTaken := claim_frame_listed hEnters
    have hMismatch := mismatch_noticed hTaken
    dsimp only
    simp only [← capacityOk_iff]
    refine ⟨?_, ⟨fun hw => hMismatch.1 ⟨hw.1, hw.2⟩, fun hw => hMismatch.2 fun hn => hw ⟨hn.1, hn.2⟩⟩, fun _ hFull hNew => ?_⟩
    · split
      next hf => exact hTaken.falls hf
      next hf => exact hTaken.stands hf
    · have hFull' : ¬s.claims.list.length < 32 := by rw [hFull]; decide
      refine ⟨fun v hv hHeld hOwn hFirst => ?_, fun hNone => ?_⟩
      · obtain ⟨hEntry, hGone, hRest⟩ := hTaken.victim v hFull' hNew ha (victimIntent_of_earliest hv hHeld hOwn hFirst)
        exact ⟨hGone, ⟨e, hEntry, hEnters.made⟩, hRest⟩
      · have hVictim := victimIntent_none hNone
        obtain ⟨hRest, hDisturbed⟩ := hTaken.full hFull' hNew hVictim
        refine ⟨(hRest x.addr r ha).trans hNew, hRest, hDisturbed, fun hIdle hs => ?_⟩
        have hRefused := frame_refused (s := numberFrame s) hEnters hFull' hNew hVictim
          (fun hf => absurd hf.2 (Nat.not_lt.2 (hIdle hf.1).1)) fun hw => absurd hw.2.1 (Nat.not_lt.2 (hIdle hw.1).2)
        rw [hRefused]
        exact refused_settled hs
  case checks =>
    have hAlone := takeClaimFrame_alone x.addr (s.link.sequence + 1) m (numberFrame s)
    dsimp only
    simp only [← capacityOk_iff]
    refine ⟨fun cls k hm hPlace => ?_, fun hm hNoFall hPlace => ?_⟩
    · subst hm
      refine ⟨fun ⟨hOk, hf, hw⟩ => ?_, fun hw => ?_⟩
      · exact yields_settled (intent_yields (s := numberFrame s) hHeld ⟨hOk, hf⟩ hw hPlace) hAlone hRun
      · exact stands_settled (intent_stands (s := numberFrame s) (fun hn => hw ⟨hn.1.1, hn.1.2, hn.2⟩) hPlace) hAlone hs
    · subst hm
      exact held_settled hHeld (fun hf => absurd hf.2 (Nat.not_lt.2 (hNoFall hf.1))) hPlace hRun hs

end Sys2Proof.Machine
end

section
/-! PROOF. A BEACON and a claim list that names a key twice (O52, O55). The two statements ask no soundness of the claim list. A full list
that holds a HELD record and an INTENT of one claimant and resource loses both when a record that the BEACON makes takes the INTENT's place
(R65). Of the BEACON's sender, the HELD record is then made anew, with a new sequence (R68); of a rival of the own claim, its amount no longer
counts in the overcommit check (R81). -/

namespace Sys2Proof.Machine

/-- A record of a claimant, its sequence 0. -/
def oldRecord (addr : Nat) (r : Resource) (held : Bool) : ClaimRecord :=
  { addr := addr, res := r, amount := 1, held := held, cls := 0, seq := 0, capacity := none, refreshed := 0 }

/-- A full list in which the station of address 1 has a HELD record and an INTENT of DEFROST. -/
def doubledList : List ClaimRecord :=
  oldRecord 1 .defrost true :: oldRecord 1 .defrost false :: List.replicate 30 (oldRecord 2 .relief true)

/-- A closed, ONLINE station with that list. -/
def doubledState : State :=
  ((State.reset.setPort { Port.reset with closed := true }).setLink { Link.reset with state := .online }).setClaims
    { ClaimUnit.reset with list := doubledList }

/-- A BEACON of address 1 that reports a unit of RELIEF and DEFROST held. -/
def bothHeld : BeaconBody :=
  { mode := .safe, phase := .settled, fire := false, defrostHeld := true, level := 0, probeT := none, probeW := none
    quality := .absent, reliefUnits := 1, cls := 0, follow := .none }

/-- The BEACON as the line carries it, and as it is read. -/
def bothHeldFrame : LineFrame := lineFrame (ownShaft doubledState) 1 (.beacon bothHeld)

def bothHeldRead : RiserFrame :=
  { kind := .beacon, shaft := ownShaft doubledState, addr := 1, data := bodyBytes (.beacon bothHeld) }

/-- The BEACON's RELIEF record takes the INTENT's place, and the HELD record of the same key goes with it. -/
theorem doubled_record_remade : ∃ t, exec (.frameReceived bothHeldFrame) doubledState = .next t
    ∧ (findRecord t 1 .defrost).map (·.seq) = some 1 := by
  refine ⟨receiveFrame bothHeldFrame doubledState, rfl, ?_⟩
  decide +kernel

/-- Refutes O52: a record HELD in a full list that names its key twice is made anew by the BEACON that reports it, with a new sequence. -/
theorem not_beaconsAndAlertsChangeThePeerTable : ¬ Obligations.BeaconsAndAlertsChangeThePeerTable := by
  rintro ⟨-, h⟩
  have hRead : readRiser bothHeldFrame = some bothHeldRead := by decide
  have hBody : readBody bothHeldRead = some (.beacon bothHeld) := by decide
  obtain ⟨hBeacon, -⟩ := h doubledState bothHeldFrame bothHeldRead hRead rfl rfl nofun (by decide)
  obtain ⟨t, hExec, -, -, -, -, -, hOwnShaft⟩ := hBeacon bothHeld hBody
  obtain ⟨-, -, hRecords⟩ := hOwnShaft rfl
  obtain ⟨hListed, -⟩ := hRecords .defrost
  obtain ⟨-, hRenewed⟩ := hListed (oldRecord 1 .defrost true) (.inr rfl) (by decide)
  have hKept : findRecord t 1 .defrost = _ := hRenewed (by decide)
  obtain ⟨u, hExec', hRemade⟩ := doubled_record_remade
  rw [hExec] at hExec'
  cases hExec'
  rw [hKept] at hRemade
  exact absurd hRemade (by decide)

/-! ## The own BEACON (O55) -/

/-- A full list in which the own DEFROST claim stands behind a HELD one of address 1, which has an INTENT of DEFROST besides. -/
def rivalList : List ClaimRecord :=
  oldRecord 0 .defrost true :: { oldRecord 1 .defrost true with cls := 1 } :: oldRecord 1 .defrost false
    :: List.replicate 29 (oldRecord 2 .relief true)

/-- A closed, ONLINE station with that list and one defrost slot, HELD in DEFROST, whose BEACON is under attempt. -/
def rivalState : State :=
  ((State.reset.setPort { Port.reset with closed := true }).setLink { Link.reset with
      state := .online, attempt := some { slot := .beacon, body := .beacon bothHeld } }).setClaims
    { ClaimUnit.reset with
      list := rivalList, capacity := ⟨some 0, some 1⟩, proc := ⟨Process.idle, { Process.idle with state := .held }⟩ }

/-- The BEACON's RELIEF record takes the INTENT's place, the rival goes with it, and the own claim does not yield. -/
theorem rival_gone : ∃ t, exec .transmitSuccess rivalState = .next t ∧ (procOf t .defrost).state = .held :=
  ⟨transmitted rivalState, rfl, by decide +kernel⟩

/-- Refutes O55: an own claim that the list before the BEACON puts outside the run stays HELD, its rival having left a full list that names
its key twice. -/
theorem not_ownFramesAppearAndMoveTheirProcess : ¬ Obligations.OwnFramesAppearAndMoveTheirProcess := by
  intro h
  obtain ⟨-, hSent⟩ := h rivalState
  obtain ⟨t, hExec, -, -, -, -, -, -, hTaken⟩ := hSent { slot := .beacon, body := .beacon bothHeld } rfl
  obtain ⟨-, -, -, -, hBeacon, -⟩ := hTaken (by decide)
  obtain ⟨-, -, -, -, hClaims⟩ := hBeacon bothHeld rfl rfl
  obtain ⟨-, -, hEach⟩ := hClaims rfl
  obtain ⟨-, -, -, hYields⟩ := hEach .defrost
  obtain ⟨hNotHeld, -⟩ := hYields rfl (by decide) (by decide) (by decide +kernel)
  obtain ⟨u, hExec', hHeld⟩ := rival_gone
  rw [hExec] at hExec'
  cases hExec'
  exact hNotHeld hHeld

end Sys2Proof.Machine
end

section
/-! PROOF. The FIRE input (O47): its filter, and what an assertion takes of the outputs, the Sequencer and the own claim processes (R51, R84,
R101, R173 to R175). -/

namespace Sys2Proof.Machine

section
variable {r s t u v w : State} {x : Resource}

/-! ## The filter of the FIRE pin (R173) -/

theorem execFirePinChange_eq (level : Bool) (s : State) : exec (.firePinChange level) s = .next ((s.setFirePin level).setOut { s.out with
    fireSince := if level = s.firePin then s.out.fireSince else if level = s.out.fireFiltered then none else some s.now }) := by
  have hSince : steadiness s.firePin level s.out.fireFiltered s.out.fireSince s.now
      = if level = s.firePin then s.out.fireSince else if level = s.out.fireFiltered then none else some s.now := by
    unfold steadiness
    rw [eq_comm]
    exact ite_cond_congr (propext eq_comm)
  exact congrArg (fun since => Host.Outcome.next ((s.setFirePin level).setOut { s.out with fireSince := since })) hSince

theorem fireFilterDue_iff (s : State) :
    fireFilterDue s = true ↔ ∃ x, s.out.fireSince = some x ∧ x + s.cfg.outputs.fireFilter ≤ s.now := by
  unfold fireFilterDue
  cases s.out.fireSince with
  | none => exact ⟨nofun, fun ⟨_, h, _⟩ => nomatch h⟩
  | some x => simp [aged]

/-! ## The Sequencer's suspension (R51) -/

theorem suspend_works (s : State) : Works s (suspend s) := by
  by_cases h : s.seq.phase = some .suspended ∨ s.seq.phase = none
  · rw [suspend_of_suspended h]; exact .refl
  · obtain ⟨hNot, hSome⟩ := not_or.1 h
    rw [suspend_eq hNot hSome]
    exact setPhase_works _ (Works.refl.seq _)

theorem suspend_out (s : State) : (suspend s).out = s.out := by
  by_cases h : s.seq.phase = some .suspended ∨ s.seq.phase = none
  · rw [suspend_of_suspended h]
  · obtain ⟨hNot, hSome⟩ := not_or.1 h
    rw [suspend_eq hNot hSome, setPhase_out, State.setSeq_out]

theorem suspend_unramping (s : State) : (suspend s).seq.phase ≠ some .ramping := by
  by_cases h : s.seq.phase = some .suspended ∨ s.seq.phase = none
  · rw [suspend_of_suspended h]
    rcases h with h | h <;> rw [h] <;> exact nofun
  · obtain ⟨hNot, hSome⟩ := not_or.1 h
    rw [suspend_seq hNot hSome]
    exact nofun

theorem suspensionOf_settled (h : s.seq.phase = some .settled) : suspensionOf s = none := by
  unfold suspensionOf
  rw [h]
  cases s.seq.transition <;> rfl

theorem suspensionOf_of_transition {p : Phase} {y : Transition} (hp : s.seq.phase = some p) (hNot : p ≠ .settled)
    (hy : s.seq.transition = some y) : suspensionOf s = some {
      target := y.target, interrupted := p, forced := y.forced, start := s.now
      relief := (procOf s .relief).state, defrost := (procOf s .defrost).state } := by
  unfold suspensionOf
  rw [hp, hy]
  exact if_neg hNot

/-! ## The own claim processes at an assertion (R84) -/

/-- What the own FIRE leaves of a process that stood as in s. -/
structure FireSpares (x : Resource) (s t : State) : Prop where
  kept : (procOf s x).state = .held ∨ (procOf s x).state = .yielding ∨ (procOf s x).state = .starved → procOf t x = procOf s x
  ended : (procOf s x).state = .pending ∨ (procOf s x).state = .holdoff ∨ (procOf s x).state = .committing
    ∨ (procOf s x).state = .backoff → (procOf t x).state = .idle ∧ (procOf t x).request = false

theorem FireSpares.congr (h : FireSpares x s t) (hs : procOf s x = procOf r x) (ht : procOf u x = procOf t x) : FireSpares x r u := by
  obtain ⟨hKept, hEnded⟩ := h
  rw [hs, ← ht] at hKept
  rw [hs, ← ht] at hEnded
  exact ⟨hKept, hEnded⟩

theorem procOf_toIdle_self (x : Resource) (b : Bool) (s : State) :
    (procOf (toIdle x b s) x).state = .idle ∧ (procOf (toIdle x b s) x).request = b := by
  rw [procOf_toIdle, if_pos rfl]
  exact ⟨rfl, rfl⟩

theorem fireProc_spares (x : Resource) (s : State) : FireSpares x s (fireProc x s) := by
  unfold fireProc
  dsimp only
  split
  case h_1 hs => exact ⟨by rw [hs]; simp, by rw [hs]; simp⟩
  case h_2 hs => exact ⟨by rw [hs]; simp, by rw [hs]; simp⟩
  case h_3 hs => exact ⟨by rw [hs]; simp, fun _ => procOf_toIdle_self x false _⟩
  case h_4 hs => exact ⟨by rw [hs]; simp, fun _ => by rw [procOf_placeClaim]; exact procOf_toIdle_self x false s⟩
  case h_5 hs => exact ⟨by rw [hs]; simp, fun _ => by rw [procOf_placeClaim]; exact procOf_toIdle_self x false s⟩
  case h_6 hs => exact ⟨by rw [hs]; simp, fun _ => procOf_toIdle_self x false s⟩
  case h_7 hs => exact ⟨fun _ => rfl, by rw [hs]; simp⟩
  case h_8 hs => exact ⟨fun _ => rfl, by rw [hs]; simp⟩
  case h_9 hs => exact ⟨fun _ => rfl, by rw [hs]; simp⟩

theorem fireProc_other {y : Resource} (h : y ≠ x) (s : State) : procOf (fireProc x s) y = procOf s y := by
  unfold fireProc
  dsimp only
  split
  case h_1 => exact procOf_setProc_other h _ s
  case h_2 => exact procOf_setProc_other h _ s
  case h_3 => rw [toIdle_other h, procOf_removeIntent]
  case h_4 => rw [procOf_placeClaim, toIdle_other h]
  case h_5 => rw [procOf_placeClaim, toIdle_other h]
  case h_6 => exact toIdle_other h _ s
  all_goals rfl

theorem fireProcs_spare (s : State) (x : Resource) : FireSpares x s (forBoth fireProc s) := by
  unfold forBoth
  cases x with
  | relief => exact (fireProc_spares .relief s).congr rfl (fireProc_other (by decide) _)
  | defrost =>
    exact (fireProc_spares .defrost (fireProc .relief s)).congr (fireProc_other (by decide) s) rfl

theorem fireProc_works (x : Resource) (h : Works r s) : Works r (fireProc x s) := by
  unfold fireProc
  dsimp only
  split
  next hp => exact h.proc x _ (by rw [hp]; exact nofun) ⟨rfl, id⟩
  next hp => exact h.proc x _ (by rw [hp]; exact nofun) ⟨rfl, id⟩
  next hp =>
    have hx : (procOf s x).state ≠ .starved := by rw [hp]; exact nofun
    exact (h.unIntent x hx).proc x _ (by rw [procOf_removeIntent]; exact hx) ⟨rfl, nofun⟩
  next hp => exact h.procPlaced _ (by rw [hp]; exact nofun) ⟨rfl, nofun⟩ nofun rfl
  next hp => exact h.procPlaced _ (by rw [hp]; exact nofun) ⟨rfl, nofun⟩ nofun rfl
  next hp => exact h.proc x _ (by rw [hp]; exact nofun) ⟨rfl, nofun⟩
  all_goals exact h

theorem fireProcs_claimActs (s : State) : Acts Part.claiming s (forBoth fireProc s) :=
  forBoth_acts (fun x _ h => fireProc_acts x h rfl rfl) .refl

/-! ## An ALERT (R101) -/

/-- An ALERT under attempt, to be queued anew. -/
def AlertMarked (l : Link) : Prop := (∃ y, l.attempt = some y ∧ y.slot = .alert) ∧ l.alertMark = true

theorem dropFrame_of_other {sl : Slot} {l : Link} (h : ∀ a, l.attempt = some a → a.slot ≠ sl) : dropFrame sl l
    = if l.failSlot = some sl then { l with failSlot := none } else l := by
  have hAttempt : (if l.failSlot = some sl then { l with failSlot := none } else l).attempt = l.attempt := by split <;> rfl
  unfold dropFrame
  dsimp only
  split
  · rfl
  next a ha => rw [if_neg (h a (hAttempt.symm.trans ha))]

theorem dropFrame_alertMarked {sl : Slot} {l : Link} (hsl : sl ≠ .alert) (h : AlertMarked l) : AlertMarked (dropFrame sl l) := by
  obtain ⟨⟨y, hy, hSlot⟩, hMark⟩ := h
  rw [dropFrame_of_other fun a ha => by rw [hy] at ha; cases ha; rw [hSlot]; exact hsl.symm]
  split
  · exact ⟨⟨y, hy, hSlot⟩, hMark⟩
  · exact ⟨⟨y, hy, hSlot⟩, hMark⟩

theorem slotOf_ne_alert (x : Resource) : slotOf x ≠ .alert := by cases x <;> exact nofun

theorem Works.alertMarked (h : Works r s) (hr : AlertMarked r.link) : AlertMarked s.link := by
  induction h with
  | refl => exact hr
  | still _ hl _ _ _ _ ih => rw [hl]; exact ih
  | @beacon s _ ih =>
    unfold queueBeacon
    dsimp only
    split
    · exact ih
    · split
      · exact ih
      · exact dropFrame_alertMarked (by exact nofun) ih
  | @place s m _ _ ih =>
    unfold placeClaim
    split
    · exact ih
    · exact dropFrame_alertMarked (slotOf_ne_alert _) ih
  | @unIntent s y _ _ ih =>
    unfold removeIntent
    split
    · exact dropFrame_alertMarked (slotOf_ne_alert _) ih
    · exact ih
  | proc y p _ _ _ ih => exact ih
  | drop y _ ih => exact ih

/-- The station with the filtered level taken and its ALERT queued (R101, R173). -/
def levelMarked (level : Bool) (s : State) : State := queueAlert (s.setOut { s.out with fireFiltered := level, fireSince := none })

theorem queueAlert_eq (s : State) : queueAlert s = s.setLink (queueAlert s).link := by
  unfold queueAlert
  dsimp only
  split
  · rfl
  · split
    · rfl
    · split <;> rfl

theorem levelMarked_eq (level : Bool) (s : State) : levelMarked level s
    = (s.setOut { s.out with fireFiltered := level, fireSince := none }).setLink (levelMarked level s).link := queueAlert_eq _

theorem queueAlert_sequence (s : State) : (queueAlert s).link.sequence = s.link.sequence ∧ (queueAlert s).link.state = s.link.state
    ∧ (queueAlert s).link.claimSlot = s.link.claimSlot := by
  unfold queueAlert
  dsimp only
  split
  · exact ⟨rfl, rfl, rfl⟩
  · split
    · exact ⟨rfl, rfl, rfl⟩
    · split <;> exact ⟨rfl, rfl, rfl⟩

theorem queueAlert_of_restarting (h : s.port.restarting = true) : queueAlert s = s := if_pos (by rw [h]; rfl)

theorem queueAlert_slot (hr : s.port.restarting = false) (hc : s.link.state ≠ .clashed)
    (ha : ∀ y, s.link.attempt = some y → y.slot ≠ .alert) : (queueAlert s).link.alertSlot = some (s.link.alertSlot.getD s.now) := by
  unfold queueAlert
  rw [if_neg (by rw [hr]; simpa using hc), if_neg (by rw [not_underAttempt ha]; decide)]
  cases hSlot : s.link.alertSlot with
  | none => rfl
  | some q => exact hSlot

theorem queueAlert_marked {y : Attempt} (hr : s.port.restarting = false) (hl : s.link.state = .online) (hy : s.link.attempt = some y)
    (hSlot : y.slot = .alert) : AlertMarked (queueAlert s).link := by
  have hUnder : underAttempt s.link .alert = true := by rw [underAttempt, hy, ← hSlot]; exact beq_self_eq_true _
  unfold queueAlert
  rw [if_neg (by rw [hr, hl]; decide), if_pos hUnder]
  exact ⟨⟨y, hy, hSlot⟩, rfl⟩

/-! ## The outputs at an assertion (R165, R175) -/

theorem winner_fire_of_levels {c : Settings} {o : OutputUnit} {ch : Channel} {p : Nat} (hFire : chGet o.fire ch = some p)
    (hSeq : c.outputs.lvlSeq ≤ 3) (hGuard : c.outputs.lvlGuard ≤ 3) (hManual : c.outputs.lvlManual ≤ 3) :
    winner c o ch = some .fire := by
  refine winner_eq_some_iff.2 ⟨?_, fun x _ => ?_⟩
  · rw [show demandOf o ch .fire = some p from hFire]
    exact nofun
  · cases x
    case fire => exact .inr ⟨rfl, Nat.le_refl _⟩
    case guard => exact .inl (Nat.lt_succ_of_le hGuard)
    case manual => exact .inl (Nat.lt_succ_of_le hManual)
    case sequencer => exact .inl (Nat.lt_succ_of_le hSeq)

/-- The Sequencer suspended and the own claim processes ended, before the outputs take the fire demands; a RESTART that waits keeps
both (R51, R84, R212). -/
def fireStopped (s : State) : State := if running s then forBoth fireProc (suspend s) else s

theorem fireStopped_works (s : State) : Works s (fireStopped s) := by
  unfold fireStopped
  split
  · exact fireProc_works _ (fireProc_works _ (suspend_works s))
  · exact .refl

theorem fireStopped_same (s : State) : (fireStopped s).out = s.out ∧ (fireStopped s).port = s.port := by
  unfold fireStopped
  split
  · have hActs := fireProcs_claimActs (suspend s)
    exact ⟨(ClaimActs.out hActs).trans (suspend_out s), (ClaimActs.port hActs).trans (suspend_port s)⟩
  · exact ⟨rfl, rfl⟩

theorem fireStopped_seq (h : running s = true) : (fireStopped s).seq = (suspend s).seq := by
  unfold fireStopped
  rw [if_pos h]
  exact ClaimActs.seq (fireProcs_claimActs _)

theorem fireStopped_of_held (h : running s = false) : fireStopped s = s := if_neg (by rw [h]; exact nofun)

/-- What an assertion leaves, s being the station that has taken the filtered level. -/
structure FireAsserted (s t : State) : Prop where
  seq : t.seq = (fireStopped s).seq
  claims : t.claims = (fireStopped s).claims
  link : t.link = (fireStopped s).link
  port : t.port = (post (.fireAsserted s.cfg.outputs.fire) s).port
  out : t.out = { s.out with
    fire := s.cfg.outputs.fire, present := t.out.present, acc := t.out.acc, wheelRun := t.out.wheelRun
    completionPending := t.out.completionPending }
  present : ∀ ch, chGet t.out.present ch = settledAt s.cfg { s.out with fire := s.cfg.outputs.fire } ch

theorem assertFire_asserted (s : State) : FireAsserted s (assertFire s) := by
  obtain ⟨hOut, hPort⟩ := fireStopped_same s
  have hCfg : (fireStopped s).cfg = s.cfg := congrArg Port.cfg hPort
  have hNow : (fireStopped s).now = s.now := (fireStopped_works s).now_eq
  have hTaken := outputsFireAsserted_taken (fireStopped s)
  have hRunning : running (outputsFireAsserted (fireStopped s)) = running s := by
    unfold running
    rw [hTaken.port, ← hPort]
    rfl
  have hStill : ∃ b, assertFire s = (outputsFireAsserted (fireStopped s)).setOut
      { (outputsFireAsserted (fireStopped s)).out with completionPending := b } := by
    by_cases hRun : running s = true
    · refine settleRamps_of_still (.inr ?_)
      show (outputsFireAsserted (fireStopped s)).seq.phase ≠ some .ramping
      rw [hTaken.seq, fireStopped_seq hRun]
      exact suspend_unramping s
    · exact settleRamps_of_held (hRunning.trans (Bool.not_eq_true _ ▸ hRun))
  obtain ⟨b, hb⟩ := hStill
  rw [hb]
  constructor
  case seq => exact hTaken.seq
  case claims => exact hTaken.claims
  case link => exact hTaken.link
  case port =>
    rw [State.setOut_port, hTaken.port, hCfg]
    exact post_port_congr hPort hNow _
  case out =>
    have hDemanded := hTaken.out
    rw [hOut, hCfg] at hDemanded
    exact congrArg (fun o : OutputUnit => { o with completionPending := b }) hDemanded
  case present =>
    intro ch
    rw [State.setOut_out]
    have h := hTaken.present ch
    rwa [hOut, hCfg] at h

theorem levelMarked_kept (level : Bool) (s : State) : (levelMarked level s).seq = s.seq ∧ (levelMarked level s).claims = s.claims
    ∧ (levelMarked level s).port = s.port ∧ (levelMarked level s).now = s.now ∧ (levelMarked level s).decision = s.decision
    ∧ (levelMarked level s).peers = s.peers ∧ (levelMarked level s).link.state = s.link.state
    ∧ (levelMarked level s).out = { s.out with fireFiltered := level, fireSince := none } := by
  have hState : (levelMarked level s).link.state = s.link.state := (queueAlert_sequence _).2.1
  rw [levelMarked_eq] at *
  exact ⟨rfl, rfl, rfl, rfl, rfl, rfl, hState, rfl⟩

theorem procOf_levelMarked (level : Bool) (s : State) (x : Resource) : procOf (levelMarked level s) x = procOf s x := by
  obtain ⟨-, hClaims, -⟩ := levelMarked_kept level s
  rw [procOf, hClaims]
  rfl

/-- The station after an assertion of the filtered level. -/
def assertedFrom (s : State) : State := assertFire (levelMarked true s)

theorem assertedFrom_out (s : State) : (assertedFrom s).out = { s.out with
    fireFiltered := true, fireSince := none, fire := s.cfg.outputs.fire, present := (assertedFrom s).out.present
    acc := (assertedFrom s).out.acc, wheelRun := (assertedFrom s).out.wheelRun
    completionPending := (assertedFrom s).out.completionPending } := by
  obtain ⟨-, -, hPort, -, -, -, -, hOut⟩ := levelMarked_kept true s
  have hTaken := (assertFire_asserted (levelMarked true s)).out
  rw [hOut, show (levelMarked true s).cfg = s.cfg from congrArg Port.cfg hPort] at hTaken
  exact hTaken

theorem assertedFrom_present (hSeq : s.cfg.outputs.lvlSeq ≤ 3) (hGuard : s.cfg.outputs.lvlGuard ≤ 3) (hManual : s.cfg.outputs.lvlManual ≤ 3)
    {ch : Channel} {p : Nat} (hp : chGet s.cfg.outputs.fire ch = some p) : chGet (assertedFrom s).out.present ch = p := by
  obtain ⟨-, -, hPort, -⟩ := levelMarked_kept true s
  have hPresent := (assertFire_asserted (levelMarked true s)).present ch
  rw [show (levelMarked true s).cfg = s.cfg from congrArg Port.cfg hPort] at hPresent
  exact hPresent.trans (settledAt_fire hp (winner_fire_of_levels hp hSeq hGuard hManual))

theorem assertedFrom_posted (hRoom : HasRoom s) : Posted (.fireAsserted s.cfg.outputs.fire) s (assertedFrom s) := by
  obtain ⟨-, -, hPort, hNow, -⟩ := levelMarked_kept true s
  have hTaken := (assertFire_asserted (levelMarked true s)).port
  rw [show (levelMarked true s).cfg = s.cfg from congrArg Port.cfg hPort, post_port_congr hPort hNow] at hTaken
  exact (congrArg Port.notices hTaken).trans (posted_post_of_room hRoom _)

theorem levelMarked_running (level : Bool) (s : State) : running (levelMarked level s) = running s := by
  obtain ⟨-, -, hPort, -⟩ := levelMarked_kept level s
  rw [running, hPort]
  rfl

theorem assertedFrom_of_restarting (h : s.port.restarting = true) : (assertedFrom s).seq = s.seq
    ∧ (assertedFrom s).claims = s.claims ∧ (assertedFrom s).link = s.link := by
  obtain ⟨hSeq, hClaims, -⟩ := levelMarked_kept true s
  have hHeld : running (levelMarked true s) = false := by rw [levelMarked_running, running, h, Bool.not_true, Bool.and_false]
  have hLink : (levelMarked true s).link = s.link := by
    unfold levelMarked
    rw [queueAlert_of_restarting]
    · rfl
    · exact h
  have hTaken := assertFire_asserted (levelMarked true s)
  have hs := hTaken.seq
  have hc := hTaken.claims
  have hl := hTaken.link
  rw [fireStopped_of_held hHeld] at hs hc hl
  exact ⟨hs.trans hSeq, hc.trans hClaims, hl.trans hLink⟩

theorem assertedFrom_works (s : State) : ∃ u, Works (levelMarked true s) u ∧ (assertedFrom s).link = u.link :=
  ⟨_, fireStopped_works _, (assertFire_asserted _).link⟩

theorem assertedFrom_alert (hr : s.port.restarting = false) (hc : s.link.state ≠ .clashed)
    (ha : ∀ y, s.link.attempt = some y → y.slot ≠ .alert) :
    (assertedFrom s).link.alertSlot = some (s.link.alertSlot.getD s.now) := by
  obtain ⟨u, hWorks, hLink⟩ := assertedFrom_works s
  rw [hLink, hWorks.sameLine.alert]
  exact queueAlert_slot (s := s.setOut _) hr hc ha

theorem assertedFrom_mark {y : Attempt} (hr : s.port.restarting = false) (hl : s.link.state = .online) (hy : s.link.attempt = some y)
    (hSlot : y.slot = .alert) : (assertedFrom s).link.alertMark = true := by
  obtain ⟨u, hWorks, hLink⟩ := assertedFrom_works s
  rw [hLink]
  exact (hWorks.alertMarked (queueAlert_marked (s := s.setOut _) hr hl hy hSlot)).2

theorem assertedFrom_seq {p : Phase} (hRun : running s = true) (hp : s.seq.phase = some p) (hNot : p ≠ .suspended) :
    (assertedFrom s).seq = suspendedSeq s := by
  obtain ⟨hSeq, hClaims, -, hNow, -⟩ := levelMarked_kept true s
  have hStart : suspendedSeq (levelMarked true s) = suspendedSeq s := by
    unfold suspendedSeq suspensionOf
    rw [hSeq, hNow, procOf_levelMarked, procOf_levelMarked]
  rw [assertedFrom, (assertFire_asserted _).seq, fireStopped_seq ((levelMarked_running true s).trans hRun), suspend_seq, hStart]
  · rw [hSeq, hp]; exact fun e => hNot (Option.some.inj e)
  · rw [hSeq, hp]; exact nofun

theorem assertedFrom_spares (hRun : running s = true) (x : Resource) : FireSpares x s (assertedFrom s) := by
  have hStopped : fireStopped (levelMarked true s) = forBoth fireProc (suspend (levelMarked true s)) :=
    if_pos ((levelMarked_running true s).trans hRun)
  refine (fireProcs_spare (suspend (levelMarked true s)) x).congr ?_ ?_
  · rw [procOf, suspend_claims]
    exact procOf_levelMarked true s x
  · rw [procOf, assertedFrom, (assertFire_asserted _).claims, hStopped]
    rfl

/-! ## The levels taken by the filter -/

theorem execFireFilterExpiry_of_open (hDue : fireFilterDue s = true) (hOpen : s.port.closed = false) :
    exec .fireFilterExpiry s = .next (s.setOut { s.out with fireFiltered := s.firePin, fireSince := none }) := by
  have hChange : fireChanges s.firePin s = s.setOut { s.out with fireFiltered := s.firePin, fireSince := none } :=
    if_pos (by simp [hOpen])
  show Host.Outcome.next (if fireFilterDue s then _ else s) = _
  rw [if_pos hDue, hChange]

theorem fireChanges_of_closed (level : Bool) (hClosed : s.port.closed = true) : fireChanges level s
    = if level then assertedFrom s else releaseFire (levelMarked false s) := by
  refine (if_neg (by simp [hClosed])).trans ?_
  cases level <;> rfl

theorem execFireFilterExpiry_of_closed (hDue : fireFilterDue s = true) (hClosed : s.port.closed = true) :
    exec .fireFilterExpiry s = .next (if s.firePin then assertedFrom s else releaseFire (levelMarked false s)) := by
  show Host.Outcome.next (if fireFilterDue s then _ else s) = _
  rw [if_pos hDue, fireChanges_of_closed _ hClosed]

end

end Sys2Proof.Machine
end

section
/-! PROOF. The Sequencer once it has left SUSPENDED (R53): nothing but an assertion of FIRE takes it back there. -/

namespace Sys2Proof.Machine

section
variable {s t u : State}

/-- The Sequencer is not SUSPENDED. -/
def Awake (s : State) : Prop := s.seq.phase ≠ some .suspended

theorem Awake.of_seq (h : Awake s) (hSeq : t.seq = s.seq) : Awake t := by rwa [Awake, hSeq]

theorem Awake.of_phase {p : Phase} (hp : p ≠ .suspended) (h : s.seq.phase = some p) : Awake s := by
  rw [Awake, h]
  exact fun e => hp (Option.some.inj e)

theorem Awake.of_claiming (h : Awake s) (hActs : Acts Part.claiming s t) : Awake t := h.of_seq (ClaimActs.seq hActs)

theorem Awake.ite {c : Prop} [Decidable c] {a b : State} (ha : Awake a) (hb : Awake b) : Awake (if c then a else b) := by
  split <;> assumption

/-! ## Transitions (R31 to R47) -/

theorem enterRamping_awake (m : Mode) (s : State) : Awake (enterRamping m s) :=
  .of_phase (p := .ramping) nofun (by rw [enterRamping_seq])

theorem enterWaitOrRamp_awake (m : Mode) (f : Bool) (s : State) : Awake (enterWaitOrRamp m f s) :=
  .ite (enterRamping_awake m s) (.of_phase (p := .followWait) nofun (by rw [setPhase_seq]))

theorem enterFirstPhase_awake (m : Mode) (f : Bool) (s : State) : Awake (enterFirstPhase m f s) := by
  unfold enterFirstPhase
  split
  next r _ =>
    have hClaiming : Awake (setPhase .claiming s) := .of_phase (p := .claiming) nofun (by rw [setPhase_seq])
    exact .ite (enterWaitOrRamp_awake m f s) (hClaiming.of_claiming (requestClaim_claimActs r _))
  · exact enterWaitOrRamp_awake m f s

theorem beginTransition_awake (m : Mode) (f : Bool) (s : State) : Awake (beginTransition m f s) := enterFirstPhase_awake m f _

theorem startTest_awake (h : Awake s) : Awake (startTest s) := by
  unfold startTest
  split
  · exact h
  · exact .ite (beginTransition_awake _ _ s) h

theorem exitTest_awake (h : Awake s) : Awake (exitTest s) := .ite (beginTransition_awake _ _ s) h

theorem afterSettled_awake (h : Awake s) : Awake (afterSettled s) := exitTest_awake (startTest_awake h)

theorem toSettled_awake (s : State) : Awake (toSettled s) := .of_phase (p := .settled) nofun (by rw [toSettled_seq])

theorem postSet_awake (d : DemandSet) (h : Awake s) : Awake (postSet d s) := by
  rw [Awake, postSet_seq]
  exact h

/-! ## Evaluation records and forced leave (R42 to R50) -/

theorem desireAgainst_awake (x : Transition) (h : Awake s) : Awake (desireAgainst x s) := by
  unfold desireAgainst
  split
  · exact h
  · exact .ite h (.ite (enterRamping_awake _ _) (.ite h (afterSettled_awake (toSettled_awake _))))

theorem runningUpdate_awake (h : Awake s) : Awake (runningUpdate s) := by
  unfold runningUpdate
  split
  · exact h
  · split
    · split
      · exact postSet_awake _ h
      · exact h
    · split
      · split
        · exact postSet_awake _ h
        · exact h
      · exact h

theorem updateCandidate_awake (m : Mode) (h : Awake s) : Awake (updateCandidate m s) := .ite h h

theorem takeRecord_awake (h : Awake s) : Awake (takeRecord s) := by
  unfold takeRecord
  split
  · exact h
  next m _ =>
    have hCounted := updateCandidate_awake m h
    refine .ite h ?_
    dsimp only
    split
    · exact startTest_awake (runningUpdate_awake hCounted)
    · exact hCounted
    · exact desireAgainst_awake _ hCounted
    · exact hCounted

theorem leaveNow_awake (m : Mode) (h : Awake s) : Awake (leaveNow m s) := .ite (beginTransition_awake _ _ _) (afterSettled_awake h)

/-! ## Ramp completions (R40) -/

theorem rampCompleted_awake (m : Mode) (s : State) : Awake (rampCompleted m s) := by
  unfold rampCompleted
  dsimp only
  split
  · exact leaveNow_awake _ (toSettled_awake _)
  · exact afterSettled_awake (toSettled_awake _)

theorem reportOnce_awake (h : Awake s) : Awake (reportOnce s) := by
  refine .ite ?_ h
  unfold takeCompletion
  split
  · exact h
  · exact .ite (rampCompleted_awake _ _) h

theorem reportAll_awake (n : Nat) (h : Awake s) : Awake (reportAll n s) := by
  induction n generalizing s with
  | zero => exact h
  | succ n ih => exact .ite (ih (reportOnce_awake h)) h

theorem settleRamps_awake (h : Awake s) : Awake (settleRamps s) := reportAll_awake 8 h

/-! ## Evaluations (R25) -/

theorem moveLimit_awake (n : LimitName) (v : LimitState) (b : NoticeBody) (h : Awake s) : Awake (moveLimit n v b s) := by
  have hGuards {u : State} (hu : Awake u) : Awake (postGuards u) := .ite hu (hu.of_seq (changeDemands_moved _ _).seq)
  have hFollow {u : State} (hu : Awake u) : Awake (followHold u) := .ite (startTest_awake hu) hu
  exact hFollow (hGuards (.ite h h))

theorem takeEstimate_awake (h : Awake s) : Awake (takeEstimate s) := by
  have hJudge (n : LimitName) (trip v : Int) (src : TripSource) : Awake (judge n trip v src s) := by
    unfold judge
    split
    · exact .ite (moveLimit_awake _ _ _ h) h
    · exact .ite (moveLimit_awake _ _ _ h) h
  unfold takeEstimate
  split
  · exact h
  · exact .ite h (hJudge _ _ _ _)

theorem evaluate_awake (h : Awake s) : Awake (evaluate s) := by
  have hSequencer {u : State} (hu : Awake u) : Awake (handToSequencer u) := settleRamps_awake (takeRecord_awake hu)
  have hLimits {u : State} (hu : Awake u) : Awake (handToLimits u) := settleRamps_awake (takeEstimate_awake hu)
  have hMade : Awake (makeRecord s) := h.of_seq ((makeRecord_acts (P := Part.unsequenced) .refl rfl rfl rfl).seq_eq rfl)
  have hFirst := hLimits (hSequencer hMade)
  have hSecond := hSequencer (hLimits hMade)
  unfold evaluate unordered
  exact .ite hFirst (.ite (hFirst.of_seq (State.setChoices_seq ..)) (hSecond.of_seq (State.setChoices_seq ..)))

/-! ## The release (R53) -/

theorem rampBack_awake {m : Mode} (h : s.seq.mode = some m) : Awake (rampBack s) := by
  unfold rampBack
  rw [h]
  exact enterRamping_awake _ _

theorem resume_awake (x : Suspension) (s : State) : Awake (resume x s) := by
  unfold resume
  dsimp only
  split
  · exact .ite (afterSettled_awake ((toSettled_awake _).of_seq rfl)) (enterFirstPhase_awake _ _ _)
  · exact enterWaitOrRamp_awake _ _ _
  · exact enterRamping_awake _ _

theorem releaseSettled_awake (s : State) : Awake (releaseSettled s) := by
  have hSettled : Awake (setPhase .settled s) := .of_phase (p := .settled) nofun (by rw [setPhase_seq])
  have hPosted : Awake (reposted (setPhase .settled s)) := by
    unfold reposted
    split
    · exact hSettled
    · exact postSet_awake _ hSettled
  refine Awake.ite (exitTest_awake hPosted) ?_
  show Awake (match (reposted (setPhase .settled s)).seq.forcedPending with
    | some m => leaveNow m (reposted (setPhase .settled s))
    | none => startTest (reposted (setPhase .settled s)))
  split
  · exact leaveNow_awake _ hPosted
  · exact startTest_awake hPosted

theorem resumeOrSettle_awake {m : Mode} (h : s.seq.mode = some m) : Awake (resumeOrSettle s) := by
  have hBack (x : Suspension) : Awake (rampBack (dropRecord x s)) := rampBack_awake (s := dropRecord x s) h
  unfold resumeOrSettle
  split
  next hp => exact fun e => by rw [e] at hp; exact absurd hp (by decide)
  · split
    · exact beginTransition_awake _ _ _
    · split
      · exact releaseSettled_awake s
      · exact .ite (hBack _) (.ite (resume_awake _ s) (hBack _))

end

end Sys2Proof.Machine
end

section
/-! PROOF. The release of FIRE (R53, R54, R174): what it takes off the outputs, and how the Sequencer goes on before the evaluation. -/

namespace Sys2Proof.Machine

section
variable {s t u v w : State} {r : Resource} {m : Mode} {f : Bool}

/-! ## The release in steps -/

/-- The outputs have taken the fire demands off, s being the station that has taken the filtered level. -/
def fireLifted (s : State) : State := settleRamps (outputsFireReleased s)

/-- The waiting requests have been taken too, and the Sequencer's part comes next. -/
def fireCalmed (s : State) : State := forBoth takeWaiting (fireLifted s)

/-- The Sequencer has left SUSPENDED, and the evaluation comes next. -/
def fireEnded (s : State) : State := settleRamps (resumeOrSettle (fireCalmed s))

theorem releaseFire_eq (s : State) : releaseFire s
    = if running (fireLifted s) then requestEvaluation (fireEnded s) else fireLifted s := rfl

/-- The parts that the release changes before its evaluation, and after the fire demands are off. -/
def Part.lifting : Part → Bool := fun p => p != .fire && p != .manuals && p != .decision && p != .restarting

theorem lifting_sequences : Sequences Part.lifting := ⟨rfl, rfl, rfl, rfl, rfl, rfl⟩

/-- The parts that the release changes after the fire demands are off. -/
def Part.unfired : Part → Bool := fun p => p != .fire && p != .manuals

theorem unfired_evaluates : Evaluates Part.unfired := ⟨⟨⟨rfl, rfl, rfl, rfl, rfl, rfl⟩, rfl, rfl⟩, rfl, rfl, rfl⟩

theorem fireLifted_acts (s : State) : Acts Part.lifting (outputsFireReleased s) (fireLifted s) := settleRamps_acts .refl lifting_sequences

theorem fireEnded_acts (s : State) : Acts Part.lifting (outputsFireReleased s) (fireEnded s) :=
  settleRamps_acts (resumeOrSettle_acts (forBoth_acts (fun _ _ h => takeWaiting_acts _ h rfl rfl) (fireLifted_acts s)) lifting_sequences)
    lifting_sequences

theorem releaseFire_unfired (s : State) : Acts Part.unfired (outputsFireReleased s) (releaseFire s) := by
  have hLifted : Acts Part.unfired (outputsFireReleased s) (fireLifted s) := settleRamps_acts .refl unfired_evaluates.toSequences
  exact ite_acts (requestEvaluation_acts (settleRamps_acts (resumeOrSettle_acts
    (forBoth_acts (fun _ _ h => takeWaiting_acts _ h rfl rfl) hLifted) unfired_evaluates.toSequences) unfired_evaluates.toSequences)
    unfired_evaluates) hLifted

/-! ## The outputs at a release (R175) -/

/-- The Output Unit at a release: the fire demands come off, with the notice. -/
structure FireLifted (s t : State) : Prop where
  moved : ∃ v, Moved (s.setOut { s.out with fire := ⟨none, none, none⟩ }) v ∧ t = post .fireReleased v
  present : ∀ ch, winner s.cfg { s.out with fire := ⟨none, none, none⟩ } ch = some .sequencer →
    chGet t.out.present ch = chGet s.out.present ch

/-- A channel that the Sequencer wins stands where it stood when the demands change (R167). -/
theorem changeDemands_unmoved {g : OutputUnit → OutputUnit} {ch : Channel} (hWins : winner s.cfg (g s.out) ch = some .sequencer)
    (hPresent : (g s.out).present = s.out.present) : chGet (changeDemands g s).out.present ch = chGet s.out.present ch := by
  refine (changeDemands_present g s ch).trans ((settledAt_of_slewed fun v hv => ?_).trans (congrArg (chGet · ch) hPresent))
  rw [aim, hWins] at hv
  simp [jumps] at hv

theorem outputsFireReleased_lifted (s : State) : FireLifted s (outputsFireReleased s) :=
  ⟨⟨_, changeDemands_moved (fun o => { o with fire := ⟨none, none, none⟩ }) s, rfl⟩, fun _ hWins =>
    changeDemands_unmoved (g := fun o => { o with fire := ⟨none, none, none⟩ }) hWins rfl⟩

theorem outputsFireReleased_out (s : State) : (outputsFireReleased s).out = { s.out with
    fire := ⟨none, none, none⟩, present := (outputsFireReleased s).out.present, acc := (outputsFireReleased s).out.acc
    wheelRun := (outputsFireReleased s).out.wheelRun } :=
  (changeDemands_moved (fun o => { o with fire := ⟨none, none, none⟩ }) s).out

/-! ## What every release leaves -/

/-- The station after a release of the filtered level. -/
def releasedFrom (s : State) : State := releaseFire (levelMarked false s)

theorem releasedFrom_out (s : State) : (releasedFrom s).out.fireFiltered = false ∧ (releasedFrom s).out.fireSince = none
    ∧ (releasedFrom s).out.fire = ⟨none, none, none⟩ ∧ (releasedFrom s).out.manual = s.out.manual := by
  obtain ⟨-, -, -, -, -, -, -, hOut⟩ := levelMarked_kept false s
  have hActs := releaseFire_unfired (levelMarked false s)
  obtain ⟨hFire, hFiltered, hSince⟩ := hActs.fire_eq rfl
  have hManual := hActs.manual_eq rfl
  rw [outputsFireReleased_out, hOut] at hFire hFiltered hSince hManual
  exact ⟨hFiltered, hSince, hFire, hManual⟩

theorem fireEnded_kept (s : State) : (fireEnded (levelMarked false s)).decision = s.decision
    ∧ (fireEnded (levelMarked false s)).out.fire = ⟨none, none, none⟩
    ∧ running (fireEnded (levelMarked false s)) = running s ∧ running (fireLifted (levelMarked false s)) = running s := by
  obtain ⟨-, -, hPort, -, hDecision, -⟩ := levelMarked_kept false s
  obtain ⟨v, hMoved, hPosted⟩ := (outputsFireReleased_lifted (levelMarked false s)).moved
  have hEnded := fireEnded_acts (levelMarked false s)
  have hLifted := fireLifted_acts (levelMarked false s)
  have hFire := (hEnded.fire_eq rfl).1
  rw [outputsFireReleased_out] at hFire
  have hStart : (outputsFireReleased (levelMarked false s)).decision = s.decision ∧
      running (outputsFireReleased (levelMarked false s)) = running s := by
    rw [hPosted]
    refine ⟨hMoved.decision.trans hDecision, ?_⟩
    have hSame : running (post .fireReleased v) = running v := rfl
    rw [hSame, running, hMoved.port]
    exact levelMarked_running false s
  have hRunning {x : State} (h : Acts Part.lifting (outputsFireReleased (levelMarked false s)) x) : running x = running s := by
    rw [← hStart.2, running, running, h.closed, h.restarting_eq rfl]
  exact ⟨(hEnded.decision_eq rfl).trans hStart.1, hFire, hRunning hEnded, hRunning hLifted⟩

theorem releasedFrom_eq (hRun : running s = true) : releasedFrom s = evaluate (fireEnded (levelMarked false s)) := by
  obtain ⟨-, -, hEnded, hLifted⟩ := fireEnded_kept s
  unfold releasedFrom
  rw [releaseFire_eq, hLifted, if_pos hRun, requestEvaluation, hEnded, if_pos hRun]

theorem releasedFrom_counter (hRun : running s = true) : (releasedFrom s).decision.counter = s.decision.counter + 1 := by
  obtain ⟨hDecision, -, hEnded, -⟩ := fireEnded_kept s
  obtain ⟨hClosed, hWaits⟩ := running_iff.1 (hEnded.trans hRun)
  have hEval : requestEvaluation (fireEnded (levelMarked false s)) = releasedFrom s := by
    rw [releasedFrom_eq hRun, requestEvaluation, hEnded, if_pos hRun]
  rw [← hEval, (requestEvaluation_counter hClosed hWaits).1, hDecision]

/-! ## The release while SUSPENDED -/

/-- How the station stands when the Sequencer takes the release, s being the station before the event. -/
structure Calmed (s w : State) : Prop where
  seq : w.seq = s.seq
  decision : w.decision = s.decision
  peers : w.peers = s.peers
  now : w.now = s.now
  port : w.port = (post .fireReleased s).port
  line : w.link.state = s.link.state
  freeze : w.claims.freeze = s.claims.freeze
  filtered : w.out.fireFiltered = false
  posting : w.out.posting = s.out.posting
  away : ∀ d, RampsAway (s.setOut { s.out with fire := ⟨none, none, none⟩ }) d → RampsAway w d
  proc : ∀ r, procOf w r = procOf s r
    ∨ ((procOf s r).state = .idle ∧ (procOf w r).state = .pending ∧ (procOf w r).attempt = 1)
  taken : ∀ r, s.claims.freeze = false → (procOf w r).state = .idle → (procOf w r).request = false

theorem Calmed.cfg (h : Calmed s w) : w.cfg = s.cfg := (congrArg Port.cfg h.port).trans rfl

theorem takeWaiting_proc (x : Resource) (s : State) (r : Resource) : procOf (takeWaiting x s) r = procOf s r
    ∨ ((procOf s r).state = .idle ∧ (procOf (takeWaiting x s) r).state = .pending ∧ (procOf (takeWaiting x s) r).attempt = 1) := by
  by_cases hr : r = x
  · subst hr
    by_cases h : (procOf s r).state = .idle ∧ (procOf s r).request = true ∧ heldBack s = false
    · obtain ⟨hp, hRequest, hBack⟩ := h
      rw [takeWaiting_of_waiting hp hRequest hBack, beginAttempt_proc]
      exact .inr ⟨hp, rfl, rfl⟩
    · rw [takeWaiting_of_other h]
      exact .inl rfl
  · exact .inl (takeWaiting_other hr).1

theorem takeBoth_proc (s : State) (r : Resource) : procOf (forBoth takeWaiting s) r = procOf s r
    ∨ ((procOf s r).state = .idle ∧ (procOf (forBoth takeWaiting s) r).state = .pending
      ∧ (procOf (forBoth takeWaiting s) r).attempt = 1) := by
  show procOf (takeWaiting .defrost (takeWaiting .relief s)) r = _ ∨ _
  cases r with
  | relief =>
    have hSame := (takeWaiting_other (s := takeWaiting .relief s) (r := .defrost) (x := .relief) nofun).1
    have h := takeWaiting_proc .relief s .relief
    rwa [← hSame] at h
  | defrost =>
    have hSame := (takeWaiting_other (s := s) (r := .relief) (x := .defrost) nofun).1
    have h := takeWaiting_proc .defrost (takeWaiting .relief s) .defrost
    rwa [hSame] at h

theorem takeBoth_taken (hFreeze : s.claims.freeze = false) (hf : s.out.fireFiltered = false)
    (hp : (procOf (forBoth takeWaiting s) r).state = .idle) : (procOf (forBoth takeWaiting s) r).request = false := by
  have hEnded := takeBoth_ended hFreeze r
  by_cases h : (procOf s r).state = .idle ∧ (procOf s r).request = true ∧ s.out.fireFiltered = false
  · obtain ⟨hPending, -⟩ := hEnded.1 h
    cases hp.symm.trans hPending
  · have hSame := (hEnded.2 h).1
    rw [hSame] at hp ⊢
    refine Classical.byContradiction fun hRequest => ?_
    exact h ⟨hp, Bool.not_eq_false _ ▸ hRequest, hf⟩

theorem fireLifted_eq (hp : s.seq.phase = some .suspended) :
    ∃ b, fireLifted s = (outputsFireReleased s).setOut { (outputsFireReleased s).out with completionPending := b } := by
  obtain ⟨v, hMoved, hPosted⟩ := (outputsFireReleased_lifted s).moved
  refine settleRamps_of_still (.inr ?_)
  have hSeq : (outputsFireReleased s).seq = s.seq := by
    rw [hPosted]
    exact hMoved.seq
  rw [hSeq, hp]
  exact nofun

/-- Before the waiting requests are taken. -/
theorem fireLifted_calmed (hp : s.seq.phase = some .suspended) : (fireLifted (levelMarked false s)).seq = s.seq
    ∧ (fireLifted (levelMarked false s)).decision = s.decision ∧ (fireLifted (levelMarked false s)).peers = s.peers
    ∧ (fireLifted (levelMarked false s)).now = s.now ∧ (fireLifted (levelMarked false s)).port = (post .fireReleased s).port
    ∧ (fireLifted (levelMarked false s)).link.state = s.link.state ∧ (fireLifted (levelMarked false s)).claims = s.claims := by
  obtain ⟨hSeq, hClaims, hPort, hNow, hDecision, hPeers, hLine, -⟩ := levelMarked_kept false s
  obtain ⟨b, hb⟩ := fireLifted_eq (s := levelMarked false s) (by rw [hSeq]; exact hp)
  obtain ⟨v, hMoved, hPosted⟩ := (outputsFireReleased_lifted (levelMarked false s)).moved
  rw [hb, hPosted]
  exact ⟨hMoved.seq.trans hSeq, hMoved.decision.trans hDecision, hMoved.peers.trans hPeers, hMoved.now.trans hNow,
    post_port_congr (hMoved.port.trans hPort) (hMoved.now.trans hNow) _, (congrArg Link.state hMoved.link).trans hLine,
    hMoved.claims.trans hClaims⟩

theorem outputsFireReleased_winner (s : State) (ch : Channel) : winner s.cfg (outputsFireReleased s).out ch
    = winner s.cfg { s.out with fire := ⟨none, none, none⟩ } ch := by
  obtain ⟨v, hMoved, hPosted⟩ := (outputsFireReleased_lifted s).moved
  rw [hPosted]
  exact hMoved.winner s.cfg ch

theorem winner_levelMarked (level : Bool) (s : State) (ch : Channel) :
    winner s.cfg { (levelMarked level s).out with fire := ⟨none, none, none⟩ } ch
      = winner s.cfg { s.out with fire := ⟨none, none, none⟩ } ch := by
  obtain ⟨-, -, -, -, -, -, -, hOut⟩ := levelMarked_kept level s
  rw [hOut]
  exact winner_congr (fun src => by cases src <;> rfl) _

theorem fireLifted_away {d : DemandSet} (hp : s.seq.phase = some .suspended)
    (h : RampsAway (s.setOut { s.out with fire := ⟨none, none, none⟩ }) d) : RampsAway (fireLifted (levelMarked false s)) d := by
  obtain ⟨ch, hWins, hAway⟩ := h
  obtain ⟨hSeq, -, hPort, -, -, -, -, hOut⟩ := levelMarked_kept false s
  have hCfg : (levelMarked false s).cfg = s.cfg := congrArg Port.cfg hPort
  obtain ⟨-, -, -, -, hPortLifted, -⟩ := fireLifted_calmed hp
  have hCfgLifted : (fireLifted (levelMarked false s)).cfg = s.cfg := (congrArg Port.cfg hPortLifted).trans rfl
  have hWinsMarked := (winner_levelMarked false s ch).trans hWins
  have hPresent := (outputsFireReleased_lifted (levelMarked false s)).present ch (by rw [hCfg]; exact hWinsMarked)
  have hWinner := outputsFireReleased_winner (levelMarked false s) ch
  rw [hCfg] at hWinner
  obtain ⟨b, hb⟩ := fireLifted_eq (s := levelMarked false s) (by rw [hSeq]; exact hp)
  refine ⟨ch, ?_, ?_⟩
  · rw [hCfgLifted, hb, State.setOut_out]
    exact (winner_congr (fun src => by cases src <;> rfl) _).trans (hWinner.trans hWinsMarked)
  · rw [hb, State.setOut_out]
    have hStood : chGet (levelMarked false s).out.present ch = chGet s.out.present ch := by rw [hOut]
    exact fun e => hAway ((hPresent.trans hStood).symm.trans e)

theorem fireLifted_out (hp : s.seq.phase = some .suspended) : (fireLifted (levelMarked false s)).out.fireFiltered = false
    ∧ (fireLifted (levelMarked false s)).out.posting = s.out.posting := by
  obtain ⟨hSeq, -, -, -, -, -, -, hOut⟩ := levelMarked_kept false s
  obtain ⟨b, hb⟩ := fireLifted_eq (s := levelMarked false s) (by rw [hSeq]; exact hp)
  have hFiltered : (outputsFireReleased (levelMarked false s)).out.fireFiltered = false := by
    rw [outputsFireReleased_out, hOut]
  have hPosting : (outputsFireReleased (levelMarked false s)).out.posting = s.out.posting := by
    rw [outputsFireReleased_out, hOut]
  rw [hb, State.setOut_out]
  exact ⟨hFiltered, hPosting⟩

theorem takeBoth_same (s : State) : (forBoth takeWaiting s).seq = s.seq ∧ (forBoth takeWaiting s).decision = s.decision
    ∧ (forBoth takeWaiting s).peers = s.peers ∧ (forBoth takeWaiting s).port = s.port ∧ (forBoth takeWaiting s).out = s.out := by
  have hActs : Acts Part.claiming s (forBoth takeWaiting s) := forBoth_acts (fun _ _ h => takeWaiting_acts _ h rfl rfl) .refl
  exact ⟨ClaimActs.seq hActs, ClaimActs.decision hActs, ClaimActs.peers hActs, ClaimActs.port hActs, ClaimActs.out hActs⟩

theorem fireCalmed_calmed (hp : s.seq.phase = some .suspended) : Calmed s (fireCalmed (levelMarked false s)) := by
  obtain ⟨hSeq, hDecision, hPeers, hNow, hPort, hLine, hClaims⟩ := fireLifted_calmed hp
  obtain ⟨hFiltered, hPosting⟩ := fireLifted_out hp
  obtain ⟨hSeqTaken, hDecisionTaken, hPeersTaken, hPortTaken, hOutTaken⟩ := takeBoth_same (fireLifted (levelMarked false s))
  have hWorks := takeBoth_works (fireLifted (levelMarked false s))
  have hProc (r : Resource) : procOf (fireLifted (levelMarked false s)) r = procOf s r := by
    rw [procOf, hClaims]
    rfl
  constructor
  case seq => exact hSeqTaken.trans hSeq
  case decision => exact hDecisionTaken.trans hDecision
  case peers => exact hPeersTaken.trans hPeers
  case now => exact hWorks.now_eq.trans hNow
  case port => exact hPortTaken.trans hPort
  case line => exact hWorks.sameLine.state.trans hLine
  case freeze => exact hWorks.sameClaims.freeze.trans (congrArg ClaimUnit.freeze hClaims)
  case filtered => exact (congrArg OutputUnit.fireFiltered hOutTaken).trans hFiltered
  case posting => exact (congrArg OutputUnit.posting hOutTaken).trans hPosting
  case away =>
    exact fun d hAway => (fireLifted_away hp hAway).congr (congrArg Port.cfg hPortTaken) hOutTaken
  case proc =>
    intro r
    have h := takeBoth_proc (fireLifted (levelMarked false s)) r
    rwa [hProc] at h
  case taken =>
    exact fun r hFreeze hIdle => takeBoth_taken ((congrArg ClaimUnit.freeze hClaims).trans hFreeze) hFiltered hIdle

theorem releasedFrom_awake (hRun : running s = true) (hMode : s.seq.mode ≠ none) (hp : s.seq.phase = some .suspended) :
    (releasedFrom s).seq.phase ≠ some .suspended := by
  obtain ⟨m, hm⟩ := Option.ne_none_iff_exists'.1 hMode
  rw [releasedFrom_eq hRun]
  exact evaluate_awake (settleRamps_awake (resumeOrSettle_awake (m := m) (by rw [(fireCalmed_calmed hp).seq, hm])))

end

end Sys2Proof.Machine
end

section
/-! PROOF. How the Sequencer goes on at a release of FIRE (R53, R54): from the calmed station, before the evaluation, to the phase it takes. -/

namespace Sys2Proof.Machine

section
variable {q : Sequencer} {s t u v w : State} {r : Resource} {m : Mode} {f : Bool} {x : Suspension}

/-! ## What the Sequencer reads -/

theorem Calmed.desires (h : Calmed s w) : confirmed w = confirmed s :=
  confirmed_congr h.cfg (congrArg Sequencer.candidate h.seq) (congrArg Sequencer.count h.seq)

/-- The notices of the release: FIRE_RELEASED, and those that u has over w. -/
theorem Calmed.posted {l : List NoticeBody} (h : Calmed s w) (hl : l.length ≤ 1) (hu : u.port = (postAll l w).port)
    (hRoom : s.port.notices.length ≤ 14) : u.port.notices = s.port.notices ++ (NoticeBody.fireReleased :: l).map fun b => noticeNow b s := by
  have hPosted : u.port = (postAll (.fireReleased :: l) s).port := hu.trans (postAll_port_congr l h.port h.now)
  rw [hPosted]
  refine (postAll_of_room _ ?_).1
  show s.port.notices.length + (l.length + 1) ≤ 16
  omega

/-- The target's demand set is formed and posted; the outputs still stand elsewhere, so the ramp goes on (R39, R170). -/
theorem ramps_of_away (hSeq : v.seq = { q with transition := some ⟨m, f⟩ }) (hCfg : v.cfg = s.cfg) (hDecision : v.decision = s.decision)
    (hAway : RampsAway v (rampSet s.cfg s.decision.last m)) :
    RampingTo m f q (nextPosting v.out.posting) s (settleRamps (enterRamping m v))
      ∧ (settleRamps (enterRamping m v)).port = v.port := by
  have hSame : rampSet v.cfg v.decision.last m = rampSet s.cfg s.decision.last m := by rw [hCfg, hDecision]
  have hDue : completionDue (enterRamping m v) = false := enterRamping_completionDue m v (by rw [hSame]; exact hAway)
  rw [settleRamps_of_not_due hDue]
  have hRamping : RampingTo m f v.seq _ v (enterRamping m v) := enterRamping_rampingTo (by rw [hSeq])
  unfold RampingTo at hRamping
  rw [hSame] at hRamping
  obtain ⟨hTaken, hSet, hPosting⟩ := hRamping
  exact ⟨⟨hTaken.trans (by rw [hSeq]), hSet, hPosting⟩, enterRamping_port m v⟩

theorem Calmed.ramps (h : Calmed s w) (hSeq : v.seq = { q with transition := some ⟨m, f⟩ }) (hOut : v.out = w.out) (hCfg : v.cfg = w.cfg)
    (hDecision : v.decision = w.decision)
    (hMoves : RampsAway (s.setOut { s.out with fire := ⟨none, none, none⟩ }) (rampSet s.cfg s.decision.last m)) :
    RampingTo m f q (nextPosting s.out.posting) s (settleRamps (enterRamping m v))
      ∧ (settleRamps (enterRamping m v)).port = v.port := by
  have hPosting : v.out.posting = s.out.posting := (congrArg OutputUnit.posting hOut).trans h.posting
  rw [← hPosting]
  exact ramps_of_away hSeq (hCfg.trans h.cfg) (hDecision.trans h.decision) ((h.away _ hMoves).congr hCfg hOut)

theorem Calmed.waitSet (h : Calmed s w) (hCfg : v.cfg = w.cfg) (hPeers : v.peers = w.peers) : chooseWaitSet v = chooseWaitSet s := by
  unfold chooseWaitSet ownShaft ownLevel
  rw [hPeers, hCfg, h.peers, h.cfg]

/-- Where no member of the wait set ramps, or none is waited for, the ramp follows at once (R36). -/
theorem Calmed.waitsOrRamps (h : Calmed s w) (hSeq : v.seq = { q with transition := some ⟨m, f⟩ }) (hOut : v.out = w.out) (hCfg : v.cfg = w.cfg)
    (hDecision : v.decision = w.decision) (hPeers : v.peers = w.peers)
    (hOver : ¬(f = false ∧ m ≠ .safe ∧ rampingMembers s (chooseWaitSet s) ≠ []))
    (hMoves : RampsAway (s.setOut { s.out with fire := ⟨none, none, none⟩ }) (rampSet s.cfg s.decision.last m)) :
    RampingTo m f q (nextPosting s.out.posting) s (settleRamps (enterWaitOrRamp m f v))
      ∧ (settleRamps (enterWaitOrRamp m f v)).port = v.port := by
  have hWait : chooseWaitSet v = chooseWaitSet s := h.waitSet hCfg hPeers
  have hMembers : rampingMembers v (chooseWaitSet v) = rampingMembers s (chooseWaitSet s) := by
    rw [hWait]
    unfold rampingMembers
    rw [hPeers, h.peers]
  have hRamp : m = .safe ∨ f = true ∨ rampingMembers v (chooseWaitSet v) = [] := by
    rw [hMembers]
    refine Classical.byContradiction fun hNot => ?_
    simp only [not_or] at hNot
    exact hOver ⟨Bool.not_eq_true _ ▸ hNot.2.1, hNot.1, hNot.2.2⟩
  rw [enterWaitOrRamp_of_ramping hRamp]
  exact h.ramps hSeq hOut hCfg hDecision hMoves

/-! ## A confirmed SAFE (R53) -/

/-- The suspension record discarded, where there is one (R54). -/
def discarding (s : State) : State :=
  match s.seq.record with
  | some x => dropRecord x s
  | none => s

theorem discarding_seq (s : State) : (discarding s).seq = { s.seq with record := none } := by
  unfold discarding
  split
  · rfl
  next h => rw [← h]

theorem discarding_port (s : State) : (discarding s).port
    = (postAll (s.seq.record.toList.map fun x => .discarded x.target) s).port := by
  unfold discarding
  split
  next h => rw [h]; exact post_port_congr rfl rfl _
  next h => rw [h]; rfl

theorem discarding_kept (s : State) : (discarding s).out = s.out ∧ (discarding s).cfg = s.cfg ∧ (discarding s).decision = s.decision := by
  unfold discarding
  split
  · exact ⟨rfl, rfl, rfl⟩
  · exact ⟨rfl, rfl, rfl⟩

theorem Calmed.safe (h : Calmed s w) (hp : s.seq.phase = some .suspended) (hSafe : confirmed s = some .safe)
    (hMoves : RampsAway (s.setOut { s.out with fire := ⟨none, none, none⟩ }) (rampSet s.cfg s.decision.last .safe)) :
    RampingTo .safe false { s.seq with record := none, forcedPending := none } (nextPosting s.out.posting) s
        (settleRamps (resumeOrSettle w))
      ∧ (settleRamps (resumeOrSettle w)).port = (postAll (s.seq.record.toList.map fun x => .discarded x.target) w).port := by
  have hPhase : (w.seq.phase != some .suspended) = false := by rw [h.seq, hp]; rfl
  have hResume : resumeOrSettle w = enterRamping .safe (begun .safe false (discarding w)) := by
    have hBegin : resumeOrSettle w = beginTransition .safe false (discarding w) := by
      unfold resumeOrSettle
      rw [hPhase, h.desires, hSafe]
      rfl
    rw [hBegin, beginTransition_eq, enterFirstPhase_of_free rfl, enterWaitOrRamp_of_ramping (.inl rfl)]
  obtain ⟨hOut, hCfg, hDecision⟩ := discarding_kept w
  have hSeq : (begun .safe false (discarding w)).seq = { s.seq with
      record := none, forcedPending := none, transition := some ⟨.safe, false⟩ } := by
    rw [begun, State.setSeq_seq, discarding_seq, h.seq]
    rfl
  obtain ⟨hRamping, hPort⟩ := h.ramps (v := begun .safe false (discarding w)) (m := .safe) (f := false)
    (q := { s.seq with record := none, forcedPending := none }) hSeq hOut hCfg hDecision hMoves
  rw [hResume]
  refine ⟨hRamping, hPort.trans ((discarding_port w).trans ?_)⟩
  rw [h.seq]

/-! ## A record that does not resume (R54) -/

theorem resumeOrSettle_of_record (hp : s.seq.phase = some .suspended) (hSafe : confirmed s ≠ some .safe) (hx : s.seq.record = some x) :
    resumeOrSettle s = if s.seq.forcedPending.isSome then rampBack (dropRecord x s)
      else if resumable x s then resume x s else rampBack (dropRecord x s) := by
  unfold resumeOrSettle
  rw [hp, if_neg (by decide), if_neg hSafe, hx]

theorem Calmed.rampsBack (h : Calmed s w) (hMode : s.seq.mode = some m)
    (hMoves : RampsAway (s.setOut { s.out with fire := ⟨none, none, none⟩ }) (rampSet s.cfg s.decision.last m)) :
    RampingTo m false { s.seq with record := none } (nextPosting s.out.posting) s (settleRamps (rampBack (dropRecord x w)))
      ∧ (settleRamps (rampBack (dropRecord x w))).port = (postAll [.discarded x.target] w).port := by
  have hMode' : (dropRecord x w).seq.mode = some m := (congrArg Sequencer.mode h.seq).trans hMode
  have hBack : rampBack (dropRecord x w) = enterRamping m ((dropRecord x w).setSeq { (dropRecord x w).seq with
      transition := some ⟨m, false⟩ }) := by
    unfold rampBack
    rw [hMode']
  have hSeq : ((dropRecord x w).setSeq { (dropRecord x w).seq with transition := some ⟨m, false⟩ }).seq
      = { s.seq with record := none, transition := some ⟨m, false⟩ } := by
    rw [State.setSeq_seq, show (dropRecord x w).seq = { w.seq with record := none } from rfl, h.seq]
  obtain ⟨hRamping, hPort⟩ := h.ramps (v := (dropRecord x w).setSeq { (dropRecord x w).seq with transition := some ⟨m, false⟩ })
    (q := { s.seq with record := none }) hSeq rfl rfl rfl hMoves
  rw [hBack]
  exact ⟨hRamping, hPort.trans (post_port_congr rfl rfl _)⟩

/-! ## A record that resumes (R53) -/

/-- A record may resume, by what the station holds (R53). -/
def Resumes (s : State) (x : Suspension) : Prop := s.now ≤ x.start + s.cfg.outputs.tRESUME * 1000
  ∧ (confirmed s = some x.target ∨ x.forced = true)
  ∧ (∀ r, claimFor x.target = some r → (procOf s r).state ≠ .yielding
      ∧ ((match r with | .relief => x.relief | .defrost => x.defrost) = .held → (procOf s r).state = .held)
      ∧ s.link.state ≠ .offline ∧ s.link.state ≠ .clashed)

theorem recorded_iff {a b : ProcState} : (a != .held || decide (b = .held)) = true ↔ (a = .held → b = .held) := by
  by_cases h : a = .held <;> simp [h]

theorem resumable_iff (x : Suspension) (s : State) : resumable x s = true ↔ Resumes s x := by
  have hIsolated : isolated s = true ↔ s.link.state = .offline ∨ s.link.state = .clashed := by simp [isolated]
  have hTime : decide (s.now ≤ x.start + secs s.cfg.outputs.tRESUME) = true ↔ s.now ≤ x.start + s.cfg.outputs.tRESUME * 1000 :=
    decide_eq_true_iff
  unfold resumable Resumes isolatedFor
  cases hClaim : claimFor x.target with
  | none => simp [hTime]
  | some r =>
    have hLine : s.link.state ≠ .offline ∧ s.link.state ≠ .clashed ↔ isolated s = false := by
      rw [← Bool.not_eq_true, hIsolated, not_or]
    have hConfirmed : (decide (confirmed s = some x.target) || x.forced) = true ↔ confirmed s = some x.target ∨ x.forced = true := by
      rw [Bool.or_eq_true, decide_eq_true_eq]
    cases r <;> simp only [Bool.and_eq_true, recorded_iff, hTime, hConfirmed, hLine, bne_iff_ne, Option.isSome_some, Bool.and_true,
      Bool.not_eq_true', Option.some.injEq, forall_eq', and_assoc]

theorem Calmed.held_iff (h : Calmed s w) (r : Resource) : (procOf w r).state = .held ↔ (procOf s r).state = .held := by
  rcases h.proc r with hSame | ⟨hIdle, hPending, -⟩
  · rw [hSame]
  · rw [hIdle, hPending]
    exact ⟨nofun, nofun⟩

theorem Calmed.yielding_iff (h : Calmed s w) (r : Resource) : (procOf w r).state = .yielding ↔ (procOf s r).state = .yielding := by
  rcases h.proc r with hSame | ⟨hIdle, hPending, -⟩
  · rw [hSame]
  · rw [hIdle, hPending]
    exact ⟨nofun, nofun⟩

theorem Calmed.resumes_iff (h : Calmed s w) : Resumes w x ↔ Resumes s x := by
  unfold Resumes
  simp only [h.now, h.cfg, h.desires, h.line, h.held_iff, ne_eq, h.yielding_iff]

/-- The transition of a record is under way again. -/
def resuming (x : Suspension) (s : State) : State :=
  post (.resumed x.target) (s.setSeq { s.seq with record := none, transition := some { target := x.target, forced := x.forced } })

theorem Calmed.resuming_seq (h : Calmed s w) :
    (resuming x w).seq = { s.seq with record := none, transition := some ⟨x.target, x.forced⟩ } := by
  rw [show (resuming x w).seq = { w.seq with record := none, transition := some ⟨x.target, x.forced⟩ } from rfl, h.seq]

theorem resuming_port : (resuming x w).port = (postAll [.resumed x.target] w).port := post_port_congr rfl rfl _

theorem resume_of_ramping (hi : x.interrupted = .ramping) : resume x w = enterRamping x.target (resuming x w) := by
  unfold resume
  rw [hi]
  rfl

theorem resume_of_waiting (hi : x.interrupted = .followWait) : resume x w = enterWaitOrRamp x.target x.forced (resuming x w) := by
  unfold resume
  rw [hi]
  rfl

theorem resume_of_claiming (hi : x.interrupted = .claiming) (hs : ∀ r, claimFor x.target = some r → (procOf w r).state ≠ .starved) :
    resume x w = enterFirstPhase x.target x.forced (resuming x w) := by
  have hStarved : starvedFor (resuming x w) x.target = false := by
    unfold starvedFor
    split
    · rfl
    next r hr => exact decide_eq_false (hs r hr)
  have hEq : resume x w = if starvedFor (resuming x w) x.target = true then
      abandon x.target (enterFirstPhase x.target x.forced (resuming x w)) else enterFirstPhase x.target x.forced (resuming x w) := by
    unfold resume
    rw [hi]
    rfl
  rw [hEq, hStarved]
  rfl

/-- Past CLAIMING the interrupted transition goes on to FOLLOW_WAIT or RAMPING. -/
theorem Calmed.resume_past (h : Calmed s w) (hPast : x.interrupted = .followWait
      ∨ (x.interrupted = .claiming ∧ ∀ r, claimFor x.target = some r → (procOf s r).state = .held)) :
    resume x w = enterWaitOrRamp x.target x.forced (resuming x w) := by
  rcases hPast with hi | ⟨hi, hHeld⟩
  · exact resume_of_waiting hi
  · have hHeldNow (r : Resource) (hr : claimFor x.target = some r) : (procOf w r).state = .held := (h.held_iff r).2 (hHeld r hr)
    rw [resume_of_claiming hi fun r hr => by rw [hHeldNow r hr]; exact nofun]
    exact enterFirstPhase_of_backed (s := resuming x w) _ hHeldNow

theorem Calmed.resume_ramps (h : Calmed s w) (hx : x.interrupted = .ramping ∨ ((x.interrupted = .followWait
      ∨ (x.interrupted = .claiming ∧ ∀ r, claimFor x.target = some r → (procOf s r).state = .held))
      ∧ ¬(x.forced = false ∧ x.target ≠ .safe ∧ rampingMembers s (chooseWaitSet s) ≠ [])))
    (hMoves : RampsAway (s.setOut { s.out with fire := ⟨none, none, none⟩ }) (rampSet s.cfg s.decision.last x.target)) :
    RampingTo x.target x.forced { s.seq with record := none } (nextPosting s.out.posting) s (settleRamps (resume x w))
      ∧ (settleRamps (resume x w)).port = (postAll [.resumed x.target] w).port := by
  rcases hx with hi | ⟨hPast, hOver⟩
  · rw [resume_of_ramping hi]
    obtain ⟨hRamping, hPort⟩ := h.ramps (v := resuming x w) (q := { s.seq with record := none }) h.resuming_seq rfl rfl rfl hMoves
    exact ⟨hRamping, hPort.trans resuming_port⟩
  · rw [h.resume_past hPast]
    obtain ⟨hRamping, hPort⟩ := h.waitsOrRamps (v := resuming x w) (q := { s.seq with record := none }) h.resuming_seq rfl rfl rfl rfl
      hOver hMoves
    exact ⟨hRamping, hPort.trans resuming_port⟩

theorem settleRamps_of_phase {p : Phase} (hp : v.seq.phase = some p) (hNot : p ≠ .ramping) :
    (settleRamps v).seq = v.seq ∧ (settleRamps v).port = v.port ∧ (settleRamps v).claims = v.claims
      ∧ (settleRamps v).out.seqSet = v.out.seqSet ∧ (settleRamps v).out.posting = v.out.posting := by
  obtain ⟨b, hb⟩ := settleRamps_of_still (s := v) (.inr (by rw [hp]; exact fun e => hNot (Option.some.inj e)))
  rw [hb]
  exact ⟨rfl, rfl, rfl, rfl, rfl⟩

theorem Calmed.resume_waits (h : Calmed s w) (hPast : x.interrupted = .followWait
      ∨ (x.interrupted = .claiming ∧ ∀ r, claimFor x.target = some r → (procOf s r).state = .held))
    (hForced : x.forced = false) (hTarget : x.target ≠ .safe) (hMembers : rampingMembers s (chooseWaitSet s) ≠ []) :
    (settleRamps (resume x w)).seq = { s.seq with
        record := none, phase := some .followWait, transition := some ⟨x.target, x.forced⟩, waitSet := chooseWaitSet s
        followTimer := some (s.now + s.cfg.follow.tFOLLOW * 1000) }
      ∧ (settleRamps (resume x w)).port = (postAll [.resumed x.target] w).port := by
  have hWait : chooseWaitSet (resuming x w) = chooseWaitSet s := h.waitSet rfl rfl
  have hNow : (resuming x w).now = s.now := h.now
  have hCfg : (resuming x w).cfg = s.cfg := h.cfg
  have hMembersNow : rampingMembers (resuming x w) (chooseWaitSet (resuming x w)) ≠ [] := by
    rw [hWait, rampingMembers, show (resuming x w).peers = s.peers from h.peers]
    exact hMembers
  have hResume : resume x w = setPhase .followWait (waitBegun (resuming x w)) := by
    rw [h.resume_past hPast, hForced, enterWaitOrRamp_of_waiting hTarget hMembersNow]
  obtain ⟨hSeq, hPort, -⟩ := settleRamps_of_phase (v := setPhase .followWait (waitBegun (resuming x w))) (p := .followWait)
    (by rw [setPhase_seq]) nofun
  rw [hResume, hSeq, hPort, setPhase_seq, setPhase_port]
  refine ⟨?_, resuming_port⟩
  rw [waitBegun, State.setSeq_seq, hWait, hNow, hCfg, h.resuming_seq]
  rfl

theorem requestClaim_of_pending (hp : (procOf s r).state = .pending) : (requestClaim r s).1 = s := by
  unfold requestClaim
  dsimp only
  split
  case h_6 => rfl
  all_goals next h => cases hp.symm.trans h

/-- A claim requested again, or taken already as a request that waited (R53, R70). -/
theorem Calmed.claim_requested (h : Calmed s w) (hv : procOf v r = procOf w r) (hBack : heldBack v = heldBack w)
    (hIdle : (procOf s r).state = .idle) (hFreeze : s.claims.freeze = false) :
    (procOf (requestClaim r v).1 r).state = .pending ∧ (procOf (requestClaim r v).1 r).attempt = 1 := by
  have hFree : heldBack v = false := by
    rw [hBack]
    exact not_heldBack (by rw [h.freeze, hFreeze, h.filtered]; decide)
  rcases h.proc r with hSame | ⟨-, hPending, hAttempt⟩
  · have hIdleNow : (procOf w r).state = .idle := by rw [hSame, hIdle]
    rw [requestClaim_of_free (by rw [hv]; exact hIdleNow) (by rw [hv]; exact h.taken r hFreeze hIdleNow) hFree, beginAttempt_proc]
    exact ⟨rfl, rfl⟩
  · rw [requestClaim_of_pending (by rw [hv]; exact hPending), hv]
    exact ⟨hPending, hAttempt⟩

theorem Calmed.resume_claims (h : Calmed s w) (hi : x.interrupted = .claiming) (hr : claimFor x.target = some r)
    (hIdle : (procOf s r).state = .idle) (hFreeze : s.claims.freeze = false) :
    (settleRamps (resume x w)).seq = { s.seq with
        record := none, phase := some .claiming, transition := some ⟨x.target, x.forced⟩ }
      ∧ (procOf (settleRamps (resume x w)) r).state = .pending ∧ (procOf (settleRamps (resume x w)) r).attempt = 1
      ∧ (settleRamps (resume x w)).port = (postAll [.resumed x.target] w).port := by
  have hState : (procOf w r).state = .idle ∨ (procOf w r).state = .pending := by
    rcases h.proc r with hSame | ⟨-, hPending, -⟩
    · exact .inl (by rw [hSame, hIdle])
    · exact .inr hPending
  have hNot {p : ProcState} (hp : p ≠ .idle) (hp' : p ≠ .pending) : (procOf w r).state ≠ p := by
    rintro rfl
    exact hState.elim hp hp'
  have hResume : resume x w = (requestClaim r (setPhase .claiming (resuming x w))).1 := by
    rw [resume_of_claiming hi fun r' hr' => by cases hr.symm.trans hr'; exact hNot nofun nofun]
    exact enterFirstPhase_of_unheld (s := resuming x w) _ hr (hNot nofun nofun)
  have hActs := requestClaim_claimActs r (setPhase .claiming (resuming x w))
  have hSeq : (resume x w).seq = { s.seq with record := none, phase := some .claiming, transition := some ⟨x.target, x.forced⟩ } := by
    rw [hResume, ClaimActs.seq hActs, setPhase_seq, h.resuming_seq]
  obtain ⟨hSeqSettled, hPort, hClaims, -⟩ := settleRamps_of_phase (v := resume x w) (p := .claiming) (by rw [hSeq]) nofun
  have hProc : procOf (settleRamps (resume x w)) r = procOf (requestClaim r (setPhase .claiming (resuming x w))).1 r := by
    rw [procOf, hClaims, hResume]
    rfl
  obtain ⟨hPending, hAttempt⟩ := h.claim_requested (v := setPhase .claiming (resuming x w)) (by rw [procOf_setPhase]; rfl)
    (by rw [heldBack_setPhase]; rfl) hIdle hFreeze
  rw [hProc]
  refine ⟨hSeqSettled.trans hSeq, hPending, hAttempt, hPort.trans ?_⟩
  rw [hResume, ClaimActs.port hActs, setPhase_port]
  exact resuming_port

/-! ## A release with no record (R53) -/

theorem resumeOrSettle_of_free (hp : s.seq.phase = some .suspended) (hSafe : confirmed s ≠ some .safe) (hx : s.seq.record = none) :
    resumeOrSettle s = releaseSettled s := by
  unfold resumeOrSettle
  rw [hp, if_neg (by decide), if_neg hSafe, hx]

theorem reposted_seq (s : State) : (reposted s).seq = s.seq := by
  unfold reposted
  split
  · rfl
  next d hd => rw [postSet_seq, ← hd]

theorem reposted_kept (s : State) : (reposted s).port = s.port ∧ (reposted s).decision = s.decision := by
  unfold reposted
  split
  · exact ⟨rfl, rfl⟩
  · exact ⟨postSet_port _ s, postSet_decision _ s⟩

theorem reposted_out (h : s.seq.demands ≠ none) :
    (reposted s).out.seqSet = s.seq.demands ∧ (reposted s).out.posting = nextPosting s.out.posting := by
  unfold reposted
  split
  next hNone => exact absurd hNone h
  next d hd => exact ⟨(postSet_seqSet d s).trans hd.symm, postSet_posting d s⟩

/-- A set posted moves no channel that the Sequencer wins, so a further ramp still has its way to go (R167). -/
theorem postSet_rampsAway {d e : DemandSet} (h : RampsAway s e) : RampsAway (postSet d s) e := by
  obtain ⟨ch, hWins, hAway⟩ := h
  have hSome := demandOf_of_winner hWins
  have hPosted : winner s.cfg { s.out with seqSet := some d, posting := nextPosting s.out.posting, completionPending := true } ch
      = some .sequencer := by
    rw [← hWins]
    refine winner_congr (fun src => ?_) _
    cases src
    case sequencer =>
      obtain ⟨x, hx⟩ := Option.isSome_iff_exists.1 hSome
      rw [hx]
      rfl
    all_goals rfl
  have hPresent : chGet (postSet d s).out.present ch = chGet s.out.present ch :=
    changeDemands_unmoved (s := s.setSeq { s.seq with demands := some d })
      (g := fun o => { o with seqSet := some d, posting := nextPosting o.posting, completionPending := true }) hPosted rfl
  refine ⟨ch, ?_, by rw [hPresent]; exact hAway⟩
  rw [postSet_cfg]
  exact ((postSet_moved d s).winner s.cfg ch).trans hPosted

theorem reposted_rampsAway {e : DemandSet} (h : RampsAway s e) : RampsAway (reposted s) e := by
  unfold reposted
  split
  · exact h
  · exact postSet_rampsAway h

theorem releaseSettled_of_unexpired (hExpired : s.seq.mode = some .defrost → s.seq.defrostExpired = false) :
    releaseSettled s = match s.seq.forcedPending with
      | some m => leaveNow m (reposted (setPhase .settled s))
      | none => startTest (reposted (setPhase .settled s)) := by
  have hSeq : (reposted (setPhase .settled s)).seq = { s.seq with phase := some .settled } := by rw [reposted_seq, setPhase_seq]
  have hExit : ((reposted (setPhase .settled s)).seq.mode = some .defrost && (reposted (setPhase .settled s)).seq.defrostExpired) = false := by
    rw [hSeq]
    by_cases hm : s.seq.mode = some .defrost
    · rw [hExpired hm, Bool.and_false]
    · rw [decide_eq_false hm, Bool.false_and]
  have hForced : (reposted (setPhase .settled s)).seq.forcedPending = s.seq.forcedPending := by rw [hSeq]
  rw [← hForced]
  exact if_neg (Bool.eq_false_iff.1 hExit)

theorem Calmed.settles (h : Calmed s w) (hMode : s.seq.mode = some m) (hExpired : m = .defrost → s.seq.defrostExpired = false)
    (hFree : s.seq.forcedPending = none) (hOnly : OnlyDesires m s) :
    (settleRamps (releaseSettled w)).seq = { s.seq with phase := some .settled }
      ∧ (settleRamps (releaseSettled w)).port = w.port
      ∧ (s.seq.demands ≠ none → (settleRamps (releaseSettled w)).out.seqSet = s.seq.demands
        ∧ (settleRamps (releaseSettled w)).out.posting = nextPosting s.out.posting) := by
  have hSeq : (reposted (setPhase .settled w)).seq = { s.seq with phase := some .settled } := by rw [reposted_seq, setPhase_seq, h.seq]
  obtain ⟨hPort, -⟩ := reposted_kept (setPhase .settled w)
  have hConfirmed : confirmed (reposted (setPhase .settled w)) = confirmed s := by
    refine confirmed_congr ?_ (by rw [hSeq]) (by rw [hSeq])
    exact (congrArg Port.cfg hPort).trans ((setPhase_cfg ..).trans h.cfg)
  have hTest : startTest (reposted (setPhase .settled w)) = reposted (setPhase .settled w) :=
    startTest_eq_self fun d hd => .inr (.inl (by rw [hSeq, hOnly d (hConfirmed ▸ hd)]; exact hMode))
  have hRelease : releaseSettled w = reposted (setPhase .settled w) := by
    rw [releaseSettled_of_unexpired, h.seq, hFree, hTest]
    rw [h.seq, hMode]
    exact fun hm => hExpired (Option.some.inj hm)
  obtain ⟨hSeqSettled, hPortSettled, -, hSet, hPosting⟩ :=
    settleRamps_of_phase (v := reposted (setPhase .settled w)) (p := .settled) (by rw [hSeq]) nofun
  rw [hRelease]
  refine ⟨hSeqSettled.trans hSeq, hPortSettled.trans (hPort.trans (setPhase_port ..)), fun hDemands => ?_⟩
  obtain ⟨hSetTaken, hPostingTaken⟩ := reposted_out (s := setPhase .settled w) (by rw [setPhase_seq, h.seq]; exact hDemands)
  refine ⟨hSet.trans (hSetTaken.trans (by rw [setPhase_seq, h.seq])), hPosting.trans (hPostingTaken.trans ?_)⟩
  rw [setPhase_out, h.posting]

/-- A pending forced leave of the present mode is acted on at once (R50). -/
theorem Calmed.leaves {d : Mode} (h : Calmed s w) (hMode : s.seq.mode = some m)
    (hExpired : m = .defrost → s.seq.defrostExpired = false) (hForced : s.seq.forcedPending = some m)
    (hDesired : s.decision.last.desired = some d) (hNot : d ≠ .defrost) (hDemands : s.seq.demands ≠ none)
    (hMoves : RampsAway (s.setOut { s.out with fire := ⟨none, none, none⟩ }) (rampSet s.cfg s.decision.last (leaveTarget m d))) :
    RampingTo (leaveTarget m d) true { s.seq with candidate := none, count := 0, forcedPending := none }
        (nextPosting (nextPosting s.out.posting)) s (settleRamps (releaseSettled w))
      ∧ (settleRamps (releaseSettled w)).port = w.port := by
  have hSeq : (reposted (setPhase .settled w)).seq = { s.seq with phase := some .settled } := by rw [reposted_seq, setPhase_seq, h.seq]
  obtain ⟨hPort, hDecision⟩ := reposted_kept (setPhase .settled w)
  have hDecisionNow : (reposted (setPhase .settled w)).decision = s.decision := hDecision.trans ((setPhase_decision ..).trans h.decision)
  have hCfg : (reposted (setPhase .settled w)).cfg = s.cfg := (congrArg Port.cfg hPort).trans ((setPhase_cfg ..).trans h.cfg)
  have hTarget : forcedTarget (reposted (setPhase .settled w)) m = leaveTarget m d :=
    forcedTarget_eq m (by rw [hDecisionNow, hDesired]) hNot
  have hRelease : releaseSettled w = enterRamping (leaveTarget m d) (forcedStart (leaveTarget m d) (reposted (setPhase .settled w))) := by
    rw [releaseSettled_of_unexpired, h.seq, hForced, ← hTarget]
    · exact leaveNow_of_mode (by rw [hSeq]; exact hMode)
    · rw [h.seq, hMode]
      exact fun hm => hExpired (Option.some.inj hm)
  have hStart : (forcedStart (leaveTarget m d) (reposted (setPhase .settled w))).seq
      = { s.seq with
          candidate := none, count := 0, forcedPending := none, phase := some .settled, transition := some ⟨leaveTarget m d, true⟩ } := by
    rw [forcedStart, State.setSeq_seq, hSeq]
  have hAway : RampsAway (reposted (setPhase .settled w)) (rampSet s.cfg s.decision.last (leaveTarget m d)) :=
    reposted_rampsAway ((h.away _ hMoves).congr (setPhase_cfg ..) (setPhase_out ..))
  obtain ⟨hRamping, hPortRamping⟩ := ramps_of_away (s := s) (v := forcedStart (leaveTarget m d) (reposted (setPhase .settled w)))
    (q := { s.seq with candidate := none, count := 0, forcedPending := none, phase := some .settled }) hStart hCfg hDecisionNow
    (hAway.congr rfl rfl)
  have hPosting : (forcedStart (leaveTarget m d) (reposted (setPhase .settled w))).out.posting = nextPosting s.out.posting := by
    show (reposted (setPhase .settled w)).out.posting = _
    rw [(reposted_out (s := setPhase .settled w) (by rw [setPhase_seq, h.seq]; exact hDemands)).2, setPhase_out, h.posting]
  rw [hPosting] at hRamping
  rw [hRelease]
  exact ⟨hRamping, hPortRamping.trans (hPort.trans (setPhase_port ..))⟩

end

end Sys2Proof.Machine
end

section
/-! PROOF. The FIRE input whole (O47). -/

namespace Sys2Proof.Machine

section
variable {s t u w : State} {m : Mode}

/-- How a release is taken while SUSPENDED with no transition in progress, u being the station before the evaluation. -/
def ReleaseTaken (m : Mode) (s u : State) : Prop :=
  let calm := s.setOut { s.out with fire := ⟨none, none, none⟩ }
  let moves (n : Mode) : Prop := RampsAway calm (rampSet s.cfg s.decision.last n)
  let emptied := { s.seq with record := none }
  let next := nextPosting s.out.posting
  let posted (l : List NoticeBody) : Prop := s.port.notices.length ≤ 14 →
    u.port.notices = s.port.notices ++ (NoticeBody.fireReleased :: l).map fun b => noticeNow b s
  let safe : Prop := confirmed s = some .safe
  (safe → moves .safe → RampingTo .safe false { emptied with forcedPending := none } next s u
      ∧ posted (s.seq.record.toList.map fun x => .discarded x.target))
    ∧ (∀ x, s.seq.record = some x → ¬safe → s.seq.forcedPending ≠ none ∨ ¬Resumes s x → moves m →
        RampingTo m false emptied next s u ∧ posted [.discarded x.target])
    ∧ (∀ x, s.seq.record = some x → ¬safe → s.seq.forcedPending = none → Resumes s x →
        let wait := chooseWaitSet s
        let stays : Prop := x.forced = false ∧ x.target ≠ .safe ∧ rampingMembers s wait ≠ []
        let past : Prop := x.interrupted = .followWait
          ∨ (x.interrupted = .claiming ∧ ∀ r, claimFor x.target = some r → (procOf s r).state = .held)
        (x.interrupted = .ramping ∨ (past ∧ ¬stays) → moves x.target →
            RampingTo x.target x.forced emptied next s u ∧ posted [.resumed x.target])
          ∧ (past → stays → u.seq = { emptied with
                phase := some .followWait, transition := some ⟨x.target, x.forced⟩, waitSet := wait
                followTimer := some (s.now + s.cfg.follow.tFOLLOW * 1000) }
              ∧ posted [.resumed x.target])
          ∧ (∀ r, x.interrupted = .claiming → claimFor x.target = some r → (procOf s r).state = .idle →
              s.claims.freeze = false →
              u.seq = { emptied with phase := some .claiming, transition := some ⟨x.target, x.forced⟩ }
                ∧ (procOf u r).state = .pending ∧ (procOf u r).attempt = 1 ∧ posted [.resumed x.target]))
    ∧ (s.seq.record = none → ¬safe → (m = .defrost → s.seq.defrostExpired = false) →
        (s.seq.forcedPending = none → OnlyDesires m s →
            u.seq = { s.seq with phase := some .settled } ∧ posted []
              ∧ (s.seq.demands ≠ none → u.out.seqSet = s.seq.demands ∧ u.out.posting = next))
          ∧ (s.seq.forcedPending = some m → ∀ d, s.decision.last.desired = some d → d ≠ .defrost →
            let target := leaveTarget m d
            s.seq.demands ≠ none → moves target →
              RampingTo target true { s.seq with candidate := none, count := 0, forcedPending := none }
                  (nextPosting next) s u
                ∧ posted []))

theorem Calmed.releaseTaken (h : Calmed s w) (hp : s.seq.phase = some .suspended) (hMode : s.seq.mode = some m) :
    ReleaseTaken m s (settleRamps (resumeOrSettle w)) := by
  have hPhase : w.seq.phase = some .suspended := by rw [h.seq, hp]
  have hSame {x : Suspension} (hx : s.seq.record = some x) (hSafe : confirmed s ≠ some .safe) : resumeOrSettle w
      = if s.seq.forcedPending.isSome then rampBack (dropRecord x w)
        else if resumable x w then resume x w else rampBack (dropRecord x w) := by
    rw [resumeOrSettle_of_record hPhase (by rw [h.desires]; exact hSafe) (by rw [h.seq]; exact hx), h.seq]
  refine ⟨fun hSafe hMoves => ?safe, fun x hx hSafe hNot hMoves => ?back, fun x hx hSafe hFree hResumes => ?resumed,
    fun hNone hSafe hExpired => ?settled⟩
  case safe =>
    obtain ⟨hRamping, hPort⟩ := h.safe hp hSafe hMoves
    refine ⟨hRamping, h.posted ?_ hPort⟩
    cases s.seq.record <;> simp
  case back =>
    have hBack : resumeOrSettle w = rampBack (dropRecord x w) := by
      rw [hSame hx hSafe]
      rcases hNot with hForced | hNot
      · exact if_pos (Option.isSome_iff_ne_none.2 hForced)
      · rw [if_neg (c := resumable x w = true) fun hr => hNot (h.resumes_iff.1 ((resumable_iff x w).1 hr)), ite_self]
    obtain ⟨hRamping, hPort⟩ := h.rampsBack (x := x) hMode hMoves
    rw [hBack]
    exact ⟨hRamping, h.posted (Nat.le_refl _) hPort⟩
  case resumed =>
    have hResume : resumeOrSettle w = resume x w := by
      rw [hSame hx hSafe, hFree, if_neg (by decide), if_pos ((resumable_iff x w).2 (h.resumes_iff.2 hResumes))]
    rw [hResume]
    refine ⟨fun hInterrupted hMoves => ?_, fun hPast hStays => ?_, fun r hi hr hIdle hFreeze => ?_⟩
    · obtain ⟨hRamping, hPort⟩ := h.resume_ramps hInterrupted hMoves
      exact ⟨hRamping, h.posted (Nat.le_refl _) hPort⟩
    · obtain ⟨hForced, hTarget, hMembers⟩ := hStays
      obtain ⟨hSeq, hPort⟩ := h.resume_waits hPast hForced hTarget hMembers
      exact ⟨hSeq, h.posted (Nat.le_refl _) hPort⟩
    · obtain ⟨hSeq, hPending, hAttempt, hPort⟩ := h.resume_claims hi hr hIdle hFreeze
      exact ⟨hSeq, hPending, hAttempt, h.posted (Nat.le_refl _) hPort⟩
  case settled =>
    have hSettled : resumeOrSettle w = releaseSettled w :=
      resumeOrSettle_of_free hPhase (by rw [h.desires]; exact hSafe) (by rw [h.seq]; exact hNone)
    rw [hSettled]
    refine ⟨fun hFree hOnly => ?_, fun hForced d hDesired hNot hDemands hMoves => ?_⟩
    · obtain ⟨hSeq, hPort, hOut⟩ := h.settles hMode hExpired hFree hOnly
      exact ⟨hSeq, h.posted (Nat.zero_le _) hPort, hOut⟩
    · obtain ⟨hRamping, hPort⟩ := h.leaves hMode hExpired hForced hDesired hNot hDemands hMoves
      exact ⟨hRamping, h.posted (Nat.zero_le _) hPort⟩

/-- Settles O47: the filter, then the assertion and the release of the filtered level part by part. -/
theorem fireIsFilteredAndTakesTheOutputs : Obligations.FireIsFilteredAndTakesTheOutputs := by
  unfold Obligations.FireIsFilteredAndTakesTheOutputs
  intro s
  refine ⟨fun level => execFirePinChange_eq level s, fireFilterDue_iff s, fun hDue => ?notDue, execFireFilterExpiry_of_open,
    fun hDue hClosed hPin hSeq hGuard hManual => ?asserted, fun hDue hClosed hPin => ?released⟩
  case notDue =>
    show Host.Outcome.next (if fireFilterDue s then _ else s) = _
    rw [hDue]
    rfl
  case asserted =>
    have hExec := execFireFilterExpiry_of_closed hDue hClosed
    rw [hPin] at hExec
    have hOut := assertedFrom_out s
    have hRun (hr : s.port.restarting = false) : running s = true := running_iff.2 ⟨hClosed, hr⟩
    refine ⟨_, hExec, by rw [if_pos rfl, hOut], by rw [if_pos rfl, hOut], by rw [if_pos rfl, hOut],
      fun ch p hp => assertedFrom_present hSeq hGuard hManual hp, by rw [if_pos rfl, hOut], by rw [if_pos rfl, hOut],
      by rw [if_pos rfl, hOut], assertedFrom_posted, assertedFrom_of_restarting, assertedFrom_alert, fun y => assertedFrom_mark,
      fun p hr hp hNot => ?_, fun hr r => ⟨(assertedFrom_spares (hRun hr) r).kept, (assertedFrom_spares (hRun hr) r).ended⟩⟩
    rw [if_pos rfl, assertedFrom_seq (hRun hr) hp hNot]
    refine ⟨rfl, rfl, rfl, rfl, rfl, fun hSettled => ?_, fun y hNotSettled hy => suspensionOf_of_transition hp hNotSettled hy⟩
    exact suspensionOf_settled (hSettled ▸ hp)
  case released =>
    have hExec := execFireFilterExpiry_of_closed hDue hClosed
    rw [hPin] at hExec
    obtain ⟨hFiltered, hSince, hFire, hManual⟩ := releasedFrom_out s
    have hRun (hr : s.port.restarting = false) : running s = true := running_iff.2 ⟨hClosed, hr⟩
    refine ⟨releasedFrom s, hExec, hFiltered, hSince, hFire, hManual, fun hr => ⟨releasedFrom_counter (hRun hr),
      releasedFrom_awake (hRun hr)⟩, fun mode hr hp _ hMode => ?_⟩
    obtain ⟨hDecision, hFireEnded, -⟩ := fireEnded_kept s
    exact ⟨_, releasedFrom_eq (hRun hr), hDecision, hFireEnded, (fireCalmed_calmed hp).releaseTaken hp hMode⟩

end

end Sys2Proof.Machine
end
